-- ==== Sys2Proof/Word.lean ====
section
/-! DEFINITION. The word types of the block, the unit of time, and the type of the keyed tables that State is built from. -/

namespace Sys2Proof

/-- One byte of a frame, a record or a memory window. -/
abbrev Byte := BitVec 8
/-- A 32-bit register word (R11). -/
abbrev Word := BitVec 32
/-- A stitch number (R27). -/
abbrev StitchNo := BitVec 32
/-- The 51-bit superframe count (R50). -/
abbrev SF := BitVec 51
/-- A free-running 16-bit ring index (R451). -/
abbrev RingIdx := BitVec 16

/-- Times and delays are counted in picoseconds. -/
abbrev Time := Nat

namespace Time
def ns (n : Nat) : Time := n * 1000
def us (n : Nat) : Time := n * 1000000
def ms (n : Nat) : Time := n * 1000000000
def sec (n : Nat) : Time := n * 1000000000000
/-- One 125 µs frame of the device-wide grid (R38, R49). -/
def frame : Time := us 125
end Time

/-- A table of plain data: pairs of a key and a value, keys strictly rising. -/
abbrev Tab (α : Type) := List (Nat × α)

end Sys2Proof
end

