-- ==== Sys2Proof/Syntax.lean ====
section
/-! DEFINITION. The commands of the block: one constructor of Instr per row of the spec's table of operations and events, and the records their operands are made of.

Every command carries `dt`, the time in picoseconds that has passed since the command before it, so that a queue of commands is a timed sequence (log entry 1). -/

namespace Sys2Proof

/-- The two host ports (R354). -/
inductive PortId | a | b
  deriving DecidableEq, Repr

/-- The two compute dies (R5, R13). -/
inductive DieId | east | west
  deriving DecidableEq, Repr

/-- The direction of a frame (R193). -/
inductive Dir | down | up
  deriving DecidableEq, Repr

/-- The upstream burst rates, numbered as FLAGS[3:2] of a fitting record (Table 3.3). -/
inductive Rate | r9 | r12 | r24 | r49
  deriving DecidableEq, Repr

/-- The terminal activation states (Table 4.2). -/
inductive TermState | absent | assigned | ranged | operational | searching | disabled
  deriving DecidableEq, Repr

/-- The twin roles (Table 12.1). -/
inductive Role | solo | active | syncing | armed | disarmed
  deriving DecidableEq, Repr

/-- The time base states (Table 11.2). -/
inductive BaseState | unset | acquiring | locked | holdover | jumpHeld | freeRun
  deriving DecidableEq, Repr

/-- The part of a command packet that every opcode has (Table 14.4), and the ring that carried it. -/
structure Hdr where
  port : PortId
  ring : Nat
  signal : Bool := false
  seq : Word := 0
  session : Word := 0
  stitch : StitchNo := 0
  deriving DecidableEq, Repr

/-- A baste record (Table 14.8): OP, KIND, HANDLE, PIN, the forbid list and the field block. -/
structure BasteRec where
  op : Nat
  kind : Nat
  handle : Nat := 0
  pin : Nat := 0xFFFFFFFF
  forbid : List Nat := []
  fields : List (Nat × Int) := []
  deriving DecidableEq, Repr

/-- A query kind with its key (Table 14.7). -/
inductive QueryKey
  | placement (kind num : Nat)
  | stitchStatus (n : StitchNo)
  | channelState (ch : Nat)
  | profileState (ch : Nat) (rate : Rate)
  | terminal (term : Nat)
  | fitting (term : Nat)
  | bobbinState (bob : Nat)
  | row (die : DieId) (entry : Nat)
  | fmtEntry (die : DieId) (tenant vid mac : Nat)
  | keySlot (die : DieId) (slot : Nat)
  | keyOwner (die : DieId) (kind owner : Nat)
  | timeBase (base : Nat)
  | todState (tree : Nat)
  | twin
  | laneMargin (lane : Nat) (scan : Bool)
  | schema (kind key : Nat)
  | unit
  deriving DecidableEq, Repr

/-- The delivery rings and the punt pool that HOST_RINGS attaches (R363). -/
inductive RingKind | event | notice | omci | launch | punt
  deriving DecidableEq, Repr

/-- Error injection of a pattern test (R352). -/
inductive Inject
  | none
  | once
  | burst (n : Nat)
  | rate (n : Nat)
  deriving DecidableEq, Repr

/-- Where PORT_SEND sends a frame (Table 14.6). -/
inductive SendDest
  | port (index : Nat)
  | queue (handle : Nat)
  deriving DecidableEq, Repr

/-- The engines that ABORT can name (R376). -/
inductive AbortTarget
  | command (port : PortId) (ring : Nat) (seq : Word)
  | download (term : Nat)
  | omci (term prio : Nat)
  | laneTest (lane : Nat)
  | seamTest (lane : Nat)
  | marginScan (lane : Nat)
  | mepSeries (mep : Nat)
  | resync
  deriving DecidableEq, Repr

/-- An ABORT entry of a command ring: its place in the ring, its packet's fields and its target (Table 14.4, R375, R376). -/
structure AbortEntry where
  port : PortId
  ring : Nat
  idx : RingIdx
  seq : Word
  session : Word := 0
  signal : Bool := false
  stitch : StitchNo := 0
  target : AbortTarget
  deriving DecidableEq, Repr

/-- One codeword of a received burst, as the decoder and the lane report it (R57, R94). `upd` lists the working
values the codeword's qualifying windows would move: 0–8 the FFE taps, 9 the DFE tap, 10 the CDR phase, 11 the gain. -/
structure Codeword where
  ok : Bool := true
  corrected : Nat := 0
  qualifies : Bool := true
  upd : List (Nat × Int) := []
  deriving DecidableEq, Repr

/-- An XGEM frame carried in a burst: the port, the key index, the codewords it lies in and its bytes. -/
structure UpFrame where
  portId : Nat
  keyIndex : Nat
  firstCw : Nat := 0
  lastCw : Nat := 0
  fragment : Bool := false
  bytes : List Byte := []
  deriving DecidableEq, Repr

/-- A bandwidth report (DBRu) carried in a burst. -/
structure UpReport where
  allocId : Nat
  bytes : Nat
  cw : Nat := 0
  deriving DecidableEq, Repr

/-- What a lane finds of the context that an item needs (R275): a context that is moved to the deep pan to make room, by its slot
kind and owner; and, when the item's own context lies in the deep pan, the version read back and whether its tag holds. -/
structure CtxIn where
  spill : Option (Nat × Nat) := none
  reload : Option (Nat × Bool) := none
  deriving DecidableEq, Repr

/-- The SecTAG of a frame on a port, and what its cipher lane finds (R278 to R280): the receive channel 1 to 8, the association and
the packet number that it names, its ICV check, its context, and whether the port's ingress buffer had room for it (R256). -/
structure SecTag where
  chan : Nat := 1
  an : Nat := 0
  pn : Nat := 1
  icvOk : Bool := true
  ctx : CtxIn := {}
  room : Bool := true
  deriving DecidableEq, Repr

/-- What the lane hears at the time of a granted burst (R56, R98). `delim` is the offset δ in ps of the delimiter
from its expected position, when it is found at all. -/
structure BurstObs where
  energy : Bool := true
  delim : Option Int := some 0
  onu : Nat := 0
  cws : List Codeword := []
  bits : Nat := 0
  reports : List UpReport := []
  frames : List UpFrame := []
  ploamMicOk : Option Bool := none
  ploamKnown : Bool := true
  ploamOnu : Nat := 0
  marginV : Nat := 0
  marginH : Nat := 0
  /-- The DATA context of the granted terminal. -/
  ctx : CtxIn := {}
  deriving DecidableEq, Repr

/-- An upstream Acknowledge names what it acknowledges. -/
inductive AckOf
  | ranging
  | profile
  | other
  deriving DecidableEq, Repr

/-- What a service finds in the trapped frame at the head of its die's queue (R241 to R250). The flow, tenant and tags are the
queued frame's own. Multicast groups are IPv4 addresses below 2³² and IPv6 addresses above. -/
inductive SvcMsg
  | dhcp4Client (present : Bool)
  | dhcp4Server (flow : Nat)
  | dhcp6Client
  | dhcp6RelayForward
  | dhcp6RelayReply (flow : Option Nat)
  | pppoeUp (code : Nat) (present : Bool)
  | pppoeDown (flow : Nat) (code : Nat)
  | mcastReport (joins leaves : List Nat)
  | mcastNetQuery
  | ccm (mep remote level interval : Nat) (maOk : Bool) (rdi : Bool)
  | lbm (mep : Nat) (txn : Nat)
  | ltm (mep : Nat) (txn : Nat)
  | lbr (mep : Nat) (rtt : Nat)
  | ltr (mep : Nat) (ttl : Nat) (last : Bool)
  | cfmPass
  | ptp (domain : Nat)
  | probe (value : Word) (ch vid seq : Nat)
  deriving DecidableEq, Repr

/-- A structure that a pass finds with a parity error (R204, R233). -/
inductive ParityErr
  | none
  | row (entry : Nat)
  | fmt (bank index : Nat)
  | prefix_
  | nextHop
  deriving DecidableEq, Repr

/-- An upstream OMCI message (R238). -/
inductive OmciMsg
  | response (txn : Nat) (contents : List Byte)
  | alarm (seq : Nat) (contents : List Byte)
  | notify (contents : List Byte)
  deriving DecidableEq, Repr

/-- What a terminal answers during a software download (R240). -/
inductive SwdlMsg
  | start (window : Nat)
  | windowAck (missing : Bool)
  | endAck (busy : Bool)
  deriving DecidableEq, Repr

/-- The header fields of a received Seam message that its handling depends on (Table 12.2), and whether its tag passes. -/
structure SeamHdr where
  lane : Nat
  seq : Nat
  tagOk : Bool := true
  stitch : StitchNo := 0
  sf : SF := 0
  token : Bool := false
  ackReq : Bool := false
  deriving DecidableEq, Repr

/-- A STITCH message of the Seam (Table 12.3, R316). -/
inductive StitchPart
  | record (part : Nat) (rec : BasteRec) (num : Nat) (chosen : Option Nat)
  | discard (part : Nat)
  | closing (part : Nat) (number : StitchNo) (count : Nat) (b1 : Time) (digest : BitVec 64)
  deriving DecidableEq, Repr

/-- A RESYNC message of the Seam (R332). -/
inductive ResyncMsg
  | request
  | chunk (index : Nat) (last : Bool) (stitch : StitchNo) (digest : BitVec 64) (recs : List (BasteRec × Nat))
      (pools : List (Nat × Nat × Nat × List Nat)) (privs : List (Nat × Nat × Nat)) (ok : Bool)
  deriving DecidableEq, Repr

/-- A HOST_EVENT of the Seam (Table 12.3). -/
inductive HostEventMsg
  | hint (alloc : Nat) (sf : SF) (bytes : Nat)
  | jumpAccept (base : Nat) (at_ : SF) (step : Int)
  | jumpRefuse (base : Nat)
  | timeSet (base : Nat) (at_ : SF) (value : Nat)
  | fittingReset (term : Nat) (empty : Bool)
  | rogueDisable (term : Nat)
  | rogueEnable (term : Nat)
  | flush (queue : Nat)
  | abort (target : AbortTarget)
  deriving DecidableEq, Repr

/-- One entry of a BURST_TALLY: a granted unicast burst and whether the standby's lane accepted it (R323). -/
structure TallyEntry where
  ch : Nat
  accepted : Bool
  ownAbsent : Bool
  deriving DecidableEq, Repr

/-- One reading of the reference-clock monitors (R339). References 0–3 PON, 4 Ethernet, 5 Seam, 6 PCIe A, 7 PCIe B. -/
structure RefReading where
  ref : Nat
  present : Bool := true
  ppm : Int := 0
  ppbVsGrid : Int := 0
  deriving DecidableEq, Repr

/-- Counters named by a COUNTER command: block counters of a group, or flow statistics (R390, R392). -/
structure CtrRange where
  flowStats : Bool := false
  group : Nat
  first : Nat
  count : Nat
  deriving DecidableEq, Repr

/-- The item a cipher lane was computing when its datapaths disagreed (Table 10.2). -/
inductive CipherItem
  | downNotHanded (ch : Nat)
  | downPartSent (ch : Nat)
  | upXgem (term : Nat)
  | macsecTx (port : Nat)
  | macsecRx (assoc : Nat) (cutThrough : Option Nat)
  | message
  | key
  deriving DecidableEq, Repr

/-- The causes of a fatal watchdog (Table 12.5). -/
inductive Silent | atelierCore | unpick | supervisor
  deriving DecidableEq, Repr

/-- The state without a copy that an uncorrectable error was found in (Table 12.5). -/
inductive EccPlace | secureSram | pipeline | scheduler
  deriving DecidableEq, Repr

/-- A block that holds placed objects and may confirm its revocations late (R44): its location as R373 numbers it. -/
abbrev Block := Nat

/-- The commands of the block, one per row of the table of operations and events. -/
inductive Instr
  -- host commands
  | sessionOpen (dt : Nat) (h : Hdr) (lowest highest agent : Nat)
  | sessionClose (dt : Nat) (h : Hdr)
  | hostRings (dt : Nat) (h : Hdr) (kind : RingKind) (addr entries mask : Nat)
  | baste (dt : Nat) (h : Hdr) (rec : BasteRec)
  | discard (dt : Nat) (h : Hdr)
  | stitch (dt : Nat) (h : Hdr) (yieldIn : Bool)
  | query (dt : Nat) (h : Hdr) (key : QueryKey)
  | laneTestStart (dt : Nat) (h : Hdr) (lane pattern : Nat) (inject : Inject)
  | laneTestStop (dt : Nat) (h : Hdr) (lane : Nat)
  | laneInject (dt : Nat) (h : Hdr) (subport n : Nat)
  | omciRequest (dt : Nat) (h : Hdr) (term msgType cls inst prio : Nat) (contents : List Byte)
  | swdlStart (dt : Nat) (h : Hdr) (term image inst window : Nat)
  | imageActivate (dt : Nat) (h : Hdr) (term inst : Nat)
  | imageCommit (dt : Nat) (h : Hdr) (term inst : Nat)
  | fittingReset (dt : Nat) (h : Hdr) (term : Nat) (empty : Bool)
  | terminalEnable (dt : Nat) (h : Hdr) (term : Nat)
  | imageOpen (dt : Nat) (h : Hdr) (die : DieId) (image length : Nat)
  | imageWindow (dt : Nat) (h : Hdr) (die : DieId) (offset : Nat)
  | imageClose (dt : Nat) (h : Hdr) (die : DieId) (crc : Word)
  | imageDelete (dt : Nat) (h : Hdr) (die : DieId) (image : Nat)
  | loopClear (dt : Nat) (h : Hdr) (flow : Nat)
  | cfmLbm (dt : Nat) (h : Hdr) (mep target count : Nat)
  | cfmLtm (dt : Nat) (h : Hdr) (mep target ttl : Nat)
  | hint (dt : Nat) (h : Hdr) (alloc : Nat) (sf : SF) (bytes : Nat)
  | flush (dt : Nat) (h : Hdr) (queue : Nat)
  | portSend (dt : Nat) (h : Hdr) (dest : SendDest) (frame : List Byte) (launch : BitVec 144) (cls : Nat)
  | fmtInsert (dt : Nat) (h : Hdr) (dieMask tenant vid mac dtype dvalue : Nat)
  | fmtDelete (dt : Nat) (h : Hdr) (die : DieId) (tenant vid mac : Nat)
  | matchStep (dt : Nat) (h : Hdr) (die : DieId) (wide : Bool) (key cursor : Nat)
  | keyImport (dt : Nat) (h : Hdr) (record : List Byte)
  | jumpAccept (dt : Nat) (h : Hdr) (base : Nat)
  | jumpRefuse (dt : Nat) (h : Hdr) (base : Nat)
  | timeSet (dt : Nat) (h : Hdr) (base secs ns : Nat)
  | asymmetrySet (dt : Nat) (h : Hdr) (ch : Nat) (asymPs : Int) (confirm : Bool)
  | handover (dt : Nat) (h : Hdr) (yieldIn : Bool)
  | disarm (dt : Nat) (h : Hdr)
  | resync (dt : Nat) (h : Hdr)
  | seamTestStart (dt : Nat) (h : Hdr) (lane pattern : Nat) (inject : Inject)
  | seamTestStop (dt : Nat) (h : Hdr) (lane : Nat)
  | counterRead (dt : Nat) (h : Hdr) (range : CtrRange) (clearWrap : Bool)
  | counterClear (dt : Nat) (h : Hdr) (range : CtrRange)
  | userReadGrant (dt : Nat) (h : Hdr) (group : Nat) (grant : Bool)
  | abort (dt : Nat) (entry : AbortEntry)
  | commandExpired (dt : Nat) (port : PortId) (ring : Nat)
  | unpickScan (dt : Nat) (found : List AbortEntry)
  -- register, window and pin accesses of the host ports
  | thimbleClaim (dt : Nat) (port : PortId) (n agent : Nat)
  | thimbleRelease (dt : Nat) (port : PortId) (n agent : Nat)
  | thimbleTimeout (dt : Nat) (n : Nat)
  | fmtLockClaim (dt : Nat) (port : PortId) (die : DieId) (bank agent : Nat) (timeoutBits : BitVec 16)
  | fmtLockRelease (dt : Nat) (port : PortId) (die : DieId) (bank agent : Nat)
  | fmtLockTimeoutSet (dt : Nat) (port : PortId) (die : DieId) (bank : Nat) (timeout : BitVec 16)
  | tableLockTimeout (dt : Nat) (die : DieId) (bank : Nat)
  | ringEnable (dt : Nat) (writer port : PortId) (ring log2 : Nat)
  | ringDisable (dt : Nat) (writer port : PortId) (ring : Nat)
  | ringCmdProd (dt : Nat) (writer port : PortId) (ring : Nat) (v : Word)
  | ringRplCons (dt : Nat) (writer port : PortId) (ring : Nat) (v : Word)
  | puntFifo (dt : Nat) (reader port : PortId)
  | puntReturn (dt : Nat) (writer port : PortId) (index : BitVec 16)
  | evtPinStatus (dt : Nat) (writer : PortId) (pin : Nat) (v : Word)
  | registerWrite (dt : Nat) (writer : PortId) (offset bytes : Nat) (v : Word)
  | tableDmaWrite (dt : Nat) (port : PortId) (addr : Nat) (data : List Byte)
  | imageWindowWrite (dt : Nat) (port : PortId) (addr : Nat) (data : List Byte)
  | bar2StrayWrite (dt : Nat) (port : PortId) (addr : Nat)
  -- resets, start-up, token and supervision
  | porstNAssert (dt : Nat) (width : Time)
  | porstNRelease (dt : Nat) (side tokenIn yieldIn : Bool)
  | startupPhaseDone (dt : Nat) (failed : Bool)
  | tokenClaim (dt : Nat) (tokenInQuietSince : Time)
  | tokenGuardEnd (dt : Nat) (stayedInactive : Bool)
  | tokenInFall (dt : Nat)
  | tokenConflict (dt : Nat)
  | laserRaise (dt : Nat)
  | takeoverFirstFrame (dt : Nat)
  | handoverYield (dt : Nat)
  | watchdogExpiry (dt : Nat) (die : DieId) (what : Silent)
  | eccUncorrectable (dt : Nat) (die : DieId) (place : EccPlace)
  | bridgeDown (dt : Nat)
  | deepPanFault (dt : Nat) (die : DieId)
  | supplyReset (dt : Nat) (rail mv : Nat)
  | supplyResetEnd (dt : Nat)
  | dipBegin (dt : Nat) (rail mv : Nat)
  | supplyDip (dt : Nat) (rail minMv : Nat) (duration : Time)
  | supplyMargin (dt : Nat) (rail marginMv : Nat)
  | thermalWarning (dt : Nat) (die : DieId) (sensor celsius : Nat)
  | thermalClear (dt : Nat)
  | thermalReset (dt : Nat)
  | thermalResetEnd (dt : Nat)
  | hostPortDown (dt : Nat) (port : PortId)
  | hostPortLinkUp (dt : Nat) (port : PortId)
  | debugAccess (dt : Nat)
  | refclkCheck (dt : Nat) (readings : List RefReading)
  -- frames, maps and bobbins
  | gridBoundary (dt : Nat)
  | upstreamFrameEnd (dt : Nat) (ch : Nat) (gapsWithEnergy : Nat)
  | feederSearchResult (dt : Nat) (ch : Nat) (answers : List Int)
  | bobbinWake (dt : Nat) (bob : Nat)
  | mapBuildStart (dt : Nat) (ch : Nat)
  | batchSteal (dt : Nat) (thief home : Nat)
  | mapBuildDone (dt : Nat) (ch : Nat)
  | mapDeadline (dt : Nat) (ch : Nat)
  | buildInputLate (dt : Nat) (ch : Nat)
  | budgetPeriodEnd (dt : Nat)
  | bobbinFault (dt : Nat) (bob : Nat) (yieldIn : Bool)
  -- bursts, ranging and PLOAM
  | cuePulse (dt : Nat) (ch : Nat)
  | fittingPreload (dt : Nat) (ch : Nat) (storeError : Bool)
  | burstGuardStart (dt : Nat) (ch : Nat)
  | burstReceive (dt : Nat) (ch : Nat) (obs : BurstObs)
  | terminalBurstLoss (dt : Nat) (term : Nat)
  | upstreamLos (dt : Nat) (ch : Nat)
  | burstLaneLol (dt : Nat) (ch : Nat)
  | burstLaneLolClear (dt : Nat) (ch : Nat)
  | upstreamBerInterval (dt : Nat) (term : Nat)
  | fittingSweep (dt : Nat)
  | serialNumberOnu (dt : Nat) (ch serial : Nat) (rate : Rate) (arrival : Time)
  | registration (dt : Nat) (term : Nat) (arrival : Time)
  | acknowledge (dt : Nat) (term : Nat) (what : AckOf)
  | keyReport (dt : Nat) (term fragment : Nat) (key : List Byte)
  | sleepRequest (dt : Nat) (term mode : Nat)
  | ploamIntegrity (dt : Nat) (term : Nat)
  | ploamBacklogRelease (dt : Nat) (ch : Nat)
  | activationFailed (dt : Nat) (term : Nat)
  | rangingCorrectionTimeout (dt : Nat) (term : Nat)
  | terminalLost (dt : Nat) (term : Nat)
  | rogueSuspect (dt : Nat) (ch : Nat) (gain : Nat)
  | rogueCandidateCheck (dt : Nat) (ch : Nat) (energy : Bool)
  | profileAckTimeout (dt : Nat) (term : Nat)
  | discoveryPeriodExpiry (dt : Nat) (ch : Nat)
  | channelActive (dt : Nat) (ch : Nat)
  | channelQuiet (dt : Nat) (ch : Nat)
  | quietWake (dt : Nat) (ch : Nat)
  | quietSleep (dt : Nat) (ch : Nat)
  | channelDark (dt : Nat) (ch : Nat)
  | channelFault (dt : Nat) (ch : Nat) (moduleFault yieldIn : Bool)
  -- the stitch window and placement
  | stitchOpen (dt : Nat)
  | stitchConfirmCheck (dt : Nat) (unconfirmed : List Block)
  | stitchQuarantine (dt : Nat) (unconfirmed : List Block)
  | stitchClose (dt : Nat)
  | classifierBankWrite (dt : Nat) (die : DieId)
  | bankRelease (dt : Nat) (die : DieId) (lastFrameDone : Bool)
  | placementMoveDone (dt : Nat) (kind num : Nat)
  | cipherLoadRebalance (dt : Nat) (lane loadPercent : Nat)
  -- frames in the pipelines, queues and ports
  | pipelinePass (dt : Nat) (dir : Dir) (ingress : Nat) (frame : List Byte) (tag : Option SecTag) (parity : ParityErr)
  | recirculation (dt : Nat) (die : DieId) (dir : Dir) (pipe : Nat)
  | holdWindowClose (dt : Nat) (die : DieId) (tenant vid mac : Nat)
  | ageSweep (dt : Nat) (die : DieId)
  | queueEnqueue (dt : Nat) (die : DieId)
  | schedulerDequeue (dt : Nat) (ch : Nat) (ctx : CtxIn)
  | shaperRefill (dt : Nat)
  | policerRefill (dt : Nat)
  | cutThroughStart (dt : Nat) (ch : Nat) (present : Nat)
  | cutThroughFrameEnd (dt : Nat) (ch : Nat) (arrived : Nat) (icvOk : Bool)
  | timedLaunch (dt : Nat) (isPort : Bool) (dest : Nat)
  | uplinkTransmit (dt : Nat) (port : Nat)
  | fcInAssert (dt : Nat) (pin : Nat)
  | fcInDeassert (dt : Nat) (pin : Nat)
  | fcInStuck (dt : Nat) (pin : Nat)
  | fcOutHoldEnd (dt : Nat) (pin : Nat)
  -- cipher and keys
  | cipherLaneFault (dt : Nat) (lane : Nat) (item : CipherItem) (yieldIn : Bool)
  | keySlotFault (dt : Nat) (die : DieId) (slot : Nat) (copyOk : Bool)
  | keyRefresh (dt : Nat) (term : Nat)
  | keyReportTimeout (dt : Nat) (term : Nat)
  | keyExchangeRetry (dt : Nat) (term : Nat)
  | keySwitch (dt : Nat) (term : Nat)
  | keyClear (dt : Nat) (term : Nat)
  | keySpent (dt : Nat) (broadcast : Bool) (owner : Nat)
  | broadcastKeyRefresh (dt : Nat) (tenant ch : Nat)
  | broadcastKeySwitch (dt : Nat) (tenant ch : Nat)
  -- services
  | omciMessageReceive (dt : Nat) (term : Nat) (micOk : Bool) (msg : OmciMsg) (swdl : Option SwdlMsg)
  | omciTimeout (dt : Nat) (term prio : Nat)
  | swdlWindowTimeout (dt : Nat) (term : Nat)
  | swdlEndRetry (dt : Nat) (term : Nat)
  | serviceFrame (dt : Nat) (die : DieId) (msg : SvcMsg)
  | mcastQueryTimer (dt : Nat) (die : DieId) (tenant vid : Nat)
  | ccmSend (dt : Nat) (mep : Nat)
  | cfmCcmLoss (dt : Nat) (mep remote : Nat)
  | loopProbeSend (dt : Nat) (die : DieId) (tenant vid : Nat)
  | loopHoldEnd (dt : Nat) (flow : Nat)
  -- time
  | sync (dt : Nat) (base : Nat) (t1 t2 t3 t4 correction : Int) (complete : Bool)
  | announce (dt : Nat) (base port master : Nat) (dataset : Nat)
  | ptpSend (dt : Nat) (base port : Nat)
  | announceReceiptTimeout (dt : Nat) (base : Nat)
  | timeJumpHeld (dt : Nat) (base : Nat)
  | timeLock (dt : Nat) (base : Nat)
  | holdoverBudgetExpiry (dt : Nat) (base : Nat)
  | timeJumpApplied (dt : Nat) (base : Nat)
  | timeSetApply (dt : Nat) (base : Nat)
  | ppsInEdge (dt : Nat) (input : Nat)
  | ppsInLoss (dt : Nat) (input : Nat)
  | ppsOutPulse (dt : Nat) (output : Nat)
  | rclkResume (dt : Nat) (output : Nat)
  | todDelivery (dt : Nat) (term : Nat)
  -- serial lanes
  | laneLos (dt : Nat) (lane : Nat)
  | laneLosClear (dt : Nat) (lane : Nat)
  | laneLol (dt : Nat) (lane : Nat)
  | laneLolClear (dt : Nat) (lane : Nat)
  | portLinkUp (dt : Nat) (subport : Nat)
  | pcsAlignmentLoss (dt : Nat) (subport : Nat) (localFault : Bool)
  | laneTrainingDone (dt : Nat) (lane : Nat)
  | laneTrainFail (dt : Nat) (lane : Nat)
  | laneRetrain (dt : Nat) (lane : Nat)
  | trainingFrame (dt : Nat) (lane : Nat) (control status : BitVec 16) (crc : BitVec 16)
  | laneDegradeInterval (dt : Nat) (lane : Nat) (errors symbols codewords uncorrectable : Nat)
  | laneSnapshotRefresh (dt : Nat) (lane : Nat)
  | laneFence (dt : Nat) (lane value : Nat)
  | laneMarginScanDone (dt : Nat) (lane : Nat) (margins : List Nat)
  -- the twin
  | hello (dt : Nat) (sh : SeamHdr) (lowest highest minimum : Nat) (serial : BitVec 64) (role : Role) (digest : BitVec 64)
  | grid (dt : Nat) (sh : SeamHdr) (count : SF) (phasePs : Int) (digest : BitVec 64)
  | seamStitch (dt : Nat) (sh : SeamHdr) (part : StitchPart)
  | buildInput (dt : Nat) (sh : SeamHdr) (ch : Nat) (sf : SF) (shortTerms : List Nat) (share : Nat)
  | mapDigest (dt : Nat) (sh : SeamHdr) (ch : Nat) (sf : SF) (digest : Option (BitVec 64))
  | ranging (dt : Nat) (sh : SeamHdr) (term ch onu : Nat) (st : TermState) (rtd eqd : Int) (arrival : Option Int)
  | hostEvent (dt : Nat) (sh : SeamHdr) (ev : HostEventMsg)
  | keyContext (dt : Nat) (sh : SeamHdr) (die : DieId) (kind owner index keyState : Nat) (key : Option (List Byte)) (wrapOk : Bool)
  | timeCompare (dt : Nat) (sh : SeamHdr) (base : Nat) (value : Nat) (st : BaseState)
  | timeCompareSend (dt : Nat)
  | allocState (dt : Nat) (sh : SeamHdr) (ch : Nat) (pointer : Nat) (allocs : List (Nat × Int × Int × Int)) (hints : List (Nat × SF × Nat))
  | seamResync (dt : Nat) (sh : SeamHdr) (msg : ResyncMsg)
  | ack (dt : Nat) (sh : SeamHdr) (seqs : List Nat) (digestAgrees : Bool)
  | yieldNotice (dt : Nat) (sh : SeamHdr) (cause : Nat)
  | burstTally (dt : Nat) (sh : SeamHdr) (entries : List TallyEntry) (yieldIn : Bool)
  | burstTallySend (dt : Nat)
  | seamIntegrity (dt : Nat)
  | seamDown (dt : Nat)
  | twinSeamLoss (dt : Nat)
  | stitchAckTimeout (dt : Nat)
  | gridDriftCheck (dt : Nat) (driftPpb : Int)
  | twinResyncFailed (dt : Nat) (step : Nat)
  | resyncRetry (dt : Nat)
  -- counters, events and power
  | rakeGather (dt : Nat)
  | rakeGatherDone (dt : Nat)
  | eventDelivery (dt : Nat) (consumed : List (PortId × Nat × RingKind × Nat))
  | eventRingOverflow (dt : Nat) (port : PortId) (ring consumed : Nat)
  | vectorHoldoffEnd (dt : Nat) (port : PortId) (vector : Nat)
  | powerExitDone (dt : Nat) (unitKind unit : Nat)
  | cipherPoolNap (dt : Nat) (pool : Nat)
  | cipherPoolSleep (dt : Nat) (pool : Nat)
  | alterationPassStart (dt : Nat)
  | alterationDone (dt : Nat) (eastMonitors westMonitors : List Nat) (slopeUvPerDay : Nat)
  | supplyRailRise (dt : Nat) (rail : Nat)
  deriving DecidableEq, Repr

end Sys2Proof
end

