-- ==== Sys2Proof/WellFormed.lean ====
section
/-! DEFINITION. Which commands are well formed: the operands that name a numbered object of the device lie in its range, and the fields of a packet fit their width. A command outside these ranges cannot be put to the device. -/

namespace Sys2Proof
namespace WellFormed

def chOk (n : Nat) : Bool := decide (n < 512)
def termOk (n : Nat) : Bool := decide (n < 65536)
def flowOk (n : Nat) : Bool := decide (n < 1048576)
def tenantOk (n : Nat) : Bool := decide (n < 64)
def vidOk (n : Nat) : Bool := decide (n < 4096)
def macOk (n : Nat) : Bool := decide (n < 2 ^ 48)
def baseOk (n : Nat) : Bool := decide (n < 8)
def nibOk (n : Nat) : Bool := decide (n < 16)
def octOk (n : Nat) : Bool := decide (n < 8)
def portOk (n : Nat) : Bool := decide (n < 64)
def slotOk (n : Nat) : Bool := decide (n < 131072)
def vecOk (n : Nat) : Bool := decide (n < 32)
def railOk (n : Nat) : Bool := decide (n < 19)
def agentOk (n : Nat) : Bool := decide (n < 64)
def poolOk (n : Nat) : Bool := decide (n < 24)
def u32Ok (n : Nat) : Bool := decide (n < 2 ^ 32)
/-- The ring of a packet (R361). -/
def hdrOk (h : Hdr) : Bool := nibOk h.ring
/-- The Seam lane and the sequence of a message (Table 12.2). -/
def seamHdrOk (h : SeamHdr) : Bool := decide (h.lane < 4) && decide (h.seq < 2 ^ 64)
/-- The ring of an ABORT entry (R375). -/
def abortOk (e : AbortEntry) : Bool := nibOk e.ring
/-- A context is named by its slot kind and owner; its version has 32 bits (R275). -/
def ctxOk (c : CtxIn) : Bool :=
  (c.spill.map fun p => decide (p.1 < 6) && u32Ok p.2).getD true && (c.reload.map fun p => u32Ok p.1).getD true
/-- Eight receive channels of four associations; packet numbers start at 1 (Table 10.5). -/
def tagOk (t : SecTag) : Bool :=
  decide (1 ≤ t.chan ∧ t.chan ≤ 8) && decide (t.an < 4) && decide (1 ≤ t.pn ∧ t.pn < 2 ^ 64) && ctxOk t.ctx
/-- The item of a lane (Table 10.2). -/
def itemOk : CipherItem → Bool
  | .downNotHanded ch => chOk ch
  | .downPartSent ch => chOk ch
  | .upXgem term => termOk term
  | .macsecTx port => portOk port
  | .macsecRx assoc cut => decide (assoc < 2304) && (cut.map chOk).getD true
  | .message => true
  | .key => true
/-- The fields of a baste record fit Table 14.8. -/
def recOk (r : BasteRec) : Bool :=
  decide (r.op < 256) && decide (r.kind < 256) && u32Ok r.handle && u32Ok r.pin && decide (r.forbid.length ≤ 16)

end WellFormed

open WellFormed

/-- A command is well formed. -/
def wellFormed : Instr → Bool
  | .sessionOpen _ h lowest highest agent => hdrOk h && u32Ok lowest && u32Ok highest && u32Ok agent
  | .sessionClose _ h => hdrOk h
  | .hostRings _ h _ addr entries mask => hdrOk h && decide (addr < 2 ^ 64) && u32Ok entries && u32Ok mask
  | .baste _ h rec => hdrOk h && recOk rec
  | .discard _ h => hdrOk h
  | .stitch _ h _ => hdrOk h
  | .query _ h _ => hdrOk h
  | .laneTestStart _ h lane pattern _ => hdrOk h && u32Ok lane && u32Ok pattern
  | .laneTestStop _ h lane => hdrOk h && u32Ok lane
  | .laneInject _ h subport n => hdrOk h && u32Ok subport && u32Ok n
  | .omciRequest _ h term msgType cls inst prio contents => hdrOk h && u32Ok term && u32Ok msgType && u32Ok cls && u32Ok inst && u32Ok prio && decide (contents.length < 2 ^ 20)
  | .swdlStart _ h term image inst window => hdrOk h && u32Ok term && u32Ok image && u32Ok inst && u32Ok window
  | .imageActivate _ h term inst => hdrOk h && u32Ok term && u32Ok inst
  | .imageCommit _ h term inst => hdrOk h && u32Ok term && u32Ok inst
  | .fittingReset _ h term _ => hdrOk h && u32Ok term
  | .terminalEnable _ h term => hdrOk h && u32Ok term
  | .imageOpen _ h _ image length => hdrOk h && u32Ok image && u32Ok length
  | .imageWindow _ h _ offset => hdrOk h && u32Ok offset
  | .imageClose _ h _ _ => hdrOk h
  | .imageDelete _ h _ image => hdrOk h && u32Ok image
  | .loopClear _ h flow => hdrOk h && u32Ok flow
  | .cfmLbm _ h mep target count => hdrOk h && u32Ok mep && u32Ok target && u32Ok count
  | .cfmLtm _ h mep target ttl => hdrOk h && u32Ok mep && u32Ok target && u32Ok ttl
  | .hint _ h alloc _ bytes => hdrOk h && u32Ok alloc && u32Ok bytes
  | .flush _ h queue => hdrOk h && u32Ok queue
  | .portSend _ h _ frame _ cls => hdrOk h && decide (frame.length < 2 ^ 20) && u32Ok cls
  | .fmtInsert _ h dieMask tenant vid mac dtype dvalue => hdrOk h && u32Ok dieMask && u32Ok tenant && u32Ok vid && macOk mac && u32Ok dtype && u32Ok dvalue
  | .fmtDelete _ h _ tenant vid mac => hdrOk h && u32Ok tenant && u32Ok vid && macOk mac
  | .matchStep _ h _ _ key _ => hdrOk h && decide (key < 2 ^ 640)
  | .keyImport _ h record => hdrOk h && decide (record.length < 2 ^ 20)
  | .jumpAccept _ h base => hdrOk h && u32Ok base
  | .jumpRefuse _ h base => hdrOk h && u32Ok base
  | .timeSet _ h base secs ns => hdrOk h && u32Ok base && decide (secs < 2 ^ 48) && u32Ok ns
  | .asymmetrySet _ h ch _ _ => hdrOk h && u32Ok ch
  | .handover _ h _ => hdrOk h
  | .disarm _ h => hdrOk h
  | .resync _ h => hdrOk h
  | .seamTestStart _ h lane pattern _ => hdrOk h && u32Ok lane && u32Ok pattern
  | .seamTestStop _ h lane => hdrOk h && u32Ok lane
  | .counterRead _ h _ _ => hdrOk h
  | .counterClear _ h _ => hdrOk h
  | .userReadGrant _ h group _ => hdrOk h && u32Ok group
  | .abort _ entry => abortOk entry
  | .commandExpired _ _ ring => nibOk ring
  | .unpickScan _ found => (found.all abortOk)
  | .thimbleClaim _ _ n agent => decide (n < 64) && agentOk agent
  | .thimbleRelease _ _ n agent => decide (n < 64) && agentOk agent
  | .thimbleTimeout _ n => decide (n < 64)
  | .fmtLockClaim _ _ _ bank agent _ => nibOk bank && agentOk agent
  | .fmtLockRelease _ _ _ bank agent => nibOk bank && agentOk agent
  | .fmtLockTimeoutSet _ _ _ bank _ => nibOk bank
  | .tableLockTimeout _ _ bank => nibOk bank
  | .ringEnable _ _ _ ring log2 => nibOk ring && decide (log2 < 16)
  | .ringDisable _ _ _ ring => nibOk ring
  | .ringCmdProd _ _ _ ring _ => nibOk ring
  | .ringRplCons _ _ _ ring _ => nibOk ring
  | .puntFifo _ _ _ => true
  | .puntReturn _ _ _ _ => true
  | .evtPinStatus _ _ pin _ => decide (pin < 2)
  | .registerWrite _ _ offset _ _ => decide (offset < 2 ^ 24)
  | .tableDmaWrite _ _ addr _ => decide (addr < 2 ^ 28)
  | .imageWindowWrite _ _ addr _ => decide (addr < 2 ^ 28)
  | .bar2StrayWrite _ _ addr => decide (addr < 2 ^ 28)
  | .porstNAssert _ _ => true
  | .porstNRelease _ _ _ _ => true
  | .startupPhaseDone _ _ => true
  | .tokenClaim _ _ => true
  | .tokenGuardEnd _ _ => true
  | .tokenInFall _ => true
  | .tokenConflict _ => true
  | .laserRaise _ => true
  | .takeoverFirstFrame _ => true
  | .handoverYield _ => true
  | .watchdogExpiry _ _ _ => true
  | .eccUncorrectable _ _ _ => true
  | .bridgeDown _ => true
  | .deepPanFault _ _ => true
  | .supplyReset _ rail _ => railOk rail
  | .supplyResetEnd _ => true
  | .dipBegin _ rail _ => railOk rail
  | .supplyDip _ rail _ _ => railOk rail
  | .supplyMargin _ rail _ => railOk rail
  | .thermalWarning _ _ sensor _ => decide (sensor < 16)
  | .thermalClear _ => true
  | .thermalReset _ => true
  | .thermalResetEnd _ => true
  | .hostPortDown _ _ => true
  | .hostPortLinkUp _ _ => true
  | .debugAccess _ => true
  | .refclkCheck _ readings => (readings.all fun r => decide (r.ref < 8))
  | .gridBoundary _ => true
  | .upstreamFrameEnd _ ch _ => chOk ch
  | .feederSearchResult _ ch _ => chOk ch
  | .bobbinWake _ bob => chOk bob
  | .mapBuildStart _ ch => chOk ch
  | .batchSteal _ thief home => chOk thief && chOk home
  | .mapBuildDone _ ch => chOk ch
  | .mapDeadline _ ch => chOk ch
  | .buildInputLate _ ch => chOk ch
  | .budgetPeriodEnd _ => true
  | .bobbinFault _ bob _ => chOk bob
  | .cuePulse _ ch => chOk ch
  | .fittingPreload _ ch _ => chOk ch
  | .burstGuardStart _ ch => chOk ch
  | .burstReceive _ ch obs => chOk ch && ctxOk obs.ctx
  | .terminalBurstLoss _ term => termOk term
  | .upstreamLos _ ch => chOk ch
  | .burstLaneLol _ ch => chOk ch
  | .burstLaneLolClear _ ch => chOk ch
  | .upstreamBerInterval _ term => termOk term
  | .fittingSweep _ => true
  | .serialNumberOnu _ ch serial _ _ => chOk ch && decide (serial < 2 ^ 96)
  | .registration _ term _ => termOk term
  | .acknowledge _ term _ => termOk term
  | .keyReport _ term fragment _ => termOk term && decide (fragment < 8)
  | .sleepRequest _ term mode => termOk term && decide (mode < 256)
  | .ploamIntegrity _ term => termOk term
  | .ploamBacklogRelease _ ch => chOk ch
  | .activationFailed _ term => termOk term
  | .rangingCorrectionTimeout _ term => termOk term
  | .terminalLost _ term => termOk term
  | .rogueSuspect _ ch _ => chOk ch
  | .rogueCandidateCheck _ ch _ => chOk ch
  | .profileAckTimeout _ term => termOk term
  | .discoveryPeriodExpiry _ ch => chOk ch
  | .channelActive _ ch => chOk ch
  | .channelQuiet _ ch => chOk ch
  | .quietWake _ ch => chOk ch
  | .quietSleep _ ch => chOk ch
  | .channelDark _ ch => chOk ch
  | .channelFault _ ch _ _ => chOk ch
  | .stitchOpen _ => true
  | .stitchConfirmCheck _ _ => true
  | .stitchQuarantine _ _ => true
  | .stitchClose _ => true
  | .classifierBankWrite _ _ => true
  | .bankRelease _ _ _ => true
  | .placementMoveDone _ kind _ => decide (kind < 64)
  | .cipherLoadRebalance _ lane _ => decide (lane < 192)
  | .pipelinePass _ dir ingress _ tag _ => decide (ingress < if dir = .down then 64 else 1048576) && (tag.map tagOk).getD true
  | .recirculation _ _ _ pipe => decide (pipe < 4)
  | .holdWindowClose _ _ tenant vid mac => tenantOk tenant && vidOk vid && macOk mac
  | .ageSweep _ _ => true
  | .queueEnqueue _ _ => true
  | .schedulerDequeue _ ch ctx => chOk ch && ctxOk ctx
  | .shaperRefill _ => true
  | .policerRefill _ => true
  | .cutThroughStart _ ch _ => chOk ch
  | .cutThroughFrameEnd _ ch _ _ => chOk ch
  | .timedLaunch _ _ dest => decide (dest < 512)
  | .uplinkTransmit _ port => portOk port
  | .fcInAssert _ pin => octOk pin
  | .fcInDeassert _ pin => octOk pin
  | .fcInStuck _ pin => octOk pin
  | .fcOutHoldEnd _ pin => octOk pin
  | .cipherLaneFault _ lane item _ => decide (lane < 192) && itemOk item
  | .keySlotFault _ _ slot _ => slotOk slot
  | .keyRefresh _ term => termOk term
  | .keyReportTimeout _ term => termOk term
  | .keyExchangeRetry _ term => termOk term
  | .keySwitch _ term => termOk term
  | .keyClear _ term => termOk term
  | .keySpent _ _ owner => u32Ok owner
  | .broadcastKeyRefresh _ tenant ch => tenantOk tenant && chOk ch
  | .broadcastKeySwitch _ tenant ch => tenantOk tenant && chOk ch
  | .omciMessageReceive _ term _ _ _ => termOk term
  | .omciTimeout _ term prio => termOk term && decide (prio < 2)
  | .swdlWindowTimeout _ term => termOk term
  | .swdlEndRetry _ term => termOk term
  | .serviceFrame _ _ _ => true
  | .mcastQueryTimer _ _ tenant vid => tenantOk tenant && vidOk vid
  | .ccmSend _ _ => true
  | .cfmCcmLoss _ _ _ => true
  | .loopProbeSend _ _ tenant vid => tenantOk tenant && vidOk vid
  | .loopHoldEnd _ flow => flowOk flow
  | .sync _ base _ _ _ _ _ _ => baseOk base
  | .announce _ base port _ _ => baseOk base && portOk port
  | .ptpSend _ base port => baseOk base && portOk port
  | .announceReceiptTimeout _ base => baseOk base
  | .timeJumpHeld _ base => baseOk base
  | .timeLock _ base => baseOk base
  | .holdoverBudgetExpiry _ base => baseOk base
  | .timeJumpApplied _ base => baseOk base
  | .timeSetApply _ base => baseOk base
  | .ppsInEdge _ input => decide (input < 4)
  | .ppsInLoss _ input => decide (input < 4)
  | .ppsOutPulse _ output => decide (output < 4)
  | .rclkResume _ output => decide (output < 2)
  | .todDelivery _ term => termOk term
  | .laneLos _ lane => decide (lane < 68)
  | .laneLosClear _ lane => decide (lane < 68)
  | .laneLol _ lane => decide (lane < 68)
  | .laneLolClear _ lane => decide (lane < 68)
  | .portLinkUp _ subport => portOk subport
  | .pcsAlignmentLoss _ subport _ => portOk subport
  | .laneTrainingDone _ lane => decide (lane < 68)
  | .laneTrainFail _ lane => decide (lane < 68)
  | .laneRetrain _ lane => decide (lane < 68)
  | .trainingFrame _ lane _ _ _ => decide (lane < 68)
  | .laneDegradeInterval _ lane _ _ _ _ => decide (lane < 68)
  | .laneSnapshotRefresh _ lane => decide (lane < 68)
  | .laneFence _ lane value => decide (lane < 68) && decide (value < 12)
  | .laneMarginScanDone _ lane _ => decide (lane < 68)
  | .hello _ sh _ _ _ _ _ _ => seamHdrOk sh
  | .grid _ sh _ _ _ => seamHdrOk sh
  | .seamStitch _ sh _ => seamHdrOk sh
  | .buildInput _ sh ch _ _ _ => seamHdrOk sh && chOk ch
  | .mapDigest _ sh ch _ _ => seamHdrOk sh && chOk ch
  | .ranging _ sh term ch onu _ _ _ _ => seamHdrOk sh && termOk term && chOk ch && decide (onu < 1024)
  | .hostEvent _ sh _ => seamHdrOk sh
  | .keyContext _ sh _ kind owner index keyState _ _ => seamHdrOk sh && decide (kind < 6) && u32Ok owner && decide (index < 4) && decide (keyState < 4)
  | .timeCompare _ sh base _ _ => seamHdrOk sh && baseOk base
  | .timeCompareSend _ => true
  | .allocState _ sh ch _ _ _ => seamHdrOk sh && chOk ch
  | .seamResync _ sh _ => seamHdrOk sh
  | .ack _ sh _ _ => seamHdrOk sh
  | .yieldNotice _ sh _ => seamHdrOk sh
  | .burstTally _ sh entries _ => seamHdrOk sh && (entries.all fun e => chOk e.ch)
  | .burstTallySend _ => true
  | .seamIntegrity _ => true
  | .seamDown _ => true
  | .twinSeamLoss _ => true
  | .stitchAckTimeout _ => true
  | .gridDriftCheck _ _ => true
  | .twinResyncFailed _ step => decide (step < 8)
  | .resyncRetry _ => true
  | .rakeGather _ => true
  | .rakeGatherDone _ => true
  | .eventDelivery _ consumed => (consumed.all fun c => decide (c.2.1 < 16))
  | .eventRingOverflow _ _ ring _ => nibOk ring
  | .vectorHoldoffEnd _ _ vector => vecOk vector
  | .powerExitDone _ _ _ => true
  | .cipherPoolNap _ pool => poolOk pool
  | .cipherPoolSleep _ pool => poolOk pool
  | .alterationPassStart _ => true
  | .alterationDone _ _ _ _ => true
  | .supplyRailRise _ rail => railOk rail

end Sys2Proof
end

