-- ==== Sys2Proof/Decode.lean ====
section
/-! DEFINITION. Reading a command from a word: the table of operations and events gives no row any bits, so no word spells a command. -/

namespace Sys2Proof

/-- The command that a word spells by the bits of the table: none, since no row has bits. -/
def decodeTableWord (_nbits _w : Nat) : Option Instr := none

end Sys2Proof
end

