-- ==== Sys2Proof/Machine/Data.lean ====
section
/-! DEFINITION. Operations on keyed tables, bit fields, byte order and the check codes that the records of the spec use. -/

namespace Sys2Proof

namespace Tab
variable {α : Type}

/-- The value at a key, if any. -/
def find? (k : Nat) : Tab α → Option α
  | [] => none
  | (j, v) :: t => if j = k then some v else find? k t

/-- The value at a key, or the value an unlisted key has. -/
def getD (t : Tab α) (k : Nat) (d : α) : α := (t.find? k).getD d

/-- Set the value at a key, keeping the keys strictly rising. -/
def set (k : Nat) (v : α) : Tab α → Tab α
  | [] => [(k, v)]
  | (j, w) :: t =>
    if k < j then (k, v) :: (j, w) :: t
    else if k = j then (k, v) :: t
    else (j, w) :: set k v t

/-- Remove a key. -/
def del (k : Nat) : Tab α → Tab α
  | [] => []
  | (j, w) :: t => if j = k then del k t else (j, w) :: del k t

/-- Set the value at a key of a table whose unlisted keys read as `d`: writing `d` removes the entry. -/
def put [DecidableEq α] (d : α) (k : Nat) (v : α) (t : Tab α) : Tab α :=
  if v = d then t.del k else t.set k v

/-- The keys are strictly rising. -/
def sorted : Tab α → Bool
  | [] => true
  | [_] => true
  | (a, _) :: (b, w) :: t => decide (a < b) && sorted ((b, w) :: t)

/-- Apply a function to every value. -/
def mapVals (f : Nat → α → α) : Tab α → Tab α
  | [] => []
  | (k, v) :: t => (k, f k v) :: mapVals f t

end Tab

/-- Bits [hi:lo] of a natural number. -/
def bitsOf (n hi lo : Nat) : Nat := (n >>> lo) % 2 ^ (hi + 1 - lo)

/-- A Bool as a bit. -/
def bit (b : Bool) : Nat := if b then 1 else 0

/-- `n` little-endian bytes of a number. -/
def leBytes : Nat → Nat → List Byte
  | 0, _ => []
  | n + 1, v => BitVec.ofNat 8 v :: leBytes n (v / 256)

/-- `n` bytes of a number, most significant first. -/
def beBytes (n v : Nat) : List Byte := (leBytes n v).reverse

/-- The number that little-endian bytes spell. -/
def leNat : List Byte → Nat
  | [] => 0
  | b :: t => b.toNat + 256 * leNat t

/-- The number that bytes spell, most significant first. -/
def beNat (l : List Byte) : Nat := l.foldl (fun a b => a * 256 + b.toNat) 0

/-- Bytes `i` to `i + n - 1` of a list; bytes beyond its end read as 0. -/
def sliceBytes (l : List Byte) (i n : Nat) : List Byte :=
  (List.range n).map fun j => l.getD (i + j) 0

/-- Division rounding up. -/
def ceilDiv (a b : Nat) : Nat := (a + b - 1) / b

/-- Insert a number into a rising list. -/
def insertInt (x : Int) : List Int → List Int
  | [] => [x]
  | y :: t => if x ≤ y then x :: y :: t else y :: insertInt x t

/-- Sort numbers rising. -/
def sortInts : List Int → List Int
  | [] => []
  | x :: t => insertInt x (sortInts t)

/-- The median of a list of numbers, the lower of the two middle ones when there are two. -/
def medianInt (l : List Int) : Int := (sortInts l).getD ((l.length - 1) / 2) 0

/-- The mean of a list of numbers, rounded down; 0 for an empty list. -/
def meanInt (l : List Int) : Int := if l.length = 0 then 0 else l.sum / (l.length : Int)

/-- Keep the last `n` entries of a list. -/
def lastN {α : Type} (n : Nat) (l : List α) : List α := l.drop (l.length - n)

/-- Replace the entry at an index. -/
def setAt {α : Type} : List α → Nat → α → List α
  | [], _, _ => []
  | _ :: t, 0, v => v :: t
  | x :: t, n + 1, v => x :: setAt t n v

/-- One shift of a CRC register of `w` bits (`w` at most 64), most significant bit first. -/
def crcBit (w poly : Nat) (top : Nat) (acc : Nat) : Nat :=
  let sh := (acc * 2) % 2 ^ w
  if acc / 2 ^ (w - 1) % 2 != top then Nat.xor sh poly else sh

/-- A CRC over bytes, most significant bit of each byte first, without reflection. -/
def crcByte (w poly acc : Nat) (b : Byte) : Nat :=
  (List.range 8).foldl (fun a i => crcBit w poly (b.toNat / 2 ^ (7 - i) % 2) a) acc

/-- CRC-64 with the parameters of R147. -/
def crc64 (l : List Byte) : BitVec 64 :=
  BitVec.ofNat 64 (Nat.xor (l.foldl (crcByte 64 0x42F0E1EBA9EA3693) (2 ^ 64 - 1)) (2 ^ 64 - 1))

/-- CRC-16 with polynomial 0x1021 and initial value 0xFFFF (R345). -/
def crc16 (l : List Byte) : BitVec 16 :=
  BitVec.ofNat 16 (l.foldl (crcByte 16 0x1021) 0xFFFF)

/-- The bits of a byte in the opposite order. -/
def revByte (b : Byte) : Byte :=
  BitVec.ofNat 8 ((List.range 8).foldl (fun a i => a * 2 + b.toNat / 2 ^ i % 2) 0)

/-- The 32 bits of a number in the opposite order. -/
def rev32 (n : Nat) : Nat := (List.range 32).foldl (fun a i => a * 2 + n / 2 ^ i % 2) 0

/-- CRC-32 of IEEE 802.3 (R86, Table 3.3; R239): reflected, initial value and final XOR all ones. -/
def crc32 (l : List Byte) : BitVec 32 :=
  BitVec.ofNat 32
    (Nat.xor (rev32 ((l.map revByte).foldl (crcByte 32 0x04C11DB7) (2 ^ 32 - 1))) (2 ^ 32 - 1))

end Sys2Proof
end

