-- ==== Sys2Proof/Config.lean ====
section
/-! DEFINITION. What the device fixes: capacities, numbers of event sources, statuses, opcodes, object kinds and fields, and the values that the spec leaves open (opaque constants that nothing can evaluate). -/

namespace Sys2Proof
namespace Config

/-! Values the spec leaves open: free values (log entries 3 and 4). -/

/-- The bytes of one allocation structure as the framer sends it, which the recommendation and not the spec lays down
(R147). Arguments: Alloc-ID, flags, start in ps, grant bytes, profile index. -/
opaque allocStructBytes : Nat → Nat → Nat → Nat → Nat → List Byte
/-- AES-CMAC of a message under a key (Table 10.1), taken as an uninterpreted function. -/
opaque cmac : List Byte → List Byte → List Byte
/-- Authenticated decryption GCM-AES-256 (Table 10.1): key, nonce, additional data, ciphertext, tag. -/
opaque gcmOpen : List Byte → List Byte → List Byte → List Byte → List Byte → Option (List Byte)
/-- The device's random source (R269, R277, R250), by draw. -/
opaque random : Nat → Nat
/-- A choice the device makes among admissible locations or buffers where the spec gives no rule, by draw. -/
opaque choice : Nat → Nat
/-- The session identifier a SESSION_OPEN returns (R367), before 0 is excluded, by draw. -/
opaque sessionId : Nat → Nat
/-- The starting point of a receiver characterised at manufacture (R86): channel class and rate, value 0–11. -/
opaque startPoint : Bool → Rate → Nat → Nat
/-- The device's own lane delays in ps (R105), by channel. -/
opaque laneDelay : Nat → Nat
/-- The largest EqD in ps that a class's Ranging_Time can carry (R121). -/
opaque eqdMax : Bool → Nat
/-- The unit serial number and transport key fused at manufacture (R270). -/
opaque unitSerial : BitVec 64
opaque transportKey : List Byte
/-- The firmware version (R449). -/
opaque firmwareVersion : Word
/-- What SCHEMA answers of the registers of a block that the spec lists no register of (log entry 117). -/
opaque blockRegisters : Nat → List Nat
/-- The fused start voltage of the core rails in mV (R440). -/
opaque fusedStartMv : Nat
/-- The rate correction the servo of a time base takes from its samples (R289): draw, base, offset in ns. -/
opaque servoRate : Nat → Nat → Int → Int
/-- The downstream delay in ps that a terminal computes under its recommendation (R299): class, EqD in ps. -/
opaque termDelay : Bool → Int → Int
/-- The phase of the first grid boundary after block start (R51), by draw. -/
opaque gridPhase : Nat → Nat
/-- The keys that a lane derives from a master session key (R263): key, what is derived. -/
opaque deriveKey : List Byte → Nat → List Byte
/-- The default master session key of a terminal, from its serial number (R263). -/
opaque defaultMsk : Nat → List Byte
/-- The working set that a continuous lane's adaptation has reached (R103), and the counts of a pattern checker (R350): by draw. -/
opaque laneWork : Nat → Nat → List Int
opaque testCount : Nat → Nat → Nat
/-- Decryption of a Key_Report under the KEK (R265). -/
opaque openKeyReport : List Byte → List Byte → List Byte

/-- The bucket of a flow/MAC key in a bank (R220), before it is taken modulo the 2,048 buckets of a bank. -/
opaque bucketOf : Nat → Nat → Nat
/-- A baste record as a STITCH message carries it, with its object's number (R330): the spec leaves the widths of the field
values to the SCHEMA query. -/
opaque recordBytes : BasteRec → Nat → List Byte
/-- The multicast XGEM Port-ID of a tenant on a channel, which the host keeps (Table 9.1). -/
opaque mcastPort : Nat → Nat → Nat
/-- The XGEM Port-ID of a frame of the host in a queue that no flow names. -/
opaque hostPortId : Nat → Nat
/-- The hash that chooses the upstream pipeline of a flow handle (R17). -/
opaque flowHash : Nat → Nat

/-- The bytes of a frame that a service originates (R242, R247, R249, R250): what it is, and its values. The recommendations and
not the spec lay them out. -/
opaque serviceBytes : Nat → List Nat → List Byte
/-- A frame with an option or tag inserted, or with its own removed (R241 to R243): which, the frame, the option. -/
opaque relayBytes : Nat → List Byte → List Byte → List Byte

/-! Numbers of the family of standards that the spec names and does not restate (log entry 5). -/

/-- Bits of a burst header and of a burst trailer. -/
def burstHeaderBits : Nat := 32
def burstTrailerBits : Nat := 32
/-- Bytes of a bandwidth report and of an upstream PLOAM message. -/
def dbruBytes : Nat := 4
def ploamBytes : Nat := 48

/-! Capacities (Table 0.3, Table 1.1). -/
def nChannels : Nat := 512
def nTrees : Nat := 256
def nBobbins : Nat := 512
def nCipherLanes : Nat := 192
def nTerminals : Nat := 65536
def nFlows : Nat := 1048576
def nAllocs : Nat := 262144
def nQueues : Nat := 262144
def keySlots : Nat := 131072
def stagingMax : Nat := 65536
def ploamMax : Nat := 1024
def inboxMax : Nat := 1024
def hintMax : Nat := 8192
def holdMax : Nat := 4096
def noticeMax : Nat := 8192
def omciRingMax : Nat := 4096
def launchRingMax : Nat := 4096
def serviceQueueMax : Nat := 8192
def recircMax : Nat := 256
def keptMax : Nat := 1024
def cueQueueMax : Nat := 320
def nearCells : Nat := 262144
def deepCells : Nat := 22 * 10 ^ 9 / 512

end Config

/-! Status codes (Table 14.9). -/
namespace St
def ok : Nat := 0x0000
def okReplaced : Nat := 0x0001
def opcode : Nat := 0x0010
def parameter : Nat := 0x0011
def handle : Nat := 0x0012
def state : Nat := 0x0013
def role : Nat := 0x0014
def noSession : Nat := 0x0015
def version : Nat := 0x0016
def staleStitch : Nat := 0x0020
def stagingFull : Nat := 0x0021
def validation : Nat := 0x0022
def hint : Nat := 0x0023
def capacity : Nat := 0x0024
def quota : Nat := 0x0025
def tableFull : Nat := 0x0026
def busy : Nat := 0x0030
def timeout : Nat := 0x0031
def terminalAbsent : Nat := 0x0032
def takeover : Nat := 0x0033
def laneDown : Nat := 0x0034
def keyWrap : Nat := 0x0035
def late : Nat := 0x0036
def aborted : Nat := 0x0040
def notActive : Nat := 0x0041
def expired : Nat := 0x0042
end St

/-! Event sources (Table 15.1). -/
namespace Ev
def deviceReady : Nat := 0
def supplyDip : Nat := 1
def supplyMargin : Nat := 2
def thermal : Nat := 3
def refclk : Nat := 16
def alterationDone : Nat := 17
def ageingMarginLow : Nat := 18
def stitchOpen : Nat := 32
def stitchClose : Nat := 33
def pinBroken : Nat := 34
def hostPortDown : Nat := 35
def thimbleTimeout : Nat := 36
def ringError : Nat := 37
def commandExpired : Nat := 38
def twinRole : Nat := 48
def twinPaired : Nat := 49
def twinVersionRefused : Nat := 50
def tokenConflict : Nat := 51
def seamIntegrity : Nat := 52
def twinSeamLoss : Nat := 53
def twinChannel : Nat := 54
def twinYield : Nat := 55
def twinTakeover : Nat := 56
def twinFeederAdjust : Nat := 57
def twinConfigMismatch : Nat := 58
def twinMapMismatch : Nat := 59
def twinTimeUnfit : Nat := 60
def twinResyncStart : Nat := 61
def twinArmed : Nat := 62
def twinResyncFailed : Nat := 63
def timeState : Nat := 64
def timeJumpHeld : Nat := 65
def timeJumpApplied : Nat := 66
def timeJumpRefused : Nat := 67
def timeSet : Nat := 68
def announceChange : Nat := 69
def rclkSquelch : Nat := 70
def ppsIn : Nat := 71
def todDeliveryFailed : Nat := 72
def cipherLaneFault : Nat := 80
def cipherCapacityLow : Nat := 81
def keySlotFault : Nat := 82
def keySlotLost : Nat := 83
def keyExchangeFailed : Nat := 84
def keySpent : Nat := 85
def broadcastKeyLagging : Nat := 86
def keyImportFail : Nat := 87
def contextIntegrity : Nat := 88
def macsecPnThreshold : Nat := 89
def macsecSaStopped : Nat := 90
def tableParity : Nat := 96
def holdStoreFull : Nat := 97
def learnRingFull : Nat := 98
def tableDmaReject : Nat := 99
def tableLockTimeout : Nat := 100
def classifierParity : Nat := 112
def puntDrop : Nat := 113
def nearPanHigh : Nat := 128
def panFull : Nat := 129
def cutThroughAbort : Nat := 130
def launchMissed : Nat := 131
def fcInStuck : Nat := 132
def mapLate : Nat := 144
def buildInputLate : Nat := 145
def budgetOvercommitted : Nat := 146
def hintLate : Nat := 147
def bobbinFault : Nat := 148
def bobbinPoolExhausted : Nat := 149
def terminalActivated : Nat := 160
def activationFailed : Nat := 161
def unknownSerial : Nat := 162
def terminalLost : Nat := 163
def feederChange : Nat := 164
def feederSearchFailed : Nat := 165
def indexMismatch : Nat := 166
def todUnverified : Nat := 167
def rogueSuspect : Nat := 168
def rogueIsolated : Nat := 169
def rogueUnresolved : Nat := 170
def channelFault : Nat := 176
def upstreamLos : Nat := 177
def burstLaneLol : Nat := 178
def upstreamDegrade : Nat := 179
def upstreamFail : Nat := 180
def terminalBurstLoss : Nat := 181
def fittingFence : Nat := 182
def fittingPreloadFail : Nat := 183
def profileSwitched : Nat := 184
def profileStale : Nat := 185
def ploamIntegrity : Nat := 186
def portLink : Nat := 192
def laneLos : Nat := 193
def laneLol : Nat := 194
def laneDegrade : Nat := 195
def laneTrainFail : Nat := 196
def laneFence : Nat := 197
def serviceQueueFull : Nat := 208
def serviceTakeover : Nat := 209
def omciRingFull : Nat := 210
def omciAlarmGap : Nat := 211
def swdlDone : Nat := 212
def swdlFailed : Nat := 213
def mcastTableFull : Nat := 214
def mcastLimit : Nat := 215
def cfmCcm : Nat := 216
def cfmDefect : Nat := 217
def loopDetected : Nat := 218
def fittingStoreError : Nat := 224
def eccCorrected : Nat := 225
def eccUncorrectable : Nat := 226
def deepPanFault : Nat := 227
def eventRingOverflow : Nat := 240
def counterWrap : Nat := 241
def rakeLate : Nat := 242
def debugAccess : Nat := 243
end Ev

/-! Object kinds of baste records. The spec leaves the numbers to the SCHEMA query; these are the model's (log entry 6). -/
namespace Kind
def device : Nat := 1
def die : Nat := 2
def cluster : Nat := 3
def tree : Nat := 4
def channel : Nat := 5
def terminal : Nat := 6
def alloc : Nat := 7
def subscriber : Nat := 8
def queue : Nat := 9
def flow : Nat := 10
def svcNode : Nat := 11
def policer : Nat := 12
def tenant : Nat := 13
def vlan : Nat := 14
def fmtStatic : Nat := 15
def prefix_ : Nat := 16
def nextHop : Nat := 17
def row : Nat := 18
def keyProfile : Nat := 19
def puntClass : Nat := 20
def subport : Nat := 21
def tenantMap : Nat := 22
def group : Nat := 23
def leg : Nat := 24
def mep : Nat := 25
def timeBase : Nat := 26
def ppsOut : Nat := 27
def rclk : Nat := 28
def ptpPort : Nat := 29
def fcOut : Nat := 30
def fcIn : Nat := 31
def lane : Nat := 32
def sa : Nat := 33
end Kind

/-! Field numbers, by object kind. -/
namespace Fld
-- device
def devBudgetMbps : Nat := 0
def devSeamAsymPs : Nat := 1
def devMinPairing : Nat := 2
def devAltStartSec : Nat := 3
def devAltLenMin : Nat := 4
def devAgeYears : Nat := 5
def devAltRun : Nat := 6
def devYieldPool : Nat := 7
def devYieldBobbin : Nat := 8
def devYieldCipher : Nat := 9
def devYieldChannel : Nat := 10
def devYieldDiverge : Nat := 11
def devOmciTimeoutMs : Nat := 12
def devLoopEtherType : Nat := 13
def devEnterprise : Nat := 14
def devHeadend : Nat := 15
-- die
def dieNearHigh : Nat := 0
def dieNearLow : Nat := 1
def dieUpLimit : Nat := 2
def dieAgeS : Nat := 3
def dieTpid : Nat := 4
def dieNoticeDest : Nat := 5
def dieOmciDest : Nat := 6
def dieLaunchDest : Nat := 7
-- cluster
def cluLeadUs : Nat := 0
def cluTwoWire : Nat := 1
-- tree
def treeLMin : Nat := 0
def treeLMax : Nat := 1
def treeNWideDown : Nat := 2
def treeNWideUp : Nat := 3
def treeNNarrowDown : Nat := 4
def treeNNarrowUp : Nat := 5
def treeDiscMs : Nat := 6
def treeDiscQuietMs : Nat := 7
def treeDiscRates : Nat := 8
def treeDriftPs : Nat := 9
def treeSplit : Nat := 10
def treeRogueAuto : Nat := 11
def treeLossMs : Nat := 12
def treeBase : Nat := 13
def treeTodS : Nat := 14
-- channel
def chEnable : Nat := 0
def chPonId : Nat := 1
def chDegM : Nat := 2
def chDegN : Nat := 3
def chFailM : Nat := 4
def chFailN : Nat := 5
def chMaxFrame : Nat := 6
def chCuePol : Nat := 7
def chCueLead : Nat := 8
def chCueWidth : Nat := 9
def chCueSkew : Nat := 10
def chDensity : Nat := 11
def chConfFloor : Nat := 12
def chFreshMs : Nat := 13
def chDiscardMin : Nat := 14
def chFenceTap : Nat := 15
def chFenceGain : Nat := 16
def chFenceCdr : Nat := 17
def chModTx : Nat := 18
def chModRx : Nat := 19
def chExpQuantum : Nat := 20
def chMgmtQuantum : Nat := 21
def chHierQuantum : Nat := 22
def chExpCap : Nat := 23
def chMgmtCap : Nat := 24
def chDefAssured : Nat := 25
def chDefMax : Nat := 26
def chDefElig : Nat := 27
def chDefPoll : Nat := 28
def chTxFfe : Nat := 29
def chTxPol : Nat := 30
def chRxPol : Nat := 31
/-- The profile fields of a rate: guard, preamble and delimiter of the long and of the short profile, then FEC. -/
def chProfile (r : Nat) (i : Nat) : Nat := 40 + 8 * r + i
-- terminal
def trmSerial : Nat := 0
def trmTree : Nat := 1
def trmAllow : Nat := 2
def trmRates : Nat := 3
def trmOnu : Nat := 4
def trmTod : Nat := 5
def trmSleep : Nat := 6
def trmOmciExt : Nat := 7
def trmDisable : Nat := 8
-- allocation
def alTerm : Nat := 0
def alAllocId : Nat := 1
def alFixed : Nat := 2
def alAssured : Nat := 3
def alMax : Nat := 4
def alElig : Nat := 5
def alPrio : Nat := 6
def alWeight : Nat := 7
def alPoll : Nat := 8
def alExpress : Nat := 9
def alHint : Nat := 10
-- shapers of queues and nodes
def shCir : Nat := 0
def shCbs : Nat := 1
def shPir : Nat := 2
def shPbs : Nat := 3
def shBand : Nat := 4
def shWeight : Nat := 5
-- queue
def qSub : Nat := 6
def qGreen : Nat := 7
def qYellow : Nat := 8
-- subscriber node
def sbTerm : Nat := 6
def sbTenant : Nat := 7
-- flow
def flTerm : Nat := 0
def flTenant : Nat := 1
def flQueue : Nat := 2
def flPort : Nat := 3
def flPolicer : Nat := 4
-- policer
def poTenant : Nat := 0
def poMode : Nat := 1
def poAware : Nat := 2
def poCir : Nat := 3
def poCbs : Nat := 4
def poPir : Nat := 5
def poPbs : Nat := 6
def poYellow : Nat := 7
def poRed : Nat := 8
def poDie : Nat := 9
-- tenant
def tnPolicy (dir code : Nat) : Nat := 16 * dir + code
def tnColour (i : Nat) : Nat := 32 + i
def tnRefreshMin : Nat := 48
def tnHardLifeH : Nat := 49
def tnBcastH : Nat := 50
/-- Quotas: table 0 VLAN records, 1 flow/MAC, 2 IPv4 prefixes, 3 IPv6 prefixes, 4 next hops. -/
def tnQuota (die table : Nat) : Nat := 51 + 5 * die + table
/-- Services: 0 DHCPv4, 1 DHCPv6, 2 PPPoE, 3 IGMP, 4 MLD, 5 CFM, 6 PTP, 7 loop detection. -/
def tnService (svc dir : Nat) : Nat := 64 + 2 * svc + dir
def tnTrust : Nat := 80
def tnCircuit : Nat := 81
def tnRemote : Nat := 82
def tnMcastLimit : Nat := 83
def tnSelector (dir l3 : Nat) : Nat := 84 + 4 * dir + l3
def tnUplink : Nat := 92
-- VLAN record
def vlLearn : Nat := 0
def vlFlood : Nat := 1
def vlLocal : Nat := 2
def vlGroup : Nat := 3
def vlFastLeave : Nat := 4
def vlLoop : Nat := 5
def vlLoopMs : Nat := 6
def vlHoldS : Nat := 7
def vlQueryS : Nat := 8
def vlSnoop : Nat := 9
def vlDie : Nat := 10
def vlTenant : Nat := 11
def vlVid : Nat := 12
-- static flow/MAC entry
def fsDies : Nat := 0
def fsTenant : Nat := 1
def fsVid : Nat := 2
def fsMac : Nat := 3
def fsDtype : Nat := 4
def fsDvalue : Nat := 5
-- prefix
def pxDie : Nat := 0
def pxTenant : Nat := 1
def pxV6 : Nat := 2
def pxAddr : Nat := 3
def pxLen : Nat := 4
def pxHop : Nat := 5
-- next hop
def nhTenant : Nat := 0
def nhDtype : Nat := 1
def nhDvalue : Nat := 2
def nhMac : Nat := 3
def nhVid : Nat := 4
def nhDie : Nat := 5
def nhIndex : Nat := 6
-- classifier row
def rwDie : Nat := 0
def rwTenant : Nat := 1
def rwDir : Nat := 2
def rwProfile : Nat := 3
def rwValue : Nat := 4
def rwMask : Nat := 5
def rwPriority : Nat := 6
def rwDisposition : Nat := 7
def rwPunt : Nat := 8
def rwColour : Nat := 9
def rwClass : Nat := 10
def rwPolicer : Nat := 11
def rwCounter : Nat := 12
def rwRecirc : Nat := 13
-- key profile: field 0 wide, then its list of fields
def kpWide : Nat := 0
def kpField (i : Nat) : Nat := 1 + i
-- punt class
def pcRate : Nat := 0
def pcBurst : Nat := 1
def pcDest : Nat := 2
-- sub-port
def spRate : Nat := 0
def spIface : Nat := 1
def spEnable : Nat := 2
def spMacsec : Nat := 3
def spSuite : Nat := 4
def spReplay : Nat := 5
def spWindow : Nat := 6
def spIngressPs : Nat := 7
def spEgressPs : Nat := 8
def spAsymPs : Nat := 9
def spMaxFrame : Nat := 10
def spPort : Nat := 11
def spLane : Nat := 12
-- tenant map: field v is the entry of VID v, field 4096 that of untagged frames
def tmUntagged : Nat := 4096
-- replication group and leg
def grDie : Nat := 0
def grTenant : Nat := 1
def lgGroup : Nat := 0
def lgKind : Nat := 1
def lgValue : Nat := 2
-- maintenance end point
def mpDie : Nat := 0
def mpPlace : Nat := 1
def mpValue : Nat := 2
def mpLevel : Nat := 3
def mpId : Nat := 4
def mpInterval : Nat := 5
def mpMa : Nat := 6
def mpTenant : Nat := 7
def mpRemote : Nat := 8
-- time base
def tbSource : Nat := 0
def tbArg : Nat := 1
def tbFreq : Nat := 2
def tbJumpNs : Nat := 3
def tbBw : Nat := 4
def tbSlew : Nat := 5
def tbLockNs : Nat := 6
def tbHoldMin : Nat := 7
def tbDomain : Nat := 8
def tbClass : Nat := 9
def tbSquelch : Nat := 10
def tbCopyMs : Nat := 11
-- PPS output
def ppBase : Nat := 0
def ppOffset : Nat := 1
def ppWidth : Nat := 2
def ppPol : Nat := 3
-- recovered-clock output
def rcLane : Nat := 0
def rcFreq : Nat := 1
-- PTP port
def ptState : Nat := 0
def ptBase : Nat := 1
-- FC pins
def foSource : Nat := 0
def foArg : Nat := 1
def foHigh : Nat := 2
def foLow : Nat := 3
def foHoldUs : Nat := 4
def foPol : Nat := 5
def fiStuckMs : Nat := 0
def fiPol : Nat := 1
def fiTargets : Nat := 2
-- uplink (0–63) and Seam (64–67) lanes
def laLosMv : Nat := 0
def laDegM : Nat := 1
def laDegN : Nat := 2
def laTxPol : Nat := 3
def laRxPol : Nat := 4
def laC3 : Nat := 5
def laC2 : Nat := 6
def laC1 : Nat := 7
def laC0p : Nat := 8
def laFenceTap : Nat := 9
def laFenceGain : Nat := 10
def laFenceCdr : Nat := 11
-- MACsec association, numbered 36 × port index + 4 × channel + association (Table 15.3)
def saEnabled : Nat := 0
def saThreshold : Nat := 1
end Fld

end Sys2Proof
end

