-- ==== Sys2Proof/Machine/State.lean ====
section
/-! DEFINITION. The state of the block as plain data, its reset value, and the reasons a step can stop. -/

namespace Sys2Proof.Machine
open Sys2Proof

/-! ### Events, counters and output -/

/-- A value of an event record's ARGS, with its natural width (R382). -/
inductive Arg
  | u8 (v : Nat)
  | u16 (v : Nat)
  | u32 (v : Nat)
  | u64 (v : Nat)
  deriving DecidableEq, Repr

/-- An event record (Table 15.2) before it takes a ring's SEQUENCE. -/
structure EvRec where
  num : Nat
  clear : Bool
  die : DieId
  token : Bool
  suppressed : Nat
  time : Nat
  stitch : StitchNo
  args : List Arg
  deriving DecidableEq, Repr

/-- When a source last raised an event for a subject, and how many it has withheld since (R387). -/
structure RateEnt where
  src : Nat
  subj : Nat
  last : Time
  withheld : Nat
  deriving DecidableEq, Repr

/-- An MSI-X vector (R388): how often it fired, the end of its holdoff, and whether its index advanced in it. -/
structure Vector where
  fired : Nat := 0
  holdEnd : Time := 0
  advanced : Bool := false
  deriving DecidableEq, Repr

/-- Event collection and delivery (R379 to R389, block 6 of the registers). -/
structure EventSt where
  held : List EvRec := []
  rates : List RateEnt := []
  /-- Records kept for a port without an event ring, by 2 × port + die (R386). -/
  kept : Tab (List EvRec) := []
  /-- Kept records discarded beyond 1,024, by port. -/
  keptLost : Tab Nat := []
  mask0 : BitVec 16 := 0x0009
  mask1 : BitVec 16 := 0x0000
  status0 : BitVec 16 := 0
  status1 : BitVec 16 := 0
  /-- INT_N0 driven active by a failed start-up (R416). -/
  forceInt0 : Bool := false
  holdoffA : Nat := 10
  holdoffB : Nat := 10
  /-- By 32 × port + vector. -/
  vectors : Tab Vector := []
  deriving DecidableEq, Repr

/-- A block counter: 48 bits and a sticky WRAP bit (R390). -/
structure Counter where
  value : BitVec 48 := 0
  wrap : Bool := false
  deriving DecidableEq, Repr

/-- A flow statistic: 64 bits and a sticky bit (R390). -/
structure FlowStat where
  value : BitVec 64 := 0
  wrap : Bool := false
  deriving DecidableEq, Repr

/-- A counter snapshot as the Rake writes it (R393 to R395). -/
structure Snapshot where
  number : BitVec 64 := 0
  time : Nat := 0
  sf : SF := 0
  counters : Tab Counter := []
  deriving DecidableEq, Repr

/-- Counters, statistics and the Rake. -/
structure CounterSt where
  counters : Tab Counter := []
  stats : Tab FlowStat := []
  /-- The values latched by the gather in progress. -/
  latched : Option Snapshot := none
  snapshot : Snapshot := {}
  /-- Groups whose BAR4 region is open to user code (R396). -/
  openGroups : List Nat := []
  deriving DecidableEq, Repr

/-- A downstream PLOAM message (Table 2.4). -/
inductive Ploam
  | deactivate (onu : Nat)
  | disableSerial (serial : Nat) (enable : Bool)
  | rangingTime (onu : Nat) (relative : Bool) (ps : Int)
  | assignOnu (onu serial : Nat)
  | keyControl (onu : Nat) (confirm : Bool) (index : Nat)
  | assignAlloc (onu allocId : Nat) (bind : Bool)
  | burstProfile (onu : Nat) (ack : Bool) (rate : Rate) (index : Nat)
  | systemProfile
  | channelProfile
  | sleepAllow (onu : Nat) (on_ : Bool)
  | requestRegistration (onu : Nat)
  deriving DecidableEq, Repr

/-- The order of one free pool in a configuration image: kind, die, values issued, values freed (R332). -/
abbrev ImagePool := Nat × Nat × Nat × List Nat

/-- A message handed to the Seam (Table 12.3). -/
inductive SeamMsg
  | hello (lowest highest minimum : Nat) (digest : BitVec 64)
  | grid (sf : SF) (digest : BitVec 64)
  | stitchRec (part : Nat) (rec : BasteRec) (num : Nat) (chosen : Option Nat)
  | stitchDiscard (part : Nat)
  | stitchClosing (part : Nat) (number : StitchNo) (count : Nat) (b1 : Time) (digest : BitVec 64)
  | buildInput (ch : Nat) (sf : SF) (shortTerms : List Nat) (share : Nat)
  | mapDigest (ch : Nat) (sf : SF) (digest : BitVec 64)
  | ranging (term : Nat) (st : TermState) (rtd eqd : Int) (arrival : Option Int)
  | hostEvent (ev : HostEventMsg)
  | keyContext (die : DieId) (kind owner index keyState : Nat)
  | keyAgain (owner : Nat)
  | timeCompare (base value : Nat) (st : BaseState)
  | allocState (ch pointer : Nat) (allocs : List (Nat × Int × Int × Int)) (hints : List (Nat × SF × Nat))
  | resyncRequest
  | resyncChunk (index : Nat) (last : Bool) (stitch : StitchNo) (digest : BitVec 64) (recs : List (BasteRec × Nat)) (pools : List ImagePool)
      (privs : List (Nat × Nat × Nat))
  | ack (seq : Nat)
  | yieldNotice (cause : Nat)
  | tally (entries : List (Nat × SF × Nat × Bool))
  deriving DecidableEq, Repr

/-- What a frame is, for its way to a terminal: it belongs to a flow, is an OMCI message of a terminal, goes to a tenant's
terminals of a channel (R245), or goes to a queue that no flow names. -/
inductive FrameKind
  | flow (f : Nat)
  | omci (term txn : Nat)
  | mcast
  | other
  deriving DecidableEq, Repr

/-- A frame in the device, with its FCS, and with what the pipeline found for it. -/
structure Frame where
  bytes : List Byte := []
  dir : Dir := .down
  kind : FrameKind := .other
  tenant : Nat := 0
  /-- Ingress port index of a downstream frame, flow handle of an upstream one. -/
  ingress : Nat := 0
  stitch : StitchNo := 0
  /-- 0 green, 1 yellow, 2 red. -/
  colour : Nat := 0
  cls : Nat := 0
  /-- A parsed length for cut-through (R173). -/
  parsedLen : Option Nat := none
  arrival : Nat := 0
  launch : Option (BitVec 144) := none
  /-- The MACsec association that a downstream frame arrived under. -/
  assoc : Option Nat := none
  deriving DecidableEq, Repr

/-- Where a forwarded frame goes. -/
inductive Dest
  | queue (handle : Nat)
  | port (index : Nat)
  deriving DecidableEq, Repr

/-- What the device has put out during the last command: what it drives, sends or returns. -/
inductive Output
  | read (v : Word)
  | cue (ch : Nat) (rise fall : Int)
  | psbd (ch : Nat) (sf : SF)
  | ploam (ch : Nat) (m : Ploam)
  | map (ch : Nat) (sf : SF) (digest : BitVec 64)
  | xgem (ch : Nat) (portId keyIndex len : Nat) (badFcs : Bool)
  | upFrame (ch portId : Nat) (bytes : List Byte)
  | uplinkFrame (port : Nat) (bytes : List Byte)
  | seam (lane seq : Nat) (m : SeamMsg)
  | sendOmci (term txn : Nat) (contents : List Byte)
  | ptp (port kind clockClass : Nat)
  | pps (output : Nat) (width : Time)
  | vector (port : PortId) (v : Nat)
  | punt (port : PortId) (item : Word) (header : List Byte)
  | remoteFault (subport : Nat)
  | trainStatus (lane : Nat) (status : BitVec 16)
  deriving DecidableEq, Repr

/-! ### Host ports, rings, sessions, Thimbles and locks -/

/-- A reply packet (Table 14.5). -/
structure Reply where
  opcode : Nat
  status : Nat
  seq : Word
  session : Word
  nextStitch : StitchNo
  detail : Nat := 0
  result : List Nat := []
  deriving DecidableEq, Repr

/-- An attached event ring (R383). -/
structure EventRing where
  addr : Nat
  entries : Nat
  mask : Nat
  nextSeq : Nat := 1
  prod : Nat := 0
  cons : Nat := 0
  recs : List (Nat × EvRec) := []
  lost : Nat := 0
  lostPending : Nat := 0
  firstLost : Nat := 0
  deriving DecidableEq, Repr

/-- An attached notice, OMCI or launch delivery ring (R363). -/
structure DeliveryRing where
  addr : Nat
  entries : Nat
  deriving DecidableEq, Repr

/-- A Galub session (R367). -/
structure Session where
  id : Word
  agent : Nat
  version : Nat
  eventRing : Option EventRing := none
  notice : Option DeliveryRing := none
  omci : Option DeliveryRing := none
  launch : Option DeliveryRing := none
  punt : Bool := false
  deriving DecidableEq, Repr

/-- What a running command waits for before its reply can be written. -/
inductive Wait
  | omci (term prio : Nat)
  | fmtInsert (dies : List DieId) (tenant vid mac dtype dvalue : Nat) (done : List Nat)
  | fmtDelete (die : DieId) (tenant vid mac : Nat)
  | handover
  | stitchAck (result : List Nat)
  | lbm (mep : Nat)
  | ltm (mep : Nat)
  | scan (lane : Nat)
  deriving DecidableEq, Repr

/-- The command that a ring is running. -/
structure Running where
  opcode : Nat
  seq : Word
  session : Word
  signal : Bool
  started : Time
  maxTime : Time
  wait : Wait
  /-- Its reply is discarded: the port's link went down while it ran (R356). -/
  discard : Bool := false
  deriving DecidableEq, Repr

/-- A command ring with its registers (Table 19.4). -/
structure Ring where
  cmdBaseLo : Word := 0
  cmdBaseHi : Word := 0
  rplBaseLo : Word := 0
  rplBaseHi : Word := 0
  idxLo : Word := 0
  idxHi : Word := 0
  enable : Bool := false
  log2 : Nat := 4
  error : Bool := false
  cmdProd : RingIdx := 0
  cmdCons : RingIdx := 0
  rplProd : RingIdx := 0
  rplCons : RingIdx := 0
  session : Option Session := none
  running : Option Running := none
  /-- Replies written and not yet returned by the host, oldest first. -/
  replies : List Reply := []
  /-- Places of ABORT entries already carried out, to be skipped (R375). -/
  abortsDone : List RingIdx := []
  deriving DecidableEq, Repr

/-- A Thimble (R359, R360). -/
structure Thimble where
  owner : Option (PortId × Nat) := none
  waits : Nat := 0
  since : Time := 0
  /-- THIMBLE_CFG.TIMEOUT, and the timeout in force for the present claim. -/
  timeout : BitVec 16 := 0
  inForce : Nat := 0
  deriving DecidableEq, Repr

/-- A flow/MAC bank lock (Table 8.6). -/
structure FmtLock where
  owner : Option (PortId × Nat) := none
  since : Time := 0
  timeout : BitVec 16 := 0x0064
  inForce : Nat := 0
  deriving DecidableEq, Repr

/-- The punt side of a host port (R187, R363, R454). -/
structure PuntPort where
  pool : Option (Nat × Nat) := none
  ring : Nat := 0
  fifo : List Word := []
  out : List Nat := []
  deriving DecidableEq, Repr

/-- One die's image store and image window (R239, R358). Memory is a list of cells; an unlisted byte reads as 0 (log entry 8). -/
structure ImageStore where
  /-- Length and CRC-32 of each closed image, by image number. -/
  images : Tab (Nat × Word) := []
  /-- The open image: its number, its length and the port that opened it. -/
  opened : Option (Nat × Nat × PortId) := none
  offset : Nat := 0
  mem : List Host.Cell := []
  deriving DecidableEq, Repr

structure HostSt where
  linkA : Bool := false
  linkB : Bool := false
  /-- By 16 × port + ring. -/
  rings : Tab Ring := []
  thimbles : Tab Thimble := []
  /-- By 16 × die + bank. -/
  locks : Tab FmtLock := []
  puntA : PuntPort := {}
  puntB : PuntPort := {}
  imagesE : ImageStore := {}
  imagesW : ImageStore := {}
  lastScan : Time := 0
  deriving DecidableEq, Repr

/-! ### Configuration, staging and stitches -/

/-- A configured object: its kind, its number and the fields that differ from their defaults, with its hints. -/
structure Obj where
  kind : Nat
  num : Nat
  fields : List (Nat × Int) := []
  pin : Option Nat := none
  forbid : List Nat := []
  /-- Revoked at B1 and gone at B2 (R40). -/
  closing : Bool := false
  deriving DecidableEq, Repr

/-- The stitched configuration, by kind and number. -/
abbrev Cfg := Tab Obj

/-- A handle pool (R6): the values never issued are `next` to `size - 1`, before the freed ones in their order. -/
structure Pool where
  size : Nat := 2 ^ 20
  next : Nat := 0
  freed : List Nat := []
  deriving DecidableEq, Repr

/-- A staged baste record with the object it resolved to, the identifier chosen for it and its record index. -/
structure StagedRec where
  body : BasteRec
  num : Nat
  chosen : Option Nat := none
  index : Nat
  /-- The fields that no later record of the set has replaced (R30). -/
  eff : List (Nat × Int) := []
  deriving DecidableEq, Repr

/-- An accepted stitch whose B2 has not passed (R37). -/
structure PendStitch where
  number : StitchNo
  recs : List StagedRec
  b1 : Time
  b2 : Time
  /-- The digest D of this stitch (R330). -/
  digest : BitVec 64 := 0
  opened : Bool := false
  checked : Bool := false
  late : Bool := false
  quarantined : List Nat := []
  deriving DecidableEq, Repr

/-- A bank of the pipelines of one die that old-stitch frames still use (R202, R213). -/
structure OldBank where
  stitch : StitchNo
  cfg : Cfg
  since : Time
  deriving DecidableEq, Repr

/-- The place of an object (R26). -/
structure Place where
  kind : Nat
  num : Nat
  loc : Nat
  moving : Option Nat := none
  faultMove : Bool := false
  moves : Nat := 0
  deriving DecidableEq, Repr

structure StitchSt where
  current : StitchNo := 0
  staging : List StagedRec := []
  nextIndex : Nat := 0
  pend : List PendStitch := []
  cfg : Cfg := []
  terms : Pool := ⟨65536, 0, []⟩
  flows : Pool := ⟨1048576, 0, []⟩
  allocs : Pool := ⟨262144, 0, []⟩
  queues : Pool := ⟨262144, 0, []⟩
  /-- Pools of the numbers that the device issues for the other kinds: by 2 × kind + die. -/
  pools : Tab Pool := []
  /-- Old banks, by die. -/
  oldBanks : Tab OldBank := []
  /-- Dies whose incoming bank waits to be written, and those written (R202). -/
  bankWritten : Tab Bool := []
  /-- Handles held closed after a quarantine, as kind and number (R44). -/
  heldObjs : List (Nat × Nat) := []
  heldStitch : StitchNo := 0
  /-- Table banks, row groups and key slots in quarantine, as locations (R44). -/
  quarantined : List Nat := []
  /-- The configuration digest D (R330). -/
  digest : BitVec 64 := 0
  places : List Place := []
  /-- Next part number of the Seam's staging stream, and the parts received (R316). -/
  partNo : Nat := 0
  ackDue : Option (StitchNo × Time) := none
  /-- B1 and B2 of the stitches whose window has closed, for the STITCH_STATUS query. -/
  lastWindow : Option (StitchNo × Time × Time) := none
  deriving DecidableEq, Repr

/-! ### Channels -/

/-- Channel states (Table 2.5). -/
inductive ChState | dark | starting | active | quiet | shadow | draining | faulted
  deriving DecidableEq, Repr

/-- A generation of burst profiles at one rate (R59, R62): whether it occupies indices 2 and 3. -/
structure ProfileGen where
  /-- The current generation is at indices 2 and 3. -/
  currentHigh : Bool := false
  /-- A change is in progress, since the B2 at this time. -/
  incoming : Option Time := none
  broadcastsLeft : Nat := 0
  /-- Terminals that have moved to the incoming generation. -/
  moved : List Nat := []
  stale : List Nat := []
  /-- The channel's profile fields of the old generation, while a change is in progress. -/
  old : List (Nat × Int) := []
  deriving DecidableEq, Repr

/-- The kinds of quiet windows, in placement order (R461). -/
inductive WinKind | ranging | searching | feeder | discovery
  deriving DecidableEq, Repr

/-- A quiet window due in a build. -/
structure WinReq where
  kind : WinKind
  term : Option Nat := none
  rate : Rate := .r49
  len : Time
  deriving DecidableEq, Repr

/-- A quiet window placed on the upstream timeline of the channel: absolute start, length. -/
structure QuietWin where
  kind : WinKind
  term : Option Nat := none
  rate : Rate := .r49
  start : Time
  len : Time
  deriving DecidableEq, Repr

/-- An allocation structure of a map. -/
structure Grant where
  allocId : Nat
  /-- The allocation's handle, or none for a default or broadcast Alloc-ID. -/
  alloc : Option Nat := none
  term : Option Nat := none
  bytes : Nat := 0
  fixed : Nat := 0
  /-- The part of the bytes that the assured credit pays for. -/
  assured : Nat := 0
  dbru : Bool := false
  ploamu : Bool := false
  start : Time := 0
  profile : Nat := 0
  deriving DecidableEq, Repr

/-- A burst of a map: its terminal, its place in the upstream frame, its rate, profile and grants. -/
structure MapBurst where
  term : Nat
  onu : Nat
  start : Time
  dur : Time
  rate : Rate
  profile : Nat
  short : Bool
  grants : List Grant
  deriving DecidableEq, Repr

/-- A bandwidth map. -/
structure BwMap where
  sf : SF := 0
  bursts : List MapBurst := []
  windows : List QuietWin := []
  winGrants : List Grant := []
  carryOver : Bool := false
  deriving DecidableEq, Repr

/-- A cue item of the lane's cue queue (R89). -/
structure CueItem where
  term : Nat
  onu : Nat
  rate : Rate
  profile : Nat
  short : Bool
  arrival : Time
  dur : Time
  quiet : Option WinKind := none
  /-- The count of the map that granted the burst. -/
  sf : SF := 0
  /-- Its position among the bursts of that map. -/
  place : Nat := 0
  cued : Bool := false
  preloaded : Bool := false
  swapped : Bool := false
  deriving DecidableEq, Repr

/-- A report in the inbox (R134): the Alloc-ID, the reported bytes and the count of the map that granted it. -/
structure Report where
  allocId : Nat
  bytes : Nat
  sf : SF
  deriving DecidableEq, Repr

/-- A feeder search in progress (R120). -/
structure Search where
  second : Bool := false
  terms : List Nat := []
  windowEnd : Option Time := none
  deriving DecidableEq, Repr

/-- A standing rogue suspicion (R126 to R128). -/
structure Rogue where
  named : Option Nat := none
  candidates : List Nat := []
  current : Option Nat := none
  since : SF := 0
  unresolved : Bool := false
  deriving DecidableEq, Repr

/-- A build of a bobbin (R138): the map it will hand over and its work figures. -/
structure Build where
  ch : Nat
  carry : SF
  map : BwMap
  /-- Frame boundary the map is for. -/
  t : Time
  reports : Nat
  active : Nat
  /-- Batches exposed and not yet claimed, and those claimed by thieves (R143, R144). -/
  batches : Nat
  stolen : List Nat := []
  surplus : Nat := 0
  withheld : Nat := 0
  /-- The terminals deferred, and the rotation pointer that the completed build leaves (R139). -/
  deferred : Nat := 0
  rotation : Nat := 0
  deriving DecidableEq, Repr

structure Channel where
  st : ChState := .dark
  since : SF := 0
  enteredAt : Time := 0
  /-- Frames sent since entry to STARTING (R74). -/
  framesSent : Nat := 0
  /-- The end of the exit from Dormant, before which no frame is sent (R408). -/
  readyAt : Time := 0
  lastRegistered : Time := 0
  drainFrom : Option Time := none
  lastEnd : Time := 0
  awake : Bool := false
  ploam : List Ploam := []
  ploamHeld : List Ploam := []
  discNext : Time := 0
  discPostponed : Bool := false
  windowsDue : List WinReq := []
  windows : List QuietWin := []
  los : Bool := false
  /-- Granted bursts seen in the current upstream frame: expected unicast, absent, accepted, not accepted. -/
  frExpected : Nat := 0
  /-- A granted burst of the frame was not absent. -/
  frHeard : Bool := false
  frMissed : Nat := 0
  /-- Terminals with an accepted burst this frame, with the burst's δ. -/
  frOffsets : List (Nat × Int) := []
  losFrames : Nat := 0
  missFrames : Nat := 0
  lol : Bool := false
  search : Option Search := none
  rogue : Option Rogue := none
  gapFrames : Nat := 0
  foreign : List (Nat × Time) := []
  /-- The expectation of every burst has moved by this much against the built maps (R121). -/
  expShift : Int := 0
  lastStep : Option (Int × SF) := none
  /-- Profile generations, by rate. -/
  gens : Tab ProfileGen := []
  nextMap : Option BwMap := none
  carryMap : Option BwMap := none
  sent : List BwMap := []
  build : Option Build := none
  rotation : Nat := 0
  inbox : List Report := []
  cue : List CueItem := []
  /-- The receiver's settings in the shadow registers and in the receiver: the terminal they belong to. -/
  shadow : Option Nat := none
  receiver : Option Nat := none
  laneRate : Rate := .r49
  surplusSum : Nat := 0
  builds : Nat := 0
  /-- The surplus demand found at the end of the last period, and the bytes of the present share (R150). -/
  demand : Nat := 0
  share : Nat := 0
  /-- Supplied asymmetry of a split-path tree in ps, and whether it is confirmed (R123, R124). -/
  asym : Int := 0
  asymConfirmed : Bool := false
  expressQ : Option Nat := none
  mgmtQ : Option Nat := none
  /-- Deficit counters of the channel stage: express, management, hierarchy (R168). -/
  defE : Int := 0
  defM : Int := 0
  defH : Int := 0
  /-- An express frame in cut-through: the frame and its parsed length (R174). -/
  cut : Option (Frame × Nat) := none
  /-- Own last digest, runs of matching digests, mismatches with their times (R321, R330). -/
  ownDigest : Option (SF × BitVec 64) := none
  digestRun : Nat := 0
  mismatches : List Time := []
  /-- ALLOC_STATE is due at the next cut-off, on the holder (R330, R332). -/
  allocDue : Bool := false
  /-- Owners whose keys the standby asked for again (R330). -/
  keyMissing : List Nat := []
  /-- Reports ingested at the last cut-off. -/
  ingested : Nat := 0
  isProtected : Bool := false
  /-- Own arrivals less the holder's, for the feeder delta (R325), newest last. -/
  deltas : List Int := []
  /-- Bursts absent at the own lane in a row and accepted by the twin among them (R323). -/
  tallyRun : List (Bool × Bool) := []
  /-- The granted unicast bursts heard since the last tally: map, position and whether the lane accepted it. -/
  burstLog : List (SF × Nat × Bool) := []
  deriving DecidableEq, Repr

/-! ### Terminals, fitting records and allocations -/

/-- An outstanding unicast relative Ranging_Time (R114). -/
structure Correction where
  amount : Int
  sentAt : Time
  /-- No Acknowledge came within 10 ms; the next burst decides. -/
  judging : Bool := false
  deriving DecidableEq, Repr

/-- A key exchange of a terminal (R265). -/
structure Exchange where
  index : Nat
  tries : Nat := 0
  startedAt : Time
  fragments : List (Nat × List Byte) := []
  deriving DecidableEq, Repr

/-- Whose an OMCI request is: the host's, or the device's own for the OMCC version, a time-of-day set or a broadcast key
(R236, R269, R300). -/
inductive OmciUse
  | host
  | version
  | tod
  | bcast (tenant index : Nat)
  deriving DecidableEq, Repr

/-- An OMCI request of a terminal (R237). -/
structure OmciReq where
  prio : Nat
  contents : List Byte
  txn : Nat
  sentAt : Time := 0
  resends : Nat := 0
  port : PortId := .a
  ring : Nat := 0
  use : OmciUse := .host
  deriving DecidableEq, Repr

/-- A software download (R240). -/
structure Download where
  image : Nat
  inst : Nat
  window : Nat
  running : Bool := false
  started : Bool := false
  sent : Nat := 0
  retried : Bool := false
  /-- Its place in the order of download commands. -/
  order : Nat := 0
  ending : Bool := false
  endSince : Time := 0
  lastAt : Time := 0
  deriving DecidableEq, Repr

structure Terminal where
  st : TermState := .absent
  ch : Option Nat := none
  onu : Option Nat := none
  rate : Rate := .r49
  rtd : Int := 0
  eqd : Int := 0
  /-- Offset of the arrival of the serial-number burst, from the frame start. -/
  snArrival : Time := 0
  enteredAt : Time := 0
  /-- Directed ranging grants sent without a reply (R111). -/
  grants : Nat := 0
  rangingAt : Option Time := none
  /-- δ of up to the last 8 accepted bursts (R114). -/
  drift : List Int := []
  corr : Option Correction := none
  corrWaiting : Bool := false
  lostRun : Nat := 0
  lostSince : Time := 0
  /-- Times of MIC failures of the last second (R67) and whether the count stands above 16. -/
  micFails : List Time := []
  micHigh : Bool := false
  length : Int := 0
  asym : Int := 0
  td : Int := 0
  asleep : Bool := false
  wokeLong : Bool := false
  profAckDue : Option Time := none
  profResends : Nat := 0
  /-- Codewords received and uncorrectable in the present 1 s interval, and the running clears (R58). -/
  cwTotal : Nat := 0
  cwBad : Nat := 0
  degraded : Bool := false
  failed : Bool := false
  degRun : Nat := 0
  failRun : Nat := 0
  /-- Start of the present 1 s interval of R58. -/
  berAt : Time := 0
  /-- The offset of the last accepted burst from its place (R325). -/
  lastOff : Option Int := none
  /-- A fitting reset that waits for the end of the burst being received (R87): true for EMPTY. -/
  fitReset : Option Bool := none
  narrowSeen : Bool := false
  wideMissed : List Rate := []
  needPloamu : Bool := false
  underTest : Bool := false
  /-- Keys (R263 to R268). -/
  msk : Option (List Byte) := none
  exch : Option Exchange := none
  exchRetryAt : Option Time := none
  nextRefresh : Time := 0
  switchAt : Option SF := none
  clearAt : Option SF := none
  keySpent : Bool := false
  /-- The terminal's context failed its reload and is not yet rebuilt (R275). -/
  ctxLost : Bool := false
  /-- OMCI (R236 to R238). -/
  omciExt : Bool := false
  omciOut : List OmciReq := []
  omciWait : List OmciReq := []
  omciTxn : Nat := 0
  alarmSeq : Option Nat := none
  download : Option Download := none
  /-- The OMCC version has been asked for since the entry to OPERATIONAL (R236). -/
  omciAsked : Bool := false
  /-- Tenants whose broadcast keys the terminal holds, and joins that wait for them: tenant, VID, group (R269). -/
  bcastGot : List Nat := []
  heldJoins : List (Nat × Nat × Nat) := []
  /-- Multicast groups the terminal is a member of: 4,096 × tenant + VID, group address, time of the last report. -/
  groups : List (Nat × Nat × Time) := []
  /-- Time of day (R300). -/
  todDue : Time := 0
  todFails : Nat := 0
  todOut : Bool := false
  deriving DecidableEq, Repr

/-- Fitting states (Table 3.4). -/
inductive FitState | empty | fresh | aged | stale
  deriving DecidableEq, Repr

/-- A fitting record (Table 3.3). The two settings sets are lists of 12 values: FFE 0–8, DFE, CDR, gain. -/
structure Fitting where
  work : List Int := []
  snap : List Int := []
  conf : Nat := 0
  st : FitState := .empty
  rate : Rate := .r49
  snapValid : Bool := false
  fenceHit : Bool := false
  adaptBursts : Nat := 0
  lastAdapt : Word := 0
  snapTime : Word := 0
  fenceCount : Nat := 0
  preloadFail : Nat := 0
  term : Nat := 0
  onu : Nat := 0
  marginV : Nat := 0
  marginH : Nat := 0
  /-- The tree's store slot that the record occupies (R85). -/
  slot : Nat := 0
  deriving DecidableEq, Repr

/-- The running state of an allocation (R135, R138). -/
structure Alloc where
  backlog : Int := 0
  creditA : Int := 0
  creditM : Int := 0
  /-- Frames since the last report. -/
  noReport : Nat := 0
  /-- Bytes granted in each recent map, newest first, for the backlog at ingest (R135). -/
  granted : List (SF × Nat) := []
  /-- Its bind has been sent (R69). -/
  bound : Bool := false
  deriving DecidableEq, Repr

/-- A cooperative hint (R152). -/
structure HintRec where
  alloc : Nat
  sf : SF
  bytes : Nat
  deriving DecidableEq, Repr

/-- A bobbin (R155 to R157, R409). -/
structure Bobbin where
  quarantined : Bool := false
  dozing : Bool := true
  lastLen : Nat := 0
  exposed : Nat := 0
  stole : Nat := 0
  /-- The channel whose contexts were moved here, when not its own (R157). -/
  serves : List Nat := []
  wakeDue : Option Time := none
  deriving DecidableEq, Repr

structure PonSt where
  /-- The grid runs (R51); the time of its last boundary and the count that boundary carried. -/
  gridOn : Bool := false
  gridAt : Time := 0
  sf : SF := 0
  channels : Tab Channel := []
  terms : Tab Terminal := []
  fits : Tab Fitting := []
  /-- Re-planned starting points, by 4 × channel + rate (R426). -/
  starts : Tab (List Int) := []
  /-- Guard and preamble recommended by the last alteration pass, by 4 × channel + rate (R426). -/
  recommended : Tab (List Nat) := []
  allocs : Tab Alloc := []
  hints : List (Nat × HintRec) := []
  bobbins : Tab Bobbin := []
  /-- The effective grant budget in bytes per frame and the share state (R149, R150). -/
  budget : Nat := 101562500
  budgetKnown : Bool := false
  /-- What the uplinks that were up at the end of the last period leave as the budget (R149). -/
  uplinkBudget : Nat := 0
  /-- Trees whose time of day is UNVERIFIED, with the superframe count of the step (R123). -/
  todUnverified : Tab SF := []
  lastSweep : Time := 0
  deriving DecidableEq, Repr

/-! ### Queues, shapers, policers and ports -/

/-- The two buckets of a shaper (R170), in units of 1/46,875 byte (log entry 11), and the deficit counter of R164. -/
structure Shaper where
  committed : Int := 0
  peak : Int := 0
  deficit : Int := 0
  deriving DecidableEq, Repr

structure Queue where
  frames : List Frame := []
  /-- The instance being drained by a move (R21). -/
  oldFrames : List Frame := []
  deep : Bool := true
  attached : Bool := true
  deriving DecidableEq, Repr

/-- An entry of a launch list (R177). -/
structure Launch where
  frame : Frame
  /-- Channel: superframe count and word offset. Port: the base and the launch time on it, in 1/65,536 ns. -/
  sf : SF := 0
  word : Nat := 0
  base : Nat := 0
  time : Nat := 0
  queue : Nat := 0
  tag : Nat := 0
  report : Bool := false
  mode : Nat := 0
  deriving DecidableEq, Repr

/-- A launch record (Table 11.6). -/
structure LaunchRec where
  tag : Nat
  status : Nat
  base : Nat
  isPort : Bool
  dest : Nat
  time : Nat
  deriving DecidableEq, Repr

/-- The token buckets of a policer (R181), in units of 1/46,875 byte. -/
structure PolicerSt where
  tc : Int := 0
  tp : Int := 0
  deriving DecidableEq, Repr

/-- A frame on its way from the pipeline to its admission. -/
structure Transit where
  frame : Frame
  dest : Dest
  die : DieId
  deriving DecidableEq, Repr

structure FcOut where
  active : Bool := false
  since : Time := 0
  deriving DecidableEq, Repr

structure FcIn where
  active : Bool := false
  since : Time := 0
  stuck : Bool := false
  deriving DecidableEq, Repr

structure QueueSt where
  queues : Tab Queue := []
  /-- Shapers of queues, subscriber nodes and service nodes, by kind and number. -/
  shapers : Tab Shaper := []
  policers : Tab PolicerSt := []
  transit : List Transit := []
  /-- Upstream frames waiting for a port: by 1024 × die + 8 × port index + class. -/
  ports : Tab (List Frame) := []
  /-- The die a port's class last drew on (R161), by 8 × port index + class. -/
  lastDie : Tab Bool := []
  /-- Launch lists, by channel, and by 512 + port index. -/
  launches : Tab (List Launch) := []
  launchRingE : List LaunchRec := []
  launchRingW : List LaunchRec := []
  /-- Near-pan occupancy at the high watermark has been reported, and the moves chosen for it are not yet complete, by die. -/
  nearHigh : Tab Bool := []
  fcOut : Tab FcOut := []
  fcIn : Tab FcIn := []
  /-- The 64-cycle periods of CLK_CORE up to the last refill of the shapers and of the policers. -/
  shaperTicks : Nat := 0
  policerTicks : Nat := 0
  /-- The child last served at each parent of the scheduling hierarchy: by kind and number of the parent. -/
  turns : Tab Nat := []
  deepFault : Tab Bool := []
  deriving DecidableEq, Repr

/-! ### Classification and forwarding tables -/

/-- The running state of a classifier row (R196). -/
structure RowSt where
  phys : Nat
  hits : BitVec 48 := 0
  multi : Bool := false
  /-- Bank membership: the bank in use and the incoming one. -/
  inOld : Bool := true
  inNew : Bool := true
  /-- Found with a parity error and not yet rewritten (R204). -/
  bad : Bool := false
  deriving DecidableEq, Repr

/-- A flow/MAC entry (Table 8.2). -/
structure FmtEntry where
  mac : Nat
  vid : Nat
  tenant : Nat
  isStatic : Bool := false
  hit : Bool := false
  dtype : Nat
  dvalue : Nat
  bank : Nat := 0
  index : Nat := 0
  /-- Not yet valid for frames of the old stitch, or no longer valid for those of the new one. -/
  opening : Bool := false
  closing : Bool := false
  /-- A static entry lost to a parity error and not yet rewritten (R233). -/
  bad : Bool := false
  deriving DecidableEq, Repr

/-- An open hold window (R226): the source that opened it and whether CONTENTION was issued. -/
structure HoldEnt where
  die : DieId
  tenant : Nat
  vid : Nat
  mac : Nat
  source : Nat
  opened : Time
  contended : Bool := false
  deriving DecidableEq, Repr

/-- A notice record (Table 8.5). -/
structure Notice where
  kind : Nat
  tenant : Nat
  die : DieId
  dir : Dir
  vid : Nat
  mac : Nat
  bank : Nat
  srcA : Nat
  srcB : Nat
  time : Nat
  seq : Word
  deriving DecidableEq, Repr

/-- A frame that waits for its second pass (R212). -/
structure Recirc where
  frame : Frame
  profile : Nat
  skip : Nat
  deriving DecidableEq, Repr

/-- A token bucket of a punt class (R209), in millionths of a packet per microsecond: packets × 10^12. -/
structure PuntBucket where
  level : Nat
  at_ : Time
  deriving DecidableEq, Repr

structure TableSt where
  /-- By 65,536 × die + entry number. -/
  rows : Tab RowSt := []
  fmtE : List FmtEntry := []
  fmtW : List FmtEntry := []
  holds : List HoldEnt := []
  noticeE : List Notice := []
  noticeW : List Notice := []
  noticeSeqE : Word := 0
  noticeSeqW : Word := 0
  /-- By 8 × die + 4 × direction + pipeline. -/
  recirc : Tab (List Recirc) := []
  /-- Frames that wait at a pipeline's exit for an earlier frame of their flow (R214), by the same key. -/
  exits : Tab (List Transit) := []
  /-- By 64 × die + class. -/
  punt : Tab PuntBucket := []
  lastAge : Tab Time := []
  deriving DecidableEq, Repr

/-! ### Services -/

/-- A frame in the Atelier's input queue. -/
structure SvcFrame where
  cls : Nat
  frame : Frame
  deriving DecidableEq, Repr

/-- A remote end point heard by a MEP (R249). -/
structure Remote where
  mep : Nat
  remote : Nat
  last : Time
  lost : Bool := false
  defect : Nat := 0
  deriving DecidableEq, Repr

/-- An LBM or LTM series (R249). -/
structure Series where
  mep : Nat
  trace : Bool
  target : Nat
  wanted : Nat
  got : List Nat := []
  port : PortId
  ring : Nat
  deriving DecidableEq, Repr

/-- A snooped group of a tenant and VLAN (R246). -/
structure McastGroup where
  die : DieId
  tenant : Nat
  vid : Nat
  mac : Nat
  /-- The group's number, and its channel legs. -/
  num : Nat
  legs : List Nat := []
  deriving DecidableEq, Repr

/-- An OMCI notification record (R238). -/
structure OmciRec where
  term : Nat
  contents : List Byte
  deriving DecidableEq, Repr

/-- A leave that waits for its group-specific queries (R247). -/
structure Leave where
  term : Nat
  tenant : Nat
  vid : Nat
  group : Nat
  queries : Nat
  at_ : Time
  deriving DecidableEq, Repr

structure SvcSt where
  /-- Download commands taken so far, for their order (R240). -/
  swdlSeq : Nat := 0
  inE : List SvcFrame := []
  inW : List SvcFrame := []
  omciE : List OmciRec := []
  omciW : List OmciRec := []
  groups : List McastGroup := []
  leaves : List Leave := []
  /-- Time of the last general query, by die, tenant and VLAN. -/
  lastQuery : Tab Time := []
  remotes : List Remote := []
  series : List Series := []
  /-- Time of each MEP's last CCM. -/
  lastCcm : Tab Time := []
  /-- Blocked flows with the time of the block (R250). -/
  blocked : Tab Time := []
  probeValue : Word := 0
  probeSeq : Tab Nat := []
  lastProbe : Tab Time := []
  deriving DecidableEq, Repr

/-! ### Cipher lanes and keys -/

/-- Key slot states (R261). -/
inductive KeyState | free | loaded | current | retired
  deriving DecidableEq, Repr

/-- One key of a slot. -/
structure KeyVal where
  st : KeyState := .free
  bytes : List Byte := []
  loadedSf : SF := 0
  since : SF := 0
  spent : Bool := false
  deriving DecidableEq, Repr

/-- A Key Cellar slot (Table 10.3). Kinds: 0 DATA, 1 INTEGRITY, 2 EXCHANGE, 3 BROADCAST, 4 SAK, 5 SEAM. -/
structure KeySlot where
  kind : Nat
  owner : Nat
  key1 : KeyVal := {}
  key2 : KeyVal := {}
  deriving DecidableEq, Repr

/-- A broadcast key distribution (R269). -/
structure Bcast where
  tenant : Nat
  ch : Nat
  index : Nat
  startedAt : Time
  waiting : List Nat
  deriving DecidableEq, Repr

/-- A MACsec association (R278 to R280). -/
structure SecAssoc where
  pn : BitVec 64 := 1
  stopped : Bool := false
  warned : Bool := false
  deriving DecidableEq, Repr

/-- Ladder states (Table 17.1). -/
inductive Ladder | run | idle | doze | nap | sleep | dormant
  deriving DecidableEq, Repr

/-- A pool of 8 cipher lanes (R405, R410). -/
structure CipherPool where
  st : Ladder := .run
  spareSince : Option Time := none
  napSince : Time := 0
  waking : Option (Ladder × Time) := none
  deriving DecidableEq, Repr

structure CipherSt where
  /-- By 131,072 × die + slot. -/
  slots : Tab KeySlot := []
  importKey : Option (List Byte) := none
  lastSequence : Option Nat := none
  storageE : List Byte := []
  storageW : List Byte := []
  pairingKey : Option (List Byte) := none
  quarantined : List Nat := []
  pools : Tab CipherPool := []
  bcasts : List Bcast := []
  /-- Next refresh of each broadcast key, by 64 × channel + tenant. -/
  bcastNext : Tab Time := []
  assocs : Tab SecAssoc := []
  /-- The version last written of each context in the deep pan, by 2⁴⁰ × slot kind + owner (R275). -/
  ctxVersion : Tab (BitVec 32) := []
  /-- The placed load of each lane in percent, as last measured (R19, R256, R410). -/
  loads : Tab Nat := []
  /-- When a lane's load rose above 90 %, by lane (R19). -/
  loadSince : Tab Time := []
  deriving DecidableEq, Repr

/-! ### Time -/

/-- A foreign-master record (R288). -/
structure Foreign where
  base : Nat
  port : Nat
  master : Nat
  dataset : Nat
  last : Time
  deriving DecidableEq, Repr

/-- A time base (R282 to R296). Its value at the instant `refNow` is `refVal`, in units of 2⁻¹⁶ ns; `rate` is in units of 2⁻⁴⁸. -/
structure TimeBase where
  st : BaseState := .unset
  refNow : Time := 0
  refVal : Int := 0
  rate : Int := 0
  everLocked : Bool := false
  /-- The latest offset from the source: source less base, in units of 2⁻¹⁶ ns. -/
  offset : Int := 0
  /-- The rates of the last 60 s in LOCKED, with their times. -/
  rates : List (Time × Int) := []
  /-- The source stitched, as Table 11.1 numbers it, and whether it is refused until restitched (R295). -/
  source : Nat := 0
  sourceArg : Nat := 0
  ignored : Bool := false
  fresh : Bool := false
  lastSample : Time := 0
  inLimitSince : Option Time := none
  holdSince : Option Time := none
  /-- Recent samples beyond the threshold, newest first. -/
  beyond : List Int := []
  heldJump : Option Int := none
  acceptAt : Option Time := none
  setAt : Option (Time × Nat × Bool) := none
  unfit : Bool := false
  fitSince : Option Time := none
  deriving DecidableEq, Repr

structure TimeSt where
  bases : Tab TimeBase := []
  /-- The 800 MHz time-stamp clock runs; otherwise the bases count on the crystal (R282, R339). -/
  stampClock : Bool := false
  foreign : List Foreign := []
  /-- Last rising edge and loss of each PPS input. -/
  ppsLast : Tab Time := []
  ppsLost : Tab Bool := []
  /-- Time of the last pulse of each PPS output. -/
  ppsOutLast : Tab Time := []
  /-- Squelched recovered-clock outputs, and when the lane's lock returned. -/
  squelched : Tab Bool := []
  lockBack : Tab Time := []
  lastSend : Tab Time := []
  deriving DecidableEq, Repr

/-! ### Serial lanes -/

/-- A pattern test (R350 to R352). -/
structure LaneTest where
  pattern : Nat
  inject : Inject
  deriving DecidableEq, Repr

/-- An uplink (0–63) or Seam (64–67) lane, and for tests the PON lanes (68 + channel). -/
structure Lane where
  /-- Trained, with data since `dataAt` (R346). -/
  up : Bool := false
  dataAt : Time := 0
  los : Bool := false
  lol : Bool := false
  lolSince : Time := 0
  /-- Its LOS has cleared since it last trained (R347). -/
  losCleared : Bool := false
  training : Bool := false
  trainSince : Time := 0
  failedAt : Option Time := none
  /-- The transmitter's FFE: preset, and steps of c(−3), c(−2), c(−1), c(1) (Tables 13.6, 13.7). -/
  preset : Nat := 1
  taps : List Int := [0, 0, 0, 0]
  /-- The answer to the partner's present request, until it returns to hold (R346). -/
  answer : Option (BitVec 16) := none
  readySeen : Nat := 0
  selfReady : Bool := false
  work : List Int := []
  snap : List Int := []
  snapAt : Time := 0
  /-- Its starting point, the snapshot at the last alteration pass (R426). -/
  start : List Int := []
  degraded : Bool := false
  degRun : Nat := 0
  highSince : Option Time := none
  fenceCount : Nat := 0
  test : Option LaneTest := none
  margins : List Nat := []
  marginSf : SF := 0
  deriving DecidableEq, Repr

/-- A sub-port (R341, R343). -/
structure Subport where
  up : Bool := false
  aligned : Bool := false
  localFault : Bool := false
  injectN : Nat := 0
  deriving DecidableEq, Repr

structure LaneSt where
  lanes : Tab Lane := []
  subports : Tab Subport := []
  /-- Eye scans running, with their start, and waiting, in order of request (R353). -/
  scans : List (Nat × Option Time) := []
  deriving DecidableEq, Repr

/-! ### The twin -/

structure TwinSt where
  role : Role := .solo
  lastCause : Nat := 0
  /-- The filtered pin TOKEN_IN is active; YIELD_IN is active. -/
  tokenIn : Bool := false
  yieldIn : Bool := true
  tokenOut : Bool := false
  yieldOut : Bool := true
  /-- The token is held, since T_k (R307). -/
  held : Bool := false
  tk : Time := 0
  guardSince : Option Time := none
  /-- The claim in progress is a takeover (R326) and not a start-up claim. -/
  takeover : Bool := false
  /-- HELLO has been sent since the end of start-up (R311). -/
  helloSent : Bool := false
  /-- The instants L and B_f of a token just taken, by cluster (R326). -/
  lasersAt : Tab Time := []
  framesAt : Tab Time := []
  lasers : List Nat := []
  paired : Bool := false
  seamVersion : Nat := 0
  partnerSerial : BitVec 64 := 0
  partnerRole : Role := .solo
  seamUp : Bool := false
  lastMsg : Time := 0
  downSince : Option Time := none
  /-- Last sequence accepted and next to send, by lane. -/
  rxSeq : Tab Nat := []
  txSeq : Tab Nat := []
  generation : Nat := 0
  badMsgs : List Time := []
  yieldCause : Nat := 0
  /-- The step of a resync in progress, when it started, the tries left. -/
  resyncStep : Nat := 0
  resyncSince : Time := 0
  resyncTries : Nat := 0
  resyncRetryAt : Option Time := none
  /-- The resync in progress is of time only (R332). -/
  timeOnly : Bool := false
  /-- The configuration image received so far: the next chunk, records, pools and privileged queues. -/
  imageNext : Nat := 0
  imageRecs : List (BasteRec × Nat) := []
  imagePools : List ImagePool := []
  imagePrivs : List (Nat × Nat × Nat) := []
  /-- Stitches accepted while the image was awaited. -/
  keptStitches : List PendStitch := []
  /-- The channels whose ALLOC_STATE a resync has received, the bases that compare within 100 ns, and whether D matches. -/
  allocsSeen : List Nat := []
  basesFit : List Nat := []
  digestFit : Bool := false
  /-- The holder sends every channel's ALLOC_STATE at the next budget period. -/
  allocsWanted : Bool := false
  /-- TWIN_TAKEOVER has been raised for the takeover in progress, and the terminals owed a key exchange at B_f. -/
  takeoverTold : Bool := false
  exchDue : List Nat := []
  /-- The partner's stitch number and digest, as last received. -/
  partnerStitch : StitchNo := 0
  partnerDigest : BitVec 64 := 0
  aligned : Bool := false
  lastTally : Time := 0
  lastCompare : Nat := 0
  lastDrift : Time := 0
  deriving DecidableEq, Repr

/-! ### Power, supply, start-up and references -/

/-- A supply rail under supervision (R418 to R422), numbered in the order of Table 18.3. -/
structure Rail where
  present : Bool := true
  dipSince : Option Time := none
  minMv : Nat := 0
  marginSince : Option Time := none
  marginPending : Bool := false
  marginFlag : Bool := false
  deriving DecidableEq, Repr

structure PowerSt where
  /-- In reset, by PORST_N, a supply or a thermal reset (Table 17.4). -/
  inReset : Bool := true
  /-- The cause of the present or last device reset: 0 power-on, 1 supply, 2 thermal. -/
  resetBy : Nat := 0
  stage : Nat := 0
  fail : Nat := 0
  ready : Bool := false
  side : Bool := false
  releasedAt : Time := 0
  readyAt : Time := 0
  rails : Tab Rail := []
  dips : List Time := []
  /-- The rail and minimum of a supply reset, to be reported (R419). -/
  resetRail : Option (Nat × Nat) := none
  /-- Flash and fuse writes are suspended (R420). -/
  writesSuspended : Bool := false
  thermalHigh : Bool := false
  /-- References faulted, by number (R339). -/
  refFault : Tab Bool := []
  gridSource : Option Nat := none
  lastRefCheck : Time := 0
  setPointE : Nat := 800
  setPointW : Nat := 800
  passes : Nat := 0
  /-- The start of the last alteration pass. -/
  lastPass : Time := 0
  passSince : Option Time := none
  passWanted : Bool := false
  bridgeUp : Bool := true
  deriving DecidableEq, Repr

/-! ### The whole -/

structure State where
  /-- The commands that wait, first in, first out. -/
  pending : List Instr := []
  /-- Real time in picoseconds. -/
  now : Time := 0
  /-- The draw counter of the free values (log entry 3): the model's own field, not the spec's. -/
  draw : Nat := 0
  /-- What the last command put out. -/
  out : List Output := []
  ev : EventSt := {}
  ctr : CounterSt := {}
  host : HostSt := {}
  stitch : StitchSt := {}
  pon : PonSt := {}
  q : QueueSt := {}
  tab : TableSt := {}
  svc : SvcSt := {}
  ciph : CipherSt := {}
  time : TimeSt := {}
  lane : LaneSt := {}
  twin : TwinSt := {}
  pwr : PowerSt := {}
  deriving DecidableEq, Repr

/-- The machine right after reset: PORST_N is still low, no stitch has taken effect, every channel is DARK, every pool is
in its starting order, TOKEN_OUT is inactive and YIELD_OUT active (R6, R27, R74, R306, R417). -/
def State.reset : State := {}

/-- Why the machine stops. No meaning of this model raises a fault: the spec gives the block no operation that stops it
without a next state. Safe. -/
inductive Fault
  /-- Never raised. Safe. -/
  | unreachable
  deriving DecidableEq, Repr

/-- Why the model has no answer for a command. -/
inductive Refusal
  /-- Raised by exec alone, for a command whose meaning is not written. Safe. -/
  | notModelled (mnemonic : String)
  deriving DecidableEq, Repr

end Sys2Proof.Machine
end

