-- ==== Sys2Proof/Machine/Schema.lean ====
section
/-! DEFINITION. The object kinds that a baste record can name, their fields with ranges, steps and defaults (the parameter tables of the spec), and reading a field of the configuration. -/

namespace Sys2Proof.Machine
open Sys2Proof

/-- When a changed field takes effect: `atB1` with the pipelines' bank, `lowered` at B1 when it falls and at B2 when it
rises, `atB2` otherwise (Table 1.4, R40, R154, R176, R182). -/
inductive Effect | atB1 | lowered | atB2
  deriving DecidableEq, Repr

/-- A field of an object kind: number, range, default (none: a create must carry it), step and moment of effect. -/
structure FieldSpec where
  num : Nat
  lo : Int
  hi : Int
  dflt : Option Int := some 0
  step : Nat := 1
  eff : Effect := .atB2
  deriving DecidableEq, Repr

namespace Schema

def fs (num : Nat) (lo hi : Int) (d : Int) (step : Nat := 1) (eff : Effect := .atB2) : FieldSpec :=
  ⟨num, lo, hi, some d, step, eff⟩
/-- A field that a create must carry. -/
def req (num : Nat) (lo hi : Int) (eff : Effect := .atB2) : FieldSpec := ⟨num, lo, hi, none, 1, eff⟩

def onOff (num : Nat) (d : Int) (eff : Effect := .atB2) : FieldSpec := fs num 0 1 d 1 eff

/-- The device's own settings (R149, R315, R317, R322, R424, R427, R237, R250, Table 9.2). -/
def device : List FieldSpec :=
  [fs Fld.devBudgetMbps 100000 6500000 6500000 1 .lowered, fs Fld.devSeamAsymPs (-10000) 10000 0,
   fs Fld.devMinPairing 2 255 2, fs Fld.devAltStartSec 0 86399 10800, fs Fld.devAltLenMin 10 240 60,
   fs Fld.devAgeYears 1 10 2, onOff Fld.devAltRun 0, onOff Fld.devYieldPool 1, onOff Fld.devYieldBobbin 0,
   onOff Fld.devYieldCipher 1, onOff Fld.devYieldChannel 0, onOff Fld.devYieldDiverge 1,
   fs Fld.devOmciTimeoutMs 100 10000 1000, fs Fld.devLoopEtherType 0 0xFFFF 0x88B5,
   fs Fld.devEnterprise 0 0xFFFFFFFF 0, fs Fld.devHeadend 0 (2 ^ 256 - 1) 0]

/-- One die (R159, R161, R189, R228, R229, R238, R304). -/
def die (num : Nat) : List FieldSpec :=
  [fs Fld.dieNearHigh 8 63 56, fs Fld.dieNearLow 8 63 48, fs Fld.dieUpLimit 16 48 32, fs Fld.dieAgeS 10 1000 300,
   fs Fld.dieTpid (-1) 0xFFFF (-1) 1 .atB1, fs Fld.dieNoticeDest 0 2 num, fs Fld.dieOmciDest 0 1 num,
   fs Fld.dieLaunchDest 0 1 num]

/-- One cluster (R326, R434). -/
def cluster : List FieldSpec := [fs Fld.cluLeadUs 10 240 100, fs Fld.cluTwoWire 0 2 0]

/-- Ranging settings of a tree (Table 4.1), its time base (R298) and its delivery period (R300). -/
def tree : List FieldSpec :=
  [fs Fld.treeLMin 0 600 0, fs Fld.treeLMax 0 600 200, fs Fld.treeNWideDown 140000 155000 146740,
   fs Fld.treeNWideUp 140000 155000 146745, fs Fld.treeNNarrowDown 140000 155000 146820,
   fs Fld.treeNNarrowUp 140000 155000 146760, fs Fld.treeDiscMs 10 10000 1000, fs Fld.treeDiscQuietMs 10 60000 10000,
   fs Fld.treeDiscRates 1 7 7, fs Fld.treeDriftPs 400 8000 1600 400, onOff Fld.treeSplit 0, onOff Fld.treeRogueAuto 1,
   fs Fld.treeLossMs 10 1000 100, fs Fld.treeBase 0 7 0, fs Fld.treeTodS 1 60 10]

/-- The default profiles of a channel (Table 2.3): guard, preamble, delimiter of the long and the short profile, FEC. -/
def profileFields (wide : Bool) (r : Nat) : List FieldSpec :=
  let d := if wide then [32, 208, 16, 32, 24, 16, 1] else [64, 176, 16, 64, 48, 16, 1]
  (List.range 6).map (fun i => fs (Fld.chProfile r i) 0 1024 (d.getD i 0))
    ++ [fs (Fld.chProfile r 6) (if wide then 1 else 0) 1 1]

/-- One channel: R52, R58, R74, R166, Tables 2.3, 3.1, 6.3 and 4.1's module delays, R131, R335, R336. -/
def channel (num : Nat) : List FieldSpec :=
  let wide := num % 2 == 0
  let cap : Int := if wide then 42000000 else 8670000
  [onOff Fld.chEnable 0, fs Fld.chPonId (-1) 0xFFFFFFFF (-1), fs Fld.chDegM 1 9 1, fs Fld.chDegN 2 10 6,
   fs Fld.chFailM 1 9 1, fs Fld.chFailN 1 9 4, fs Fld.chMaxFrame 1518 9600 9600 1 .lowered, onOff Fld.chCuePol 0,
   fs Fld.chCueLead 4000 56000 20000 400, fs Fld.chCueWidth 3200 25600 12800 400, fs Fld.chCueSkew (-8000) 8000 0 400,
   fs Fld.chDensity 32 160 96, fs Fld.chConfFloor 64 255 192, fs Fld.chFreshMs 10 10000 100,
   fs Fld.chDiscardMin 1 1440 60, fs Fld.chFenceTap 4 32 12, fs Fld.chFenceGain 4 40 16, fs Fld.chFenceCdr 16 96 64,
   fs Fld.chModTx 0 20000 0, fs Fld.chModRx 0 20000 0, fs Fld.chExpQuantum 2048 65536 16384,
   fs Fld.chMgmtQuantum 2048 65536 4096, fs Fld.chHierQuantum 2048 65536 16384,
   fs Fld.chExpCap 64 cap (if wide then 10240000 else 2048000) 1 .lowered, fs Fld.chMgmtCap 64 cap 256000 1 .lowered,
   fs Fld.chDefAssured 0 40960000 1024 64 .lowered, fs Fld.chDefMax 0 49766400 10240 64 .lowered,
   fs Fld.chDefElig 0 2 2, fs Fld.chDefPoll 1 800 16, fs Fld.chTxFfe 0 7 0, onOff Fld.chTxPol 0, onOff Fld.chRxPol 0]
  ++ (if wide then profileFields true 1 ++ profileFields true 2 ++ profileFields true 3 else profileFields false 0)

/-- A terminal's provisioning record (R47, R66, R71, R110, R236, R298, Table 4.2). -/
def terminal : List FieldSpec :=
  [req Fld.trmSerial 0 (2 ^ 96 - 1), req Fld.trmTree 0 255, fs Fld.trmAllow 0 2 0, fs Fld.trmRates 1 7 7,
   fs Fld.trmOnu (-1) 1020 (-1), onOff Fld.trmTod 0, onOff Fld.trmSleep 1, onOff Fld.trmOmciExt 1, onOff Fld.trmDisable 0]

/-- Allocation parameters (Table 5.1): rates in bytes per frame, the polling interval in frames. -/
def alloc : List FieldSpec :=
  [req Fld.alTerm 0 65535, fs Fld.alAllocId (-1) 16383 (-1), fs Fld.alFixed 0 160000 0 1 .lowered,
   fs Fld.alAssured 0 640000 0 1 .lowered, fs Fld.alMax (-1) 777600 (-1) 1 .lowered, fs Fld.alElig 0 2 2,
   fs Fld.alPrio 0 7 0, fs Fld.alWeight 1 255 1, fs Fld.alPoll 1 800 16, onOff Fld.alExpress 0,
   fs Fld.alHint 0 65535 0 1 .lowered]

/-- Scheduling parameters of queues and nodes (Table 6.4), rates in kb/s. -/
def shaper : List FieldSpec :=
  [fs Fld.shCir 0 50000000 0 8 .lowered, fs Fld.shCbs 2048 16777215 16384 1 .lowered,
   fs Fld.shPir 64 50000000 50000000 8 .lowered, fs Fld.shPbs 2048 16777215 65536 1 .lowered,
   fs Fld.shBand 0 7 0, fs Fld.shWeight 1 255 1]

/-- A subscriber node, named by its terminal and tenant (R163). -/
def subscriber : List FieldSpec := shaper ++ [req Fld.sbTerm 0 65535, req Fld.sbTenant 0 63]

def queue : List FieldSpec :=
  shaper ++ [req Fld.qSub 0 4194303, fs Fld.qGreen 4096 1073741824 1048576 1024, fs Fld.qYellow (-1) 1073741824 (-1)]

def flow : List FieldSpec :=
  [req Fld.flTerm 0 65535, req Fld.flTenant 0 63, fs Fld.flQueue (-1) 262143 (-1), fs Fld.flPort (-1) 65534 (-1),
   fs Fld.flPolicer (-1) 131071 (-1) 1 .atB1]

/-- Policer parameters (Table 6.6): mode 0 RFC 2698, 1 RFC 4115; rates in kb/s. -/
def policer : List FieldSpec :=
  [req Fld.poTenant 0 63, fs Fld.poMode 0 1 1, onOff Fld.poAware 0, fs Fld.poCir 0 50000000 0 8 .lowered,
   fs Fld.poCbs 0 16777215 16384 1 .lowered, fs Fld.poPir 0 50000000 0 8 .lowered,
   fs Fld.poPbs 0 16777215 16384 1 .lowered, fs Fld.poYellow 0 2 1, fs Fld.poRed 0 1 0, req Fld.poDie 0 1]

/-- The default action of an exception code: 0 drop, 1 punt, 2 continue (Tables 7.2 and 8.4). -/
def defaultAction (code : Nat) : Int := if code = 1 ∨ code = 0x0A then 1 else if code = 6 then 2 else 0

/-- The actions that an exception code allows. -/
def allowsContinue (code : Nat) : Bool := code == 3 || code == 6 || code == 0x0B

def policyFields (dir : Nat) : List FieldSpec :=
  (List.range 16).map fun c =>
    fs (Fld.tnPolicy dir c) 0 (if allowsContinue c then 2 else 1) (defaultAction c) 1 .atB1

/-- One tenant (R180, R191, R194, R216, R234, R241, R246, R265, R267, R269). -/
def tenant : List FieldSpec :=
  policyFields 0 ++ policyFields 1
  ++ (List.range 16).map (fun i => fs (Fld.tnColour i) 0 2 ((i % 2 : Nat) : Int) 1 .atB1)
  ++ [fs Fld.tnRefreshMin 1 1440 60, fs Fld.tnHardLifeH 0 144 0, fs Fld.tnBcastH 1 168 24]
  ++ (List.range 2).flatMap (fun d =>
      [fs (Fld.tnQuota d 0) 0 16384 256, fs (Fld.tnQuota d 1) 0 262144 4096, fs (Fld.tnQuota d 2) 0 131072 2048,
       fs (Fld.tnQuota d 3) 0 32768 512, fs (Fld.tnQuota d 4) 0 16384 256])
  ++ (List.range 16).map (fun i => fs (64 + i) 0 1 0 1 .atB1)
  ++ [fs Fld.tnTrust 0 2 0, fs Fld.tnCircuit 0 (2 ^ 512 - 1) 0, fs Fld.tnRemote 0 (2 ^ 512 - 1) 0,
      fs Fld.tnMcastLimit 1 1024 64]
  ++ (List.range 8).map (fun i => fs (Fld.tnSelector 0 0 + i) 0 15 0 1 .atB1)
  ++ [fs Fld.tnUplink 0 63 0]

/-- A VLAN record (R217) with the per-VLAN service settings (R247, R250). -/
def vlan : List FieldSpec :=
  [onOff Fld.vlLearn 1, onOff Fld.vlFlood 1, onOff Fld.vlLocal 0, fs Fld.vlGroup (-1) 0xFFFFFFFF (-1),
   onOff Fld.vlFastLeave 0, onOff Fld.vlLoop 0, fs Fld.vlLoopMs 100 60000 1000, fs Fld.vlHoldS 0 0xFFFFFFFF 60,
   fs Fld.vlQueryS 1 31744 125, onOff Fld.vlSnoop 0, req Fld.vlDie 0 1, req Fld.vlTenant 0 63, req Fld.vlVid 0 4095]

def fmtStatic : List FieldSpec :=
  [fs Fld.fsDies 1 3 3, req Fld.fsTenant 0 63, req Fld.fsVid 0 4095, req Fld.fsMac 0 (2 ^ 48 - 1),
   req Fld.fsDtype 0 4, req Fld.fsDvalue 0 1048575]

def prefix_ : List FieldSpec :=
  [req Fld.pxDie 0 1, req Fld.pxTenant 0 63, onOff Fld.pxV6 0, req Fld.pxAddr 0 (2 ^ 128 - 1), req Fld.pxLen 0 128,
   req Fld.pxHop 0 16383]

def nextHop : List FieldSpec :=
  [req Fld.nhTenant 0 63, req Fld.nhDtype 0 2, req Fld.nhDvalue 0 1048575, req Fld.nhMac 0 (2 ^ 48 - 1),
   req Fld.nhVid 0 4095, req Fld.nhDie 0 1, req Fld.nhIndex 0 16383]

/-- A classifier row (R196) and its action (Table 7.5). -/
def row : List FieldSpec :=
  [req Fld.rwDie 0 1 .atB1, req Fld.rwTenant 0 63 .atB1, req Fld.rwDir 0 1 .atB1, fs Fld.rwProfile 0 15 0 1 .atB1,
   fs Fld.rwValue 0 (2 ^ 640 - 1) 0 1 .atB1, fs Fld.rwMask 0 (2 ^ 640 - 1) 0 1 .atB1,
   fs Fld.rwPriority 0 65535 0 1 .atB1, fs Fld.rwDisposition 0 3 0 1 .atB1, fs Fld.rwPunt 32 63 32 1 .atB1,
   fs Fld.rwColour 0 4 0 1 .atB1, fs Fld.rwClass (-1) 7 (-1) 1 .atB1, fs Fld.rwPolicer (-1) 131071 (-1) 1 .atB1,
   fs Fld.rwCounter (-1) 262143 (-1) 1 .atB1, fs Fld.rwRecirc (-1) 15 (-1) 1 .atB1]

/-- A key profile (R194). Field codes are those of `keyFieldWidth`. Profile 0 holds the MAC addresses by default. -/
def keyProfile (num : Nat) : List FieldSpec :=
  fs Fld.kpWide 0 1 0 1 .atB1
    :: (List.range 40).map (fun i =>
        fs (Fld.kpField i) 0 999999999 (if num % 16 = 0 ∧ i < 2 then (i : Int) + 1 else 0) 1 .atB1)

/-- A punt class (R209). Destinations: 0 host port A, 1 host port B, 2 the Atelier (Table 7.6). -/
def puntClass (num : Nat) : List FieldSpec :=
  let c := num % 64
  [fs Fld.pcRate 0 1000000 10000 1 .atB1, fs Fld.pcBurst 1 65535 256 1 .atB1,
   fs Fld.pcDest 0 2 (if 16 ≤ c ∧ c ≤ 23 then 2 else ((num / 64 : Nat) : Int)) 1 .atB1]

/-- A sub-port (R341, R342), its PTP delays (R285) and its MACsec settings (Table 10.5). -/
def subport : List FieldSpec :=
  [⟨Fld.spRate, 100, 800, none, 100, .atB2⟩, fs Fld.spIface 0 2 0, onOff Fld.spEnable 0, onOff Fld.spMacsec 0,
   fs Fld.spSuite 0 3 0, onOff Fld.spReplay 0, fs Fld.spWindow 0 1073741824 0, fs Fld.spIngressPs 0 100000 0,
   fs Fld.spEgressPs 0 100000 0, fs Fld.spAsymPs (-1000000) 1000000 0, fs Fld.spMaxFrame 64 16383 9600,
   req Fld.spPort 0 7, req Fld.spLane 0 7]

def tenantMap : List FieldSpec := (List.range 4097).map fun v => fs v (-1) 63 (-1) 1 .atB1

def group : List FieldSpec := [req Fld.grDie 0 1, req Fld.grTenant 0 63]
def leg : List FieldSpec := [req Fld.lgGroup 0 0xFFFFFFFF, req Fld.lgKind 0 2, req Fld.lgValue 0 1048575]

/-- A maintenance end point (R248): interval 0 3.33 ms, 1 10 ms, 2 100 ms, 3 1 s, 4 10 s. Fields from 8 on name remote end points. -/
def mep : List FieldSpec :=
  [req Fld.mpDie 0 1, req Fld.mpPlace 0 2, req Fld.mpValue 0 0xFFFFFFFF, req Fld.mpLevel 0 7, req Fld.mpId 1 8191,
   fs Fld.mpInterval 0 4 3, fs Fld.mpMa 0 (2 ^ 64 - 1) 0, fs Fld.mpTenant 0 63 0]
  ++ (List.range 8).map (fun i => fs (Fld.mpRemote + i) (-1) 8191 (-1))

/-- A time base (Table 11.1): source 0 none, 1 PTP, 2 PPS_IN, 3 SEAM, 4 another time base. -/
def timeBase : List FieldSpec :=
  [fs Fld.tbSource 0 4 0, fs Fld.tbArg 0 63 0, fs Fld.tbFreq 0 1 0, fs Fld.tbJumpNs 10 1000000000 1000,
   fs Fld.tbBw 1 100 10, fs Fld.tbSlew 1 1000 10, fs Fld.tbLockNs 10 1000 100, fs Fld.tbHoldMin 1 1440 240,
   fs Fld.tbDomain 24 43 24, fs Fld.tbClass 6 255 6, onOff Fld.tbSquelch 0, fs Fld.tbCopyMs (-1000) 1000 0]

/-- A PPS output (Table 11.4): offset in steps of 1.25 ns, width in steps of 100 ns. -/
def ppsOut : List FieldSpec :=
  [fs Fld.ppBase 0 7 0, fs Fld.ppOffset (-400000000) 400000000 0, fs Fld.ppWidth 1 5000000 1000, onOff Fld.ppPol 0]

def rclk : List FieldSpec := [fs Fld.rcLane (-1) 63 (-1), fs Fld.rcFreq 0 2 0]
/-- PTP state of a port (Table 11.3): 0 DISABLED, 1 MASTER, 2 SLAVE, 3 PASSIVE; the instance is a time base. -/
def ptpPort : List FieldSpec := [fs Fld.ptState 0 3 0, fs Fld.ptBase (-1) 7 (-1)]

/-- Flow-control pins (Table 6.7), watermarks in steps of 4 KiB. -/
def fcOut : List FieldSpec :=
  [fs Fld.foSource 0 7 0, fs Fld.foArg 0 0xFFFFFFFF 0, fs Fld.foHigh 1 5371093 1, fs Fld.foLow 0 5371092 0,
   fs Fld.foHoldUs 0 100 1, onOff Fld.foPol 0]
def fcIn : List FieldSpec := [fs Fld.fiStuckMs 1 1000 10, onOff Fld.fiPol 0, fs Fld.fiTargets 0 (2 ^ 64 - 1) 0]

/-- An uplink or Seam lane (R103, R335, R348, R349, Table 13.6 in steps of 0.02). -/
def lane : List FieldSpec :=
  [fs Fld.laLosMv 40 200 80, fs Fld.laDegM 1 9 1, fs Fld.laDegN 4 8 5, onOff Fld.laTxPol 0, onOff Fld.laRxPol 0,
   fs Fld.laC3 0 3 0, fs Fld.laC2 (-6) 0 0, fs Fld.laC1 (-18) 0 (-4), fs Fld.laC0p (-10) 0 0,
   fs Fld.laFenceTap 4 32 12, fs Fld.laFenceGain 4 40 16, fs Fld.laFenceCdr 16 96 64]

/-- A MACsec association (R279); −1 stands for the default threshold of its suite. -/
def sa : List FieldSpec := [onOff Fld.saEnabled 0, fs Fld.saThreshold (-1) (2 ^ 64 - 1) (-1)]

/-- The fields of an object kind. -/
def fields (kind num : Nat) : List FieldSpec :=
  match kind with
  | 1 => device
  | 2 => die num
  | 3 => cluster
  | 4 => tree
  | 5 => channel num
  | 6 => terminal
  | 7 => alloc
  | 8 => subscriber
  | 9 => queue
  | 10 => flow
  | 11 => shaper
  | 12 => policer
  | 13 => tenant
  | 14 => vlan
  | 15 => fmtStatic
  | 16 => prefix_
  | 17 => nextHop
  | 18 => row
  | 19 => keyProfile num
  | 20 => puntClass num
  | 21 => subport
  | 22 => tenantMap
  | 23 => group
  | 24 => leg
  | 25 => mep
  | 26 => timeBase
  | 27 => ppsOut
  | 28 => rclk
  | 29 => ptpPort
  | 30 => fcOut
  | 31 => fcIn
  | 32 => lane
  | 33 => sa
  | _ => []

/-- Kinds whose objects always exist and can only be modified: how many there are. -/
def standing (kind : Nat) : Option Nat :=
  match kind with
  | 1 => some 1
  | 2 => some 2
  | 3 => some 16
  | 4 => some 256
  | 5 => some 512
  | 11 => some 32768
  | 13 => some 64
  | 19 => some 32
  | 20 => some 128
  | 22 => some 64
  | 26 => some 8
  | 27 => some 4
  | 28 => some 2
  | 29 => some 64
  | 30 => some 8
  | 31 => some 8
  | 32 => some 68
  | 33 => some 2304
  | _ => none

/-- The number of an object that its own fields name: subscriber node 64 × terminal + tenant, VLAN record
2¹⁸ × die + 4,096 × tenant + VID, next hop 16,384 × die + index, sub-port 8 × port + first lane. -/
def numberOf (kind : Nat) (get : Nat → Nat) : Option Nat :=
  match kind with
  | 8 => some (64 * get Fld.sbTerm + get Fld.sbTenant)
  | 14 => some (2 ^ 18 * get Fld.vlDie + 4096 * get Fld.vlTenant + get Fld.vlVid)
  | 17 => some (16384 * get Fld.nhDie + get Fld.nhIndex)
  | 21 => some (8 * get Fld.spPort + get Fld.spLane)
  | _ => none

/-- The fields that name an object, which no modify changes. -/
def keyFields (kind : Nat) : List Nat :=
  match kind with
  | 8 => [Fld.sbTerm, Fld.sbTenant]
  | 14 => [Fld.vlDie, Fld.vlTenant, Fld.vlVid]
  | 17 => [Fld.nhDie, Fld.nhIndex]
  | 21 => [Fld.spPort, Fld.spLane]
  | 12 => [Fld.poDie]
  | 18 => [Fld.rwDie]
  | _ => []

def known (kind : Nat) : Bool := decide (1 ≤ kind ∧ kind ≤ 33)

/-- The specification of one field. -/
def field? (kind num fld : Nat) : Option FieldSpec := (fields kind num).find? fun f => f.num == fld

/-- The default of a field. -/
def dflt (kind num fld : Nat) : Int := ((field? kind num fld).bind (·.dflt)).getD (-1)

/-- A value is in the range and on the step of its field. -/
def inRange (f : FieldSpec) (v : Int) : Bool :=
  decide (f.lo ≤ v ∧ v ≤ f.hi) && (f.step == 1 || v % (f.step : Int) == 0)

end Schema

/-! ### Reading the configuration -/

/-- The key of an object. -/
def objKey (kind num : Nat) : Nat := kind * 2 ^ 40 + num

namespace Cfg

def obj? (c : Cfg) (kind num : Nat) : Option Obj := c.find? (objKey kind num)

/-- The object exists: it stands of itself, or a stitch has created it. -/
def has (c : Cfg) (kind num : Nat) : Bool :=
  match Schema.standing kind with
  | some n => decide (num < n)
  | none => (c.obj? kind num).isSome

/-- The object exists and is not being revoked. -/
def live (c : Cfg) (kind num : Nat) : Bool :=
  c.has kind num && !((c.obj? kind num).map (·.closing)).getD false

/-- A field that a record has set. -/
def set? (c : Cfg) (kind num fld : Nat) : Option Int :=
  (c.obj? kind num).bind fun o => (o.fields.find? fun p => p.1 == fld).map (·.2)

/-- The value of a field: as set, or its default. -/
def val (c : Cfg) (kind num fld : Nat) : Int := (c.set? kind num fld).getD (Schema.dflt kind num fld)

def valN (c : Cfg) (kind num fld : Nat) : Nat := (c.val kind num fld).toNat
def on (c : Cfg) (kind num fld : Nat) : Bool := c.val kind num fld == 1

/-- All objects of a kind. -/
def ofKind (c : Cfg) (kind : Nat) : List Obj := (c.map (·.2)).filter fun o => o.kind == kind

/-- All objects of a kind that are not being revoked. -/
def liveOf (c : Cfg) (kind : Nat) : List Obj := (c.ofKind kind).filter fun o => !o.closing

end Cfg

/-- Set one field of a list of fields. -/
def setField (l : List (Nat × Int)) (f : Nat) (v : Int) : List (Nat × Int) :=
  if l.any (·.1 == f) then l.map fun p => if p.1 == f then (f, v) else p else l ++ [(f, v)]

/-- Set the fields of a record in an object. -/
def setFields (l : List (Nat × Int)) (fs : List (Nat × Int)) : List (Nat × Int) :=
  fs.foldl (fun a p => setField a p.1 p.2) l

end Sys2Proof.Machine
end

