-- ==== Sys2Proof/Machine/Operands.lean ====
section
/-! DEFINITION. The bit and byte layouts of the spec's records and registers, and the numberings that tie objects together. -/

namespace Sys2Proof.Machine
open Sys2Proof

/-! ### Numbering (Table 0.2, Table 1.2) -/

def portNum : PortId → Nat
  | .a => 0
  | .b => 1
def otherPort : PortId → PortId
  | .a => .b
  | .b => .a
def dieNum : DieId → Nat
  | .east => 0
  | .west => 1
def dieOf (n : Nat) : DieId := if n = 0 then .east else .west
def dirNum : Dir → Nat
  | .down => 0
  | .up => 1
/-- The host port of a die: A on East, B on West (Table 1.1). -/
def dieHostPort : DieId → PortId
  | .east => .a
  | .west => .b
def treeOf (ch : Nat) : Nat := ch / 2
/-- Even channels are wide, odd ones narrow (Table 0.2). -/
def isWide (ch : Nat) : Bool := ch % 2 == 0
def wideOf (tree : Nat) : Nat := 2 * tree
def narrowOf (tree : Nat) : Nat := 2 * tree + 1
def clusterOfTree (tree : Nat) : Nat := tree / 16
def clusterOf (ch : Nat) : Nat := clusterOfTree (treeOf ch)
def quadrantOfTree (tree : Nat) : Nat := tree / 64
def quadrantOf (ch : Nat) : Nat := quadrantOfTree (treeOf ch)
def dieOfTree (tree : Nat) : DieId := if tree < 128 then .east else .west
def dieOfChannel (ch : Nat) : DieId := dieOfTree (treeOf ch)
/-- Uplink ports 0–3 are on East, 4–7 on West; a port index is 8 × port + first lane (R341). -/
def dieOfPort (index : Nat) : DieId := if index < 32 then .east else .west
/-- The die of a cipher lane (R252). -/
def dieOfLane (lane : Nat) : DieId := if lane < 96 then .east else .west
def dieOfBobbin (b : Nat) : DieId := dieOfChannel b

def rateNum : Rate → Nat
  | .r9 => 0
  | .r12 => 1
  | .r24 => 2
  | .r49 => 3
def rateOf : Nat → Rate
  | 0 => .r9
  | 1 => .r12
  | 2 => .r24
  | _ => .r49
/-- Line rates in kb/s (Table 2.1). -/
def rateKbps : Rate → Nat
  | .r9 => 9953280
  | .r12 => 12441600
  | .r24 => 24883200
  | .r49 => 49766400
/-- The bit of DISCOVERY_RATES and of a terminal's allowed rates. -/
def rateBit : Rate → Nat
  | .r9 => 0
  | .r12 => 0
  | .r24 => 1
  | .r49 => 2
def wideRates : List Rate := [.r12, .r24, .r49]

def termStNum : TermState → Nat
  | .absent => 0
  | .assigned => 1
  | .ranged => 2
  | .operational => 3
  | .searching => 4
  | .disabled => 5
def roleNum : Role → Nat
  | .solo => 0
  | .active => 1
  | .syncing => 2
  | .armed => 3
  | .disarmed => 4
def baseStNum : BaseState → Nat
  | .unset => 0
  | .acquiring => 1
  | .locked => 2
  | .holdover => 3
  | .jumpHeld => 4
  | .freeRun => 5
def chStNum : ChState → Nat
  | .dark => 0
  | .starting => 1
  | .active => 2
  | .quiet => 3
  | .shadow => 4
  | .draining => 5
  | .faulted => 6
def fitStNum : FitState → Nat
  | .empty => 0
  | .fresh => 1
  | .aged => 2
  | .stale => 3
def keyStNum : KeyState → Nat
  | .free => 0
  | .loaded => 1
  | .current => 2
  | .retired => 3
def ladderNum : Ladder → Nat
  | .run => 0
  | .idle => 1
  | .doze => 2
  | .nap => 3
  | .sleep => 4
  | .dormant => 5

/-! ### Stitch numbers (R27) -/

/-- The successor of a stitch number: n + 1, except that the successor of 0xFFFF_FFFF is 0x0000_0001. -/
def succStitch (n : StitchNo) : StitchNo := if n = 0xFFFFFFFF then 1 else n + 1

/-! ### Event records (Table 15.2, R382) -/

def argWidth : Arg → Nat
  | .u8 _ => 1
  | .u16 _ => 2
  | .u32 _ => 4
  | .u64 _ => 8
def argVal : Arg → Nat
  | .u8 v => v
  | .u16 v => v
  | .u32 v => v
  | .u64 v => v

/-- Zero bytes up to the alignment of a width. -/
def padTo (at_ w : Nat) : List Byte := List.replicate ((w - at_ % w) % w) 0

/-- ARGS: each value at its natural width and alignment, after the value before it (R382). -/
def argBytes : Nat → List Arg → List Byte
  | _, [] => []
  | at_, a :: t =>
    let w := argWidth a
    let p := padTo at_ w
    p ++ leBytes w (argVal a) ++ argBytes (at_ + p.length + w) t

/-- Pad or cut bytes to a length. -/
def fitTo (n : Nat) (l : List Byte) : List Byte := (l ++ List.replicate n 0).take n

/-- The 64 bytes of an event record under a ring's SEQUENCE. -/
def evBytes (seq : Nat) (r : EvRec) : List Byte :=
  leBytes 1 r.num ++ leBytes 1 (bit r.clear + 2 * dieNum r.die + 4 * bit r.token)
    ++ leBytes 2 (min r.suppressed 0xFFFF) ++ leBytes 4 seq ++ leBytes 8 r.time ++ leBytes 4 r.stitch.toNat
    ++ leBytes 4 0 ++ fitTo 40 (argBytes 0 r.args)

/-! ### Replies (Table 14.5) -/

def replyBytes (r : Reply) (result : List Byte) : List Byte :=
  leBytes 2 r.opcode ++ leBytes 2 r.status ++ leBytes 4 r.seq.toNat ++ leBytes 4 r.session.toNat
    ++ leBytes 4 r.nextStitch.toNat ++ leBytes 4 (result.length - 40) ++ leBytes 4 r.detail ++ fitTo 40 result

/-! ### Thimbles and locks (Tables 14.3, 8.6) -/

/-- A Thimble word: the claim result of Table 14.3. -/
def thimbleWord (granted already : Bool) (owner : Option (PortId × Nat)) (waits : Nat) : Word :=
  match owner with
  | none => BitVec.ofNat 32 0
  | some (p, a) =>
    BitVec.ofNat 32 (bit granted + 2 * bit already + 4 * (a % 64) + 2 ^ 8 * portNum p + 2 ^ 9
      + 2 ^ 16 * min waits 0xFFFF)

/-- FMT_LOCK as it reads. -/
def fmtLockWord (l : FmtLock) : Word :=
  match l.owner with
  | none => BitVec.ofNat 32 (2 ^ 16 * l.timeout.toNat)
  | some (p, a) => BitVec.ofNat 32 (1 + 4 * (a % 64) + 2 ^ 8 * portNum p + 2 ^ 16 * l.timeout.toNat)

/-! ### Punted frames (R187, Table 7.7) -/

/-- The idle item of an empty punt descriptor FIFO. -/
def idleItem : Word := 0xFFFF0000

def puntItem (buffer len : Nat) : Word := BitVec.ofNat 32 (2 ^ 16 * (buffer % 65536) + len % 65536)

/-- The 32-byte punt header. -/
def puntHeader (code cls : Nat) (second multi : Bool) (tenant : Nat) (dir : Dir) (profile stopHdr : Nat)
    (stitch : StitchNo) (ingress : Nat) (flow : Option Nat) (row : Option Nat) (time : Nat) (ch : Option Nat)
    (len : Nat) : List Byte :=
  leBytes 1 code ++ leBytes 1 (cls % 64 + 64 * bit second + 128 * bit multi)
    ++ leBytes 1 (tenant % 64 + 64 * dirNum dir) ++ leBytes 1 (profile % 16 + 16 * (stopHdr % 16))
    ++ leBytes 4 stitch.toNat ++ leBytes 2 ingress
    ++ leBytes 3 (match flow with | some f => f % 2 ^ 20 + 2 ^ 23 | none => 0) ++ leBytes 1 0
    ++ leBytes 2 (match row with | some r => r % 2 ^ 14 + 2 ^ 15 | none => 0) ++ leBytes 8 time
    ++ leBytes 2 (match ch with | some c => c % 1024 + 2 ^ 15 | none => 0) ++ leBytes 2 len ++ leBytes 4 0

/-! ### Notice and launch records (Tables 8.5 and 11.6) -/

/-- A notice source: the flow handle, or the port index with bit 20 set. -/
def srcFlow (f : Nat) : Nat := f % 2 ^ 20
def srcPort (p : Nat) : Nat := p % 2 ^ 20 + 2 ^ 20

def noticeBytes (n : Notice) : List Byte :=
  leBytes 1 n.kind ++ leBytes 1 (n.tenant % 64 + 64 * dieNum n.die + 128 * dirNum n.dir) ++ leBytes 2 (n.vid % 4096)
    ++ beBytes 6 n.mac ++ leBytes 2 (n.bank % 16) ++ leBytes 4 n.srcA ++ leBytes 4 n.srcB ++ leBytes 8 n.time
    ++ leBytes 4 n.seq.toNat

/-- A launch record; `time` is in units of 2⁻¹⁶ ns, 0 for a dropped frame. -/
def launchBytes (r : LaunchRec) : List Byte :=
  let ns := r.time / 65536
  leBytes 4 r.tag ++ leBytes 1 r.status ++ leBytes 1 (r.base % 8) ++ leBytes 2 (r.dest % 1024 + 2 ^ 15 * bit r.isPort)
    ++ leBytes 6 (ns / 10 ^ 9) ++ leBytes 4 (ns % 10 ^ 9) ++ leBytes 2 (r.time % 65536) ++ leBytes 4 0

/-! ### Launch descriptors (Table 11.5) -/

def lnMode (d : BitVec 144) : Nat := bitsOf d.toNat 1 0
def lnBase (d : BitVec 144) : Nat := bitsOf d.toNat 4 2
def lnReport (d : BitVec 144) : Bool := bitsOf d.toNat 5 5 == 1
def lnTag (d : BitVec 144) : Nat := bitsOf d.toNat 63 32
def lnSeconds (d : BitVec 144) : Nat := bitsOf d.toNat 111 64
def lnNs (d : BitVec 144) : Nat := bitsOf d.toNat 143 112
/-- Mode 0b10: bits [50:48] of the count are SF_HIGH, bits [47:0] are SECONDS. -/
def lnSf (d : BitVec 144) : SF := BitVec.ofNat 51 (bitsOf d.toNat 8 6 * 2 ^ 48 + lnSeconds d)
def lnWord (d : BitVec 144) : Nat := bitsOf d.toNat 129 112

/-! ### Fitting records (Table 3.3) -/

def intByte (v : Int) : List Byte := leBytes 1 (v % 256).toNat

def fitFlags (f : Fitting) : Nat :=
  fitStNum f.st + 4 * rateNum f.rate + 16 * bit f.snapValid + 32 * bit f.fenceHit

/-- Bytes 0–59 of a fitting record. -/
def fitBody (f : Fitting) : List Byte :=
  ((List.range 12).flatMap fun i => intByte (f.work.getD i 0))
    ++ ((List.range 12).flatMap fun i => intByte (f.snap.getD i 0))
    ++ leBytes 1 f.conf ++ leBytes 1 (fitFlags f) ++ leBytes 2 f.adaptBursts ++ leBytes 4 f.lastAdapt.toNat
    ++ leBytes 4 f.snapTime.toNat ++ leBytes 2 f.fenceCount ++ leBytes 2 f.preloadFail ++ leBytes 2 f.term
    ++ leBytes 2 (f.onu % 1024) ++ leBytes 1 f.marginV ++ leBytes 1 f.marginH ++ List.replicate 14 0

/-- The 64 bytes of a fitting record with its CRC-32. -/
def fitBytes (f : Fitting) : List Byte := fitBody f ++ leBytes 4 (crc32 (fitBody f)).toNat

/-! ### Flow/MAC entries (Table 8.2) -/

/-- An entry as its 128 bits. -/
def fmtEntryBits (e : FmtEntry) : Nat :=
  e.mac % 2 ^ 48 + 2 ^ 48 * (e.vid % 4096) + 2 ^ 60 * (e.tenant % 64) + 2 ^ 66 * bit e.isStatic + 2 ^ 67 * bit e.hit
    + 2 ^ 68 * (e.dtype % 16) + 2 ^ 72 * (e.dvalue % 2 ^ 20) + 2 ^ 127

def fmtEntryBytes (e : FmtEntry) : List Byte := leBytes 16 (fmtEntryBits e)

/-! ### Wrapped keys (Table 10.4) -/

def wkVersion (r : List Byte) : Nat := leNat (sliceBytes r 0 1)
def wkKind (r : List Byte) : Nat := leNat (sliceBytes r 1 1)
def wkLength (r : List Byte) : Nat := leNat (sliceBytes r 2 1)
def wkBinding (r : List Byte) : Nat := leNat (sliceBytes r 4 4)
def wkSerial (r : List Byte) : Nat := leNat (sliceBytes r 8 8)
def wkSequence (r : List Byte) : Nat := leNat (sliceBytes r 16 8)
def wkAad (r : List Byte) : List Byte := sliceBytes r 0 24
def wkNonce (r : List Byte) : List Byte := sliceBytes r 24 12
def wkWrapped (r : List Byte) : List Byte := sliceBytes r 36 32
def wkTag (r : List Byte) : List Byte := sliceBytes r 68 16
/-- The association that a SAK record binds: 36 × port index + 4 × channel + number (Table 15.3), channel 0 transmit and
1–8 receive. -/
def wkAssoc (r : List Byte) : Nat :=
  let b := wkBinding r
  let port := bitsOf b 5 0
  let chan := if bitsOf b 6 6 = 0 then 0 else 1 + bitsOf b 9 7
  36 * port + 4 * chan + bitsOf b 11 10

/-! ### Maps (R147) -/

/-- The byte string that a map digest covers. -/
def mapBytes (sf : SF) (ch : Nat) (grants : List Grant) : List Byte :=
  beBytes 8 sf.toNat ++ beBytes 2 ch ++ beBytes 2 grants.length
    ++ grants.flatMap fun g =>
        Config.allocStructBytes g.allocId (2 * bit g.dbru + bit g.ploamu) g.start g.bytes g.profile

/-- Insert by a key, rising. -/
def insertBy {α : Type} (k : α → Nat) (x : α) : List α → List α
  | [] => [x]
  | y :: t => if k x < k y then x :: y :: t else y :: insertBy k x t

def sortBy {α : Type} (k : α → Nat) (l : List α) : List α := l.foldl (fun a x => insertBy k x a) []

/-- The structures of a map in transmission order: those of its windows and bursts by start. -/
def mapGrants (m : BwMap) : List Grant := sortBy (·.start) (m.winGrants ++ m.bursts.flatMap (·.grants))

def mapDigest (ch : Nat) (m : BwMap) : BitVec 64 := crc64 (mapBytes m.sf ch (mapGrants m))

/-! ### Training frames (R345, Table 13.7) -/

def tcPreset (c : BitVec 16) : Nat := bitsOf c.toNat 1 0
def tcTap (c : BitVec 16) : Nat := bitsOf c.toNat 4 2
def tcAction (c : BitVec 16) : Nat := bitsOf c.toNat 6 5
def tcReady (c : BitVec 16) : Bool := bitsOf c.toNat 7 7 == 1
def trainStatus (tap result : Nat) (preset : Bool) : BitVec 16 :=
  BitVec.ofNat 16 (tap + 8 * result + 32 * bit preset)
/-- The CRC-16 of a training frame, over the control and status fields, most significant bit first. -/
def trainCrc (control status : BitVec 16) : BitVec 16 := crc16 (beBytes 2 control.toNat ++ beBytes 2 status.toNat)

/-! ### Locations (R373) -/

def locBobbin (b : Nat) : Nat := 1 * 2 ^ 28 + b
def locPan (die : DieId) (deep : Bool) : Nat := 2 * 2 ^ 28 + 2 * dieNum die + bit deep
def locLane (l : Nat) : Nat := 3 * 2 ^ 28 + l
def locFmtBank (die : DieId) (bank : Nat) : Nat := 4 * 2 ^ 28 + 2 ^ 27 * dieNum die + bank
def locRowGroup (die : DieId) (g : Nat) : Nat := 4 * 2 ^ 28 + 2 ^ 27 * dieNum die + 2 ^ 24 + g
def locSlot (die : DieId) (slot : Nat) : Nat := 5 * 2 ^ 28 + 2 ^ 27 * dieNum die + slot
def locType (l : Nat) : Nat := bitsOf l 31 28
def locPlace (l : Nat) : Nat := bitsOf l 27 0

end Sys2Proof.Machine
end

