-- ==== Sys2Proof/Machine/Flags.lean ====
section
/-! DEFINITION. The event flags, the interrupt pins and the block counters: what raising an event and counting do to the state. -/

namespace Sys2Proof.Machine
open Sys2Proof

/-! ### The present time of a time base -/

/-- Elapsed real time in units of 2⁻¹⁶ ns. -/
def elapsed16 (b : TimeBase) (now : Time) : Int := ((now - b.refNow) * 65536 / 1000 : Nat)

/-- The value of a time base at an instant, in units of 2⁻¹⁶ ns (R282). -/
def baseVal (b : TimeBase) (now : Time) : Int :=
  b.refVal + elapsed16 b now + b.rate * elapsed16 b now / 2 ^ 48

/-- A time base of the device. -/
def baseOf (s : State) (n : Nat) : TimeBase := s.time.bases.getD n {}

/-- Time base `n` in nanoseconds, as an unsigned number of 64 bits. -/
def baseNs (s : State) (n : Nat) : Nat := (baseVal (baseOf s n) s.now / 65536).toNat % 2 ^ 64

/-! ### Raising events -/

/-- The group of an event source: source E(16g + i) is member i of group g (R379). -/
def evGroup (num : Nat) : Nat := num / 16 % 16

/-- The pin status bit of a group. -/
def groupBit (num : Nat) : BitVec 16 := BitVec.ofNat 16 (2 ^ evGroup num)

/-- The record of an event raised now (Table 15.2). -/
def evRec (num : Nat) (clear : Bool) (die : DieId) (suppressed : Nat) (args : List Arg) (s : State) : EvRec :=
  { num := num, clear := clear, die := die, token := s.twin.held, suppressed := suppressed, time := baseNs s 0,
    stitch := s.stitch.current, args := args }

/-- Put an event record among those held for delivery and latch its group in the status of each pin whose mask has it
(R384, R389). -/
def pushEv (r : EvRec) (s : State) : State :=
  { s with ev := { s.ev with
      held := s.ev.held ++ [r]
      status0 := s.ev.status0 ||| (s.ev.mask0 &&& groupBit r.num)
      status1 := s.ev.status1 ||| (s.ev.mask1 &&& groupBit r.num) } }

/-- Raise an event. -/
def raise (num : Nat) (die : DieId) (args : List Arg) (s : State) : State :=
  pushEv (evRec num false die 0 args s) s

/-- Raise the clear of an event (R379). -/
def raiseClear (num : Nat) (die : DieId) (args : List Arg) (s : State) : State :=
  pushEv (evRec num true die 0 args s) s

/-- The entry of a source and subject among the rate limits. -/
def rateEnt? (s : State) (num subj : Nat) : Option RateEnt :=
  s.ev.rates.find? fun e => e.src == num && e.subj == subj

/-- Replace the entry of a source and subject. -/
def putRate (e : RateEnt) (s : State) : State :=
  { s with ev := { s.ev with rates := e :: s.ev.rates.filter fun x => !(x.src == e.src && x.subj == e.subj) } }

/-- Raise an event at most once per `period` for its subject; the next record carries what was withheld (R387). -/
def raiseLimited (num : Nat) (die : DieId) (subj : Nat) (period : Time) (args : List Arg) (s : State) : State :=
  match rateEnt? s num subj with
  | some e =>
    if s.now < e.last + period then putRate { e with withheld := e.withheld + 1 } s
    else putRate ⟨num, subj, s.now, 0⟩ (pushEv (evRec num false die e.withheld args s) s)
  | none => putRate ⟨num, subj, s.now, 0⟩ (raise num die args s)

/-- A pin is active, driven low, while its status AND its mask is not 0 (R389); a failed start-up drives INT_N0 too (R416). -/
def pinActive (s : State) (pin : Nat) : Bool :=
  if pin = 0 then s.ev.forceInt0 || s.ev.status0 &&& s.ev.mask0 != 0 else s.ev.status1 &&& s.ev.mask1 != 0

/-! ### Counters -/

/-- A block counter: its group (Table 15.3), its object k and its index j. The spec leaves the order of the j of a group to
the SCHEMA query; the indices are the model's (log entry 7). -/
def ctrKey (group obj j : Nat) : Nat := group * 2 ^ 40 + obj * 2 ^ 8 + j

/-- Add to a counter of 48 bits; a wrap sets the sticky bit (R390). -/
def Counter.add (c : Counter) (n : Nat) : Counter :=
  { value := BitVec.ofNat 48 (c.value.toNat + n), wrap := c.wrap || decide (2 ^ 48 ≤ c.value.toNat + n) }

/-- The die that an object of a counter group belongs to. -/
def ctrDie (group obj : Nat) : DieId :=
  match group with
  | 0 => dieOf obj
  | 1 => dieOf (obj / 64)
  | 2 => dieOf (obj / 64)
  | 3 => dieOf (obj / 64)
  | 4 => dieOf (obj / 64)
  | 6 => dieOfBobbin obj
  | 7 => dieOfChannel obj
  | 8 => dieOfPort obj
  | 9 => dieOfLane obj
  | _ => .east

/-- Count `n` on a block counter; COUNTER_WRAP at most once per second per group (R390). -/
def bump (group obj j n : Nat) (s : State) : State :=
  let c := s.ctr.counters.getD (ctrKey group obj j) {}
  let s' := { s with ctr := { s.ctr with counters := s.ctr.counters.set (ctrKey group obj j) (c.add n) } }
  if 2 ^ 48 ≤ c.value.toNat + n then
    raiseLimited Ev.counterWrap (ctrDie group obj) group (Time.sec 1) [.u8 group] s'
  else s'

/-- The value of a block counter. -/
def ctrVal (s : State) (group obj j : Nat) : Nat := (s.ctr.counters.getD (ctrKey group obj j) {}).value.toNat

/-- A flow statistic: kind 0 per-flow counts, 1 policer colours, 2 counter sets; object; index. -/
def statKey (kind obj j : Nat) : Nat := kind * 2 ^ 40 + obj * 2 ^ 8 + j

def FlowStat.add (c : FlowStat) (n : Nat) : FlowStat :=
  { value := BitVec.ofNat 64 (c.value.toNat + n), wrap := c.wrap || decide (2 ^ 64 ≤ c.value.toNat + n) }

/-- Count `n` on a flow statistic, held in the deep pan of its die (R390). -/
def bumpStat (kind obj j n : Nat) (s : State) : State :=
  let c := s.ctr.stats.getD (statKey kind obj j) {}
  { s with ctr := { s.ctr with stats := s.ctr.stats.set (statKey kind obj j) (c.add n) } }

/-- Count one packet and its bytes on a pair of statistics. -/
def bumpPair (kind obj j bytes : Nat) (s : State) : State := bumpStat kind obj (j + 1) bytes (bumpStat kind obj j 1 s)

/-! The counters j of each group (log entry 7). -/
namespace Cn
-- group 0, object die
def ignoredWrites : Nat := 0
def strayWrites : Nat := 1
def stitchDiscards : Nat := 2
def movesLoad (k : Nat) : Nat := 8 + k
def movesFault (k : Nat) : Nat := 48 + k
/-- By pan: near, deep. -/
def panFull (deep : Bool) : Nat := if deep then 3 else 4
def fcOutAsserts (p : Nat) : Nat := 88 + p
def fcInAsserts (p : Nat) : Nat := 96 + p
def launchRingFull : Nat := 104
def launchNoSession : Nat := 105
def cipherFaults : Nat := 106
def storeErrors : Nat := 107
def bridge : Nat := 6
def imageWrites : Nat := 7
-- group 1, object die × 64 + tenant
/-- Downstream; upstream see `exceptionUp`. -/
def exception (code : Nat) : Nat := code
def rowHits : Nat := 16
def policyDrops : Nat := 17
def recircDrops : Nat := 18
def bankParity : Nat := 20
def localSwitchDrops : Nat := 22
def unknownDest : Nat := 23
def discardDrops : Nat := 24
def multiMatch : Nat := 25
def exceptionUp (code : Nat) : Nat := 32 + code
-- group 2, object die × 64 + class
def puntSent : Nat := 0
def puntPoliced : Nat := 1
def puntNoBuffer : Nat := 2
def puntNoSession : Nat := 3
def svcFull : Nat := 4
-- group 3, object die × 64 + tenant
def learnSuppressed : Nat := 1
def holdFull : Nat := 2
def noticeFull : Nat := 3
def noSession : Nat := 4
def dmaReject : Nat := 7
def tableParity : Nat := 8
def contention : Nat := 9
-- group 4, object die × 64 + tenant
def svcHandled : Nat := 0
def omciNoSession : Nat := 2
def relayBad : Nat := 3
def omciRingFull : Nat := 4
def mcastFull : Nat := 5
def mcastLimit : Nat := 6
def loopDrops : Nat := 9
def relayOversize : Nat := 10
def relayDrops : Nat := 11
-- group 5, object time base, 8 for the twin, or 16 + input for the PPS inputs
def ptpDropped : Nat := 0
def jumps : Nat := 1
def domainDropped : Nat := 2
def outliers : Nat := 3
def incomplete : Nat := 4
def edgesIgnored : Nat := 5
def seamGap : Nat := 0
def seamBad : Nat := 1
def mapMismatches : Nat := 2
-- group 6, object bobbin
def stolenBatches : Nat := 1
def hintsLate : Nat := 2
def hintsDropped : Nat := 3
def reportsDropped : Nat := 4
def steals : Nat := 5
-- group 7, object channel
def sentFrames : Nat := 0
def sentBytes : Nat := 3
def fecOk : Nat := 4
def fecCorrected : Nat := 5
def fecBits : Nat := 6
def fecBad : Nat := 7
def burstsAccepted : Nat := 8
def burstsAbsent : Nat := 9
def burstsNoDelim : Nat := 10
def wrongOnu : Nat := 11
def ploamBacklog : Nat := 12
def ploamFlushed : Nat := 13
def ploamUnknown : Nat := 14
def duplicateDiscovery : Nat := 16
def postponedDiscovery : Nat := 17
def discoveryCollisions : Nat := 18
def unknownXgem : Nat := 20
def fragmentLoss : Nat := 21
def preloadFails : Nat := 23
def capacityRefusals : Nat := 26
def shadowDiscards : Nat := 27
def deferrals : Nat := 28
def mapLate : Nat := 29
def withheld : Nat := 30
def oversize : Nat := 32
def launchMiss : Nat := 33
def gapEnergy : Nat := 34
-- group 8, object port index, or 64 + lane for a Seam lane
def txFrames : Nat := 0
def txBytes : Nat := 1
def rxFrames : Nat := 2
def rxBytes : Nat := 3
def upDrops : Nat := 4
def fenceHits : Nat := 6
def laneErrors : Nat := 7
def untagged : Nat := 8
def portLaunchMiss : Nat := 9
def ingressDrops : Nat := 10
def macControl : Nat := 11
def laneCodewords : Nat := 12
def laneUncorrectable : Nat := 13
def classDrops (c : Nat) : Nat := 16 + c
-- group 9, object lane, or 192 + association
def laneFaults : Nat := 0
def icvFail : Nat := 1
def noSa : Nat := 3
def macsecSent : Nat := 6
def macsecOk : Nat := 7
def contextErr : Nat := 5
-- group 10, object terminal
def ploamBad : Nat := 0
def lostBursts : Nat := 1
def termCorrected : Nat := 3
def termBits : Nat := 4
def termUncorrectable : Nat := 5
def termAccepted : Nat := 6
def driftSteps : Nat := 7
def keyFails : Nat := 8
def noKeyDrops : Nat := 9
def omciBadMic : Nat := 10
def omciUnexpected : Nat := 11
def omciTimeouts : Nat := 12
def todFails : Nat := 13
-- group 11, object queue
def qEnqFrames : Nat := 0
def qEnqBytes : Nat := 1
def qDropFrames : Nat := 2
def qDropBytes : Nat := 3
def qFlushed : Nat := 4
def cutAborts : Nat := 8
/-- By colour: green, yellow, red. -/
def qColourDrops (c : Nat) : Nat := 5 + c
end Cn

end Sys2Proof.Machine
end

