-- ==== Sys2Proof/Machine/Ops.lean ====
section
/-! DEFINITION. The named operations over the state that the meanings of the commands share: time and output, reading and changing one object, rings and replies, PLOAM queues, channel states, the Seam, the token and the roles. -/

namespace Sys2Proof.Machine
open Sys2Proof

/-! ### Time, output and free values -/

/-- Time passes; what the last command put out is gone (log entry 1). -/
def tick (dt : Nat) (s : State) : State := { s with now := s.now + dt, out := [] }

/-- Put out one thing. -/
def emit (o : Output) (s : State) : State := { s with out := s.out ++ [o] }

/-- Move on to the next draw of the free values (log entry 3). -/
def drawn (s : State) : State := { s with draw := s.draw + 1 }

/-- Do one operation for each entry of a list, in order. -/
def forAll {α : Type} (l : List α) (f : α → State → State) (s : State) : State := l.foldl (fun a x => f x a) s

/-- Do an operation when a condition holds. -/
def doIf (b : Bool) (f : State → State) (s : State) : State := if b then f s else s

/-- Change the entry at a key of a table whose unlisted keys read as `d`. -/
def Tab.upd {α : Type} (d : α) (k : Nat) (f : α → α) (t : Tab α) : Tab α := Tab.set k (f (Tab.getD t k d)) t

/-! ### One object of the state -/

def cfgOf (s : State) : Cfg := s.stitch.cfg

def chOf (s : State) (c : Nat) : Channel := s.pon.channels.getD c {}
def modCh (c : Nat) (f : Channel → Channel) (s : State) : State :=
  { s with pon := { s.pon with channels := Tab.upd {} c f s.pon.channels } }

def termOf (s : State) (t : Nat) : Terminal := s.pon.terms.getD t {}
def modTerm (t : Nat) (f : Terminal → Terminal) (s : State) : State :=
  { s with pon := { s.pon with terms := Tab.upd {} t f s.pon.terms } }

def fitOf (s : State) (t : Nat) : Fitting := s.pon.fits.getD t {}
def modFit (t : Nat) (f : Fitting → Fitting) (s : State) : State :=
  { s with pon := { s.pon with fits := Tab.upd {} t f s.pon.fits } }

def allocOf (s : State) (a : Nat) : Alloc := s.pon.allocs.getD a {}
def modAlloc (a : Nat) (f : Alloc → Alloc) (s : State) : State :=
  { s with pon := { s.pon with allocs := Tab.upd {} a f s.pon.allocs } }

def bobOf (s : State) (b : Nat) : Bobbin := s.pon.bobbins.getD b {}
def modBob (b : Nat) (f : Bobbin → Bobbin) (s : State) : State :=
  { s with pon := { s.pon with bobbins := Tab.upd {} b f s.pon.bobbins } }

def queueOf (s : State) (q : Nat) : Queue := s.q.queues.getD q {}
def modQueue (q : Nat) (f : Queue → Queue) (s : State) : State :=
  { s with q := { s.q with queues := Tab.upd {} q f s.q.queues } }

def shaperOf (s : State) (kind num : Nat) : Shaper := s.q.shapers.getD (objKey kind num) {}
def modShaper (kind num : Nat) (f : Shaper → Shaper) (s : State) : State :=
  { s with q := { s.q with shapers := Tab.upd {} (objKey kind num) f s.q.shapers } }

def policerOf (s : State) (p : Nat) : PolicerSt := s.q.policers.getD p {}
def modPolicer (p : Nat) (f : PolicerSt → PolicerSt) (s : State) : State :=
  { s with q := { s.q with policers := Tab.upd {} p f s.q.policers } }

def laneOf (s : State) (l : Nat) : Lane := s.lane.lanes.getD l {}
def modLane (l : Nat) (f : Lane → Lane) (s : State) : State :=
  { s with lane := { s.lane with lanes := Tab.upd {} l f s.lane.lanes } }

def subportOf (s : State) (p : Nat) : Subport := s.lane.subports.getD p {}
def modSubport (p : Nat) (f : Subport → Subport) (s : State) : State :=
  { s with lane := { s.lane with subports := Tab.upd {} p f s.lane.subports } }

def modBase (b : Nat) (f : TimeBase → TimeBase) (s : State) : State :=
  { s with time := { s.time with bases := Tab.upd {} b f s.time.bases } }

def slotKey (die : DieId) (slot : Nat) : Nat := Config.keySlots * dieNum die + slot
def modSlots (f : Tab KeySlot → Tab KeySlot) (s : State) : State := { s with ciph := { s.ciph with slots := f s.ciph.slots } }

def cpoolOf (s : State) (p : Nat) : CipherPool := s.ciph.pools.getD p {}
def modCpool (p : Nat) (f : CipherPool → CipherPool) (s : State) : State :=
  { s with ciph := { s.ciph with pools := Tab.upd {} p f s.ciph.pools } }

def railOf (s : State) (r : Nat) : Rail := s.pwr.rails.getD r {}
def modRail (r : Nat) (f : Rail → Rail) (s : State) : State :=
  { s with pwr := { s.pwr with rails := Tab.upd {} r f s.pwr.rails } }

def ringKey (p : PortId) (r : Nat) : Nat := 16 * portNum p + r
def ringOf (s : State) (p : PortId) (r : Nat) : Ring := s.host.rings.getD (ringKey p r) {}
def modRing (p : PortId) (r : Nat) (f : Ring → Ring) (s : State) : State :=
  { s with host := { s.host with rings := Tab.upd {} (ringKey p r) f s.host.rings } }

def thimbleOf (s : State) (n : Nat) : Thimble := s.host.thimbles.getD n {}
def modThimble (n : Nat) (f : Thimble → Thimble) (s : State) : State :=
  { s with host := { s.host with thimbles := Tab.upd {} n f s.host.thimbles } }

def lockKey (die : DieId) (bank : Nat) : Nat := 16 * dieNum die + bank
def lockOf (s : State) (die : DieId) (bank : Nat) : FmtLock := s.host.locks.getD (lockKey die bank) {}
def modLock (die : DieId) (bank : Nat) (f : FmtLock → FmtLock) (s : State) : State :=
  { s with host := { s.host with locks := Tab.upd {} (lockKey die bank) f s.host.locks } }

def puntOf (s : State) : PortId → PuntPort
  | .a => s.host.puntA
  | .b => s.host.puntB
def modPunt (p : PortId) (f : PuntPort → PuntPort) (s : State) : State :=
  match p with
  | .a => { s with host := { s.host with puntA := f s.host.puntA } }
  | .b => { s with host := { s.host with puntB := f s.host.puntB } }

def imagesOf (s : State) : DieId → ImageStore
  | .east => s.host.imagesE
  | .west => s.host.imagesW
def modImages (d : DieId) (f : ImageStore → ImageStore) (s : State) : State :=
  match d with
  | .east => { s with host := { s.host with imagesE := f s.host.imagesE } }
  | .west => { s with host := { s.host with imagesW := f s.host.imagesW } }

def linkOf (s : State) : PortId → Bool
  | .a => s.host.linkA
  | .b => s.host.linkB
def setLink (p : PortId) (up : Bool) (s : State) : State :=
  match p with
  | .a => { s with host := { s.host with linkA := up } }
  | .b => { s with host := { s.host with linkB := up } }

def fmtOf (s : State) : DieId → List FmtEntry
  | .east => s.tab.fmtE
  | .west => s.tab.fmtW
def modFmt (d : DieId) (f : List FmtEntry → List FmtEntry) (s : State) : State :=
  match d with
  | .east => { s with tab := { s.tab with fmtE := f s.tab.fmtE } }
  | .west => { s with tab := { s.tab with fmtW := f s.tab.fmtW } }

/-! ### Readings of the configuration -/

def chVal (s : State) (c fld : Nat) : Int := (cfgOf s).val Kind.channel c fld
def chValN (s : State) (c fld : Nat) : Nat := (cfgOf s).valN Kind.channel c fld
def termTree (s : State) (t : Nat) : Nat := (cfgOf s).valN Kind.terminal t Fld.trmTree
def termTenantFlows (s : State) (t : Nat) : List Obj :=
  ((cfgOf s).ofKind Kind.flow).filter fun o => (cfgOf s).valN Kind.flow o.num Fld.flTerm == t
/-- The terminals provisioned on a tree. -/
def treeTerms (s : State) (tree : Nat) : List Nat :=
  (((cfgOf s).ofKind Kind.terminal).map (·.num)).filter fun t => termTree s t == tree

/-- A terminal counts as registered while it holds an ONU-ID (R74). -/
def registered : TermState → Bool
  | .assigned => true
  | .ranged => true
  | .operational => true
  | .searching => true
  | _ => false

/-- The terminals registered on a channel, rising. -/
def chTerms (s : State) (c : Nat) : List Nat :=
  (s.pon.terms.filter fun p => p.2.ch == some c && registered p.2.st).map (·.1)

/-- The terminals of a channel in OPERATIONAL, rising. -/
def opTerms (s : State) (c : Nat) : List Nat :=
  (s.pon.terms.filter fun p => p.2.ch == some c && p.2.st == .operational).map (·.1)

def dieOfTerm (s : State) (t : Nat) : DieId := dieOfTree (termTree s t)

/-- The cluster setting that lights its modules ahead of the first frame (R326). -/
def laserLead (s : State) (cluster : Nat) : Time := Time.us ((cfgOf s).valN Kind.cluster cluster Fld.cluLeadUs)

/-! ### The grid -/

/-- The first grid boundary at or after an instant. -/
def boundaryFrom (s : State) (t : Time) : Time :=
  if t ≤ s.pon.gridAt then s.pon.gridAt else s.pon.gridAt + Time.frame * ceilDiv (t - s.pon.gridAt) Time.frame

/-- The present superframe count. -/
def sfNow (s : State) : SF := s.pon.sf

/-! ### Stitch numbers -/

/-- The staging number: the successor of the last accepted stitch (R28). -/
def stagingNumber (s : State) : StitchNo :=
  succStitch ((s.stitch.pend.getLast?.map (·.number)).getD s.stitch.current)

/-! ### Vectors, replies and rings -/

def vecKey (p : PortId) (v : Nat) : Nat := 32 * portNum p + v
def holdoffUs (s : State) : PortId → Nat
  | .a => s.ev.holdoffA
  | .b => s.ev.holdoffB

/-- A ring's index advances: its vector fires, or its advance is noted within the holdoff (R388). -/
def fireVector (p : PortId) (v : Nat) (s : State) : State :=
  let x := s.ev.vectors.getD (vecKey p v) {}
  if s.now < x.holdEnd then
    { s with ev := { s.ev with vectors := s.ev.vectors.set (vecKey p v) { x with advanced := true } } }
  else
    let y : Vector := ⟨x.fired + 1, s.now + Time.us (holdoffUs s p), false⟩
    emit (.vector p v) { s with ev := { s.ev with vectors := s.ev.vectors.set (vecKey p v) y } }

/-- A session has attached a delivery ring of a kind. -/
def hasRing (se : Session) : RingKind → Bool
  | .event => se.eventRing.isSome
  | .notice => se.notice.isSome
  | .omci => se.omci.isSome
  | .launch => se.launch.isSome
  | .punt => se.punt

/-- The command rings of a port whose session has attached a delivery ring of a kind. -/
def ringsWith (s : State) (p : PortId) (k : RingKind) : List Nat :=
  (List.range 16).filter fun r => ((ringOf s p r).session.map (hasRing · k)).getD false

/-- A delivery ring of a port advances: the vectors of the sessions that attached it fire. -/
def fireDelivery (p : PortId) (k : RingKind) (s : State) : State := forAll (ringsWith s p k) (fireVector p) s

/-- What a command answers. -/
structure Answer where
  status : Nat := 0
  detail : Nat := 0
  result : List Nat := []
  deriving DecidableEq, Repr

/-- Write a reply into a ring's reply area and advance its index; a port whose link is down gets none (R356, R365, R453). -/
def postReply (p : PortId) (r opcode : Nat) (seq session : Word) (signal : Bool) (a : Answer) (s : State) : State :=
  if linkOf s p then
    let rep : Reply := ⟨opcode, a.status, seq, session, stagingNumber s, a.detail, a.result⟩
    doIf signal (fireVector p r)
      (modRing p r (fun x => { x with replies := x.replies ++ [rep], rplProd := x.rplProd + 1 }) s)
  else s

/-- End the command that a ring is running, with its one reply. -/
def finishRunning (p : PortId) (r : Nat) (a : Answer) (s : State) : State :=
  match (ringOf s p r).running with
  | none => s
  | some c =>
    doIf (!c.discard) (postReply p r c.opcode c.seq c.session c.signal a) (modRing p r (fun x => { x with running := none }) s)

/-- The rings whose running command waits for something, by port and number. -/
def ringsWaiting (s : State) (f : Wait → Bool) : List (PortId × Nat) :=
  ([PortId.a, PortId.b].flatMap fun p => (List.range 16).map fun r => (p, r)).filter fun pr =>
    ((ringOf s pr.1 pr.2).running.map fun c => f c.wait).getD false

/-- End every command that waits for something. -/
def finishWaiting (f : Wait → Bool) (a : Answer) (s : State) : State :=
  forAll (ringsWaiting s f) (fun pr => finishRunning pr.1 pr.2 a) s

/-! ### The Seam -/

/-- A Seam lane carries messages: trained, with neither LOS nor LOL, and not under a pattern test. -/
def seamLaneUp (s : State) (q : Nat) : Bool :=
  let x := laneOf s (64 + q)
  x.up && decide (x.dataAt ≤ s.now) && !x.los && !x.lol && x.test.isNone

/-- The lane that carries the messages of quadrant `q`: lane q, or the next one up (R313). -/
def seamLane? (s : State) (q : Nat) : Option Nat :=
  ((List.range 4).map fun i => (q + i) % 4).find? fun l => seamLaneUp s l

/-- Send a message on the lane of a quadrant with the next sequence number of that lane; a lane whose sequence reaches
2^40 takes a new generation (R313, R314). -/
def seamSend (q : Nat) (m : SeamMsg) (s : State) : State :=
  match seamLane? s q with
  | none => s
  | some l =>
    let n := s.twin.txSeq.getD l 0 + 1
    emit (.seam l n m) { s with twin := { s.twin with
      txSeq := s.twin.txSeq.set l n
      generation := if n = 2 ^ 40 then s.twin.generation + 1 else s.twin.generation } }

/-- The Seam versions of this firmware, and the minimum pairing version (R317). -/
def seamLowest : Nat := 1
def seamHighest : Nat := 3
def minPairing (s : State) : Nat := (cfgOf s).valN Kind.device 0 Fld.devMinPairing

/-- Once start-up has ended and a Seam lane is up, the unit sends HELLO (R311). -/
def sendHello (s : State) : State :=
  if s.pwr.ready && !s.twin.helloSent && (seamLane? s 0).isSome then
    seamSend 0 (.hello seamLowest seamHighest (minPairing s) s.stitch.digest)
      { s with twin := { s.twin with helloSent := true } }
  else s

/-- The unit holds the token and has a paired twin to keep in step. -/
def mirrors (s : State) : Bool := s.twin.held && s.twin.paired && s.twin.seamUp

/-- Send a message of the holder to the standby. -/
def toStandby (q : Nat) (m : SeamMsg) (s : State) : State := doIf (mirrors s) (seamSend q m) s

/-- Send RANGING about a terminal: every result, within one frame, and with the offset of an accepted burst from the place its map
gave it (R113, R325). -/
def sendRanging (t : Nat) (arrival : Option Int) (s : State) : State :=
  let x := termOf s t
  toStandby (quadrantOfTree (termTree s t)) (.ranging t x.st x.rtd x.eqd arrival) s

/-! ### Lane contexts in the deep pan (R274 to R276) -/

/-- The key of a context: its slot kind and its owner. -/
def ctxKey (kind owner : Nat) : Nat := kind * 2 ^ 40 + owner

/-- A context moves to the deep pan: its version increases. -/
def spillCtx (c : CtxIn) (s : State) : State :=
  match c.spill with
  | none => s
  | some (k, o) => { s with ciph := { s.ciph with ctxVersion := Tab.upd 0 (ctxKey k o) (· + 1) s.ciph.ctxVersion } }

/-- An item's context may be used: it was in the secure SRAM, or came back whole with the version last written. -/
def ctxGood (s : State) (kind owner : Nat) (c : CtxIn) : Bool :=
  match c.reload with
  | none => true
  | some (v, tagOk) => tagOk && v == (s.ciph.ctxVersion.getD (ctxKey kind owner) 0).toNat

/-! ### PLOAM queues -/

/-- A channel in this state sends frames (R68). -/
def sendsFrames (s : State) (c : Nat) : Bool :=
  let x := chOf s c
  (x.st == .starting || x.st == .active || x.st == .draining || (x.st == .quiet && x.awake)) && decide (x.readyAt ≤ s.now)

/-- A channel in this state has a PLOAM queue in use (R68). -/
def hasPloamQueue : ChState → Bool
  | .starting => true
  | .active => true
  | .draining => true
  | .quiet => true
  | _ => false

/-- The broadcast ONU-ID (Table 2.2). -/
def bcastOnu : Nat := 1023

/-- The priority of a PLOAM message, 1 the highest (R68). -/
def ploamPrio : Ploam → Nat
  | .deactivate onu => if onu = bcastOnu then 1 else 7
  | .disableSerial _ _ => 1
  | .rangingTime _ _ _ => 2
  | .assignOnu _ _ => 3
  | .keyControl _ _ _ => 4
  | .assignAlloc _ _ _ => 5
  | .burstProfile _ _ _ _ => 6
  | .systemProfile => 6
  | .channelProfile => 6
  | .sleepAllow _ _ => 7
  | .requestRegistration _ => 7

/-- Queue a downstream PLOAM message; with 1,024 waiting the state machine holds it, and the hold is counted (R68). -/
def sendPloam (c : Nat) (m : Ploam) (s : State) : State :=
  let x := chOf s c
  if hasPloamQueue x.st then
    if x.ploam.length < Config.ploamMax then modCh c (fun y => { y with ploam := y.ploam ++ [m] }) s
    else bump 7 c Cn.ploamBacklog 1 (modCh c (fun y => { y with ploamHeld := y.ploamHeld ++ [m] }) s)
  else s

/-- The first message of the highest priority waiting, and the others. -/
def pickPloam (l : List Ploam) : Option (Ploam × List Ploam) :=
  match (List.range 8).findSome? fun p => l.find? fun m => ploamPrio m == p with
  | none => none
  | some m => some (m, l.erase m)

/-- Up to `n` messages in the order of sending, and the rest. -/
def takePloam : Nat → List Ploam → List Ploam × List Ploam
  | 0, l => ([], l)
  | n + 1, l =>
    match pickPloam l with
    | none => ([], l)
    | some (m, rest) =>
      let r := takePloam n rest
      (m :: r.1, r.2)

/-! ### Channel states -/

/-- A channel in DARK, FAULTED or SHADOW has no PLOAM queue (R68). -/
def emptiesQueue (st : ChState) : Bool := !hasPloamQueue st

/-- A channel enters a state at this moment: the superframe count of entry is kept, and its PLOAM queue is emptied and
counted where the state has none (R68, R73). -/
def enterCh (c : Nat) (st : ChState) (s : State) : State :=
  let x := chOf s c
  let flushed := x.ploam.length + x.ploamHeld.length
  let s := modCh c (fun y =>
    { y with st := st, since := s.pon.sf, enteredAt := s.now, framesSent := 0, lastRegistered := s.now,
             ploam := if emptiesQueue st then [] else y.ploam,
             ploamHeld := if emptiesQueue st then [] else y.ploamHeld }) s
  doIf (emptiesQueue st && flushed != 0) (bump 7 c Cn.ploamFlushed flushed) s

/-- A channel runs: it is not DARK. -/
def isDark (s : State) (c : Nat) : Bool := (chOf s c).st == .dark

/-- The clusters with a channel that is not DARK (R326). -/
def litClusters (s : State) : List Nat :=
  (List.range 16).filter fun k => (List.range 32).any fun i => !isDark s (32 * k + i)

/-! ### Token and role -/

/-! Causes of role changes and yields. The spec names them and does not number them (log entry 6). -/
namespace Cause
def none_ : Nat := 0
def startup : Nat := 1
def hello : Nat := 2
def versionRefused : Nat := 3
def takeover : Nat := 4
def handover : Nat := 5
def hostCommand : Nat := 6
def resyncDone : Nat := 7
def resyncFailed : Nat := 8
def gridFrequency : Nat := 9
def configMismatch : Nat := 10
def mapMismatch : Nat := 11
def timeUnfit : Nat := 12
def seamLoss : Nat := 13
def tokenConflict : Nat := 14
def watchdog : Nat := 15
def supplyDips : Nat := 16
def eccError : Nat := 17
def bridgeDown : Nat := 18
def deepPan : Nat := 19
def bobbinPool : Nat := 20
def bobbinQuarantine : Nat := 21
def cipherCapacity : Nat := 22
def channelFault : Nat := 23
def divergence : Nat := 24
def reset : Nat := 25
end Cause

/-- YIELD_OUT of a role (Table 12.1). -/
def yieldOutOf (r : Role) (held : Bool) : Bool :=
  match r with
  | .solo => !held
  | .active => false
  | .syncing => true
  | .armed => false
  | .disarmed => true

/-- A unit in this role may go on with a claim of the token. -/
def mayClaim (r : Role) : Bool :=
  match r with
  | .solo => true
  | .active => true
  | .armed => true
  | _ => false

/-- Take a role; a change raises TWIN_ROLE with the old role, the new role and the cause (R310). YIELD_OUT follows the role, and a
claim in progress ends in a role that may not take the token (R306). -/
def setRole (r : Role) (cause : Nat) (s : State) : State :=
  let old := s.twin.role
  let claims := s.twin.guardSince.isSome && mayClaim r
  let s' := { s with twin := { s.twin with
      role := r, lastCause := if old = r then s.twin.lastCause else cause
      yieldOut := !claims && yieldOutOf r s.twin.held
      tokenOut := s.twin.held || (s.twin.tokenOut && claims)
      guardSince := if claims then s.twin.guardSince else none } }
  if old = r then s' else raise Ev.twinRole .east [.u8 (roleNum old), .u8 (roleNum r), .u8 cause] s'

/-- A channel of a unit that gives up the token (R77). -/
def chLosesToken (c : Nat) (s : State) : State :=
  match (chOf s c).st with
  | .active => enterCh c .shadow s
  | .quiet => enterCh c .shadow s
  | .starting => enterCh c .shadow s
  | .draining => enterCh c .dark s
  | _ => s

/-- Release the token: TOKEN_OUT falls, every LASER_EN is low, the channels enter SHADOW (R309, R77). -/
def releaseToken (s : State) : State :=
  forAll (s.pon.channels.map (·.1)) chLosesToken
    { s with twin := { s.twin with held := false, tokenOut := false, lasers := [], guardSince := none,
                                    takeover := false, lasersAt := [], framesAt := [] } }

/-- The holder yields: YIELD_NOTICE when the Seam is up, YIELD_OUT, the release of the token, TWIN_YIELD with the cause, and
the role it then takes (R322). -/
def yieldAs (r : Role) (cause : Nat) (s : State) : State :=
  let s := doIf s.twin.seamUp (seamSend 0 (.yieldNotice cause)) s
  let s := raise Ev.twinYield .east [.u8 cause] (releaseToken { s with twin := { s.twin with yieldOut := true } })
  setRole r cause s

/-- A fatal finding: the holder yields whatever its partner's state; a standby becomes DISARMED with the same event (R322). -/
def fatalFinding (cause : Nat) (s : State) : State :=
  if s.twin.held then yieldAs .disarmed cause s
  else setRole .disarmed cause (raise Ev.twinYield .east [.u8 cause] s)

/-- A policy finding: the holder yields when the host has enabled the yield and the partner is ARMED (R322). -/
def policyFinding (fld cause : Nat) (yieldIn : Bool) (s : State) : State :=
  if s.twin.held && (cfgOf s).on Kind.device 0 fld && !yieldIn then
    yieldAs .disarmed cause { s with twin := { s.twin with yieldIn := yieldIn } }
  else { s with twin := { s.twin with yieldIn := yieldIn } }

/-! ### Placement -/

/-- The place of an object, if it is placed. -/
def placeOf? (s : State) (kind num : Nat) : Option Place :=
  s.stitch.places.find? fun p => p.kind == kind && p.num == num

def putPlace (p : Place) (s : State) : State :=
  { s with stitch := { s.stitch with
      places := p :: s.stitch.places.filter fun x => !(x.kind == p.kind && x.num == p.num) } }

def dropPlace (kind num : Nat) (s : State) : State :=
  { s with stitch := { s.stitch with places := s.stitch.places.filter fun x => !(x.kind == kind && x.num == num) } }

/-- The die of a location (R373). -/
def dieOfLoc (loc : Nat) : DieId :=
  match locType loc with
  | 1 => dieOfBobbin (locPlace loc)
  | 2 => dieOf (locPlace loc / 2)
  | 3 => dieOfLane (locPlace loc)
  | _ => dieOf (locPlace loc / 2 ^ 27)

/-- Count a move of an object: load-driven or fault-driven, per kind and die (R26). -/
def countMove (kind : Nat) (die : DieId) (fault : Bool) (s : State) : State :=
  bump 0 (dieNum die) (if fault then Cn.movesFault kind else Cn.movesLoad kind) 1 s

/-- An object starts a move to a location: it is MOVING with both places until the move completes (R21, R22). -/
def startMove (p : Place) (dst : Nat) (fault : Bool) (s : State) : State :=
  putPlace { p with moving := some dst, faultMove := fault } s

/-- A fault moves an object although it is pinned: the pin is cleared and PIN_BROKEN is raised (R25). -/
def breakPin (kind num old new : Nat) (s : State) : State :=
  match (cfgOf s).obj? kind num with
  | none => s
  | some o =>
    if o.pin.isSome then
      raise Ev.pinBroken (dieOfLoc old) [.u32 num, .u32 old, .u32 new]
        { s with stitch := { s.stitch with cfg := s.stitch.cfg.set (objKey kind num) { o with pin := none } } }
    else s

end Sys2Proof.Machine
end

