-- ==== Sys2Proof/Machine/Gate.lean ====
section
/-! DEFINITION. How a command ring starts a command, what turns the command away before its own rules are looked at, and how it is answered (R361, R362, R366, R367, R369). -/

namespace Sys2Proof.Machine
open Sys2Proof

/-! Opcodes (Table 14.6). -/
namespace Op
def sessionOpen : Nat := 0x0101
def sessionClose : Nat := 0x0102
def hostRings : Nat := 0x0103
def baste : Nat := 0x0201
def discard : Nat := 0x0202
def stitch : Nat := 0x0301
def query : Nat := 0x0401
def laneTestStart : Nat := 0x0501
def laneTestStop : Nat := 0x0502
def laneInject : Nat := 0x0503
def omciRequest : Nat := 0x0601
def swdlStart : Nat := 0x0602
def imageActivate : Nat := 0x0603
def imageCommit : Nat := 0x0604
def fittingReset : Nat := 0x0605
def terminalEnable : Nat := 0x0606
def imageOpen : Nat := 0x0607
def imageWindow : Nat := 0x0608
def imageClose : Nat := 0x0609
def imageDelete : Nat := 0x060A
def loopClear : Nat := 0x0701
def cfmLbm : Nat := 0x0702
def cfmLtm : Nat := 0x0703
def hint : Nat := 0x0801
def flush : Nat := 0x0901
def portSend : Nat := 0x0902
def fmtInsert : Nat := 0x0A01
def fmtDelete : Nat := 0x0A02
def matchStep : Nat := 0x0A03
def keyImport : Nat := 0x0B01
def jumpAccept : Nat := 0x0C01
def jumpRefuse : Nat := 0x0C02
def timeSet : Nat := 0x0C03
def asymmetrySet : Nat := 0x0C04
def handover : Nat := 0x0D01
def disarm : Nat := 0x0D02
def resync : Nat := 0x0D03
def seamTestStart : Nat := 0x0D04
def seamTestStop : Nat := 0x0D05
def counterRead : Nat := 0x0E01
def counterClear : Nat := 0x0E02
def userReadGrant : Nat := 0x0E03
def abort : Nat := 0x0F01
end Op

/-- The entries of a ring (Table 19.4). -/
def ringEntries (r : Ring) : Nat := 2 ^ r.log2

/-- The reply area has room for one more reply (R361). -/
def replyRoom (r : Ring) : Bool := decide ((r.rplProd - r.rplCons).toNat < ringEntries r)

/-- Pass over entries that hold an ABORT already carried out (R375). -/
def skipAborts : Nat → Ring → Ring
  | 0, r => r
  | n + 1, r =>
    if r.abortsDone.contains r.cmdCons then
      skipAborts n { r with cmdCons := r.cmdCons + 1, abortsDone := r.abortsDone.erase r.cmdCons }
    else r

/-- The ring with the ABORTs at its head passed over. -/
def ringHead (r : Ring) : Ring := skipAborts r.abortsDone.length r

/-- The ring can start its next command: the device is command-ready, the port's link is up, the ring is enabled and runs
no command, an entry waits and the reply area has room (R361, R362, R367). -/
def canStart (s : State) (p : PortId) (r : Nat) : Bool :=
  let x := ringHead (ringOf s p r)
  s.pwr.ready && linkOf s p && x.enable && x.running.isNone && x.cmdCons != x.cmdProd && replyRoom x

/-- A twin that does not hold the token and stands by (Table 12.1). -/
def isStandby (s : State) : Bool :=
  match s.twin.role with
  | .syncing => true
  | .armed => true
  | .disarmed => true
  | _ => false

/-- The families that a standby accepts: session, query, table, key import, twin, counter and abort (R319). -/
def standbyFamily (opcode : Nat) : Bool := [0x01, 0x04, 0x0A, 0x0B, 0x0D, 0x0E, 0x0F].contains (opcode / 256)

/-- What turns a command away before its own rules: no session, the wrong role, a stitch number that is not current. -/
def gateStatus (opcode : Nat) (h : Hdr) (s : State) : Option Nat :=
  let se := (ringOf s h.port h.ring).session
  if opcode = Op.sessionOpen then
    if se.isSome then some St.state else none
  else if se.map (·.id) != some h.session then some St.noSession
  else if isStandby s && !standbyFamily opcode then some St.role
  else if opcode != Op.baste && opcode != Op.stitch && h.stitch != 0 && h.stitch != s.stitch.current then some St.staleStitch
  else none

/-- What a command's own rules give: an answer now, or a wait with its maximum time (R366). -/
inductive Served
  | done (a : Answer) (s : State)
  | wait (w : Wait) (max : Time) (s : State)

/-- A failure that changes nothing. -/
def fail (status : Nat) (s : State) : Served := .done { status := status } s
/-- Success without a result. -/
def okay (s : State) : Served := .done {} s

/-- The ring takes its next entry. -/
def takeEntry (h : Hdr) (s : State) : State :=
  modRing h.port h.ring (fun r => let x := ringHead r; { x with cmdCons := x.cmdCons + 1 }) s

/-- Serve one command of a ring: it starts when the ring can start it; its one reply is written at once, or once its wait
has ended. -/
def serve (opcode : Nat) (h : Hdr) (body : State → Served) (s : State) : State :=
  if canStart s h.port h.ring then
    let s := takeEntry h s
    let reply := postReply h.port h.ring opcode h.seq h.session h.signal
    match gateStatus opcode h s with
    | some st => reply { status := st } s
    | none =>
      match body s with
      | .done a s => reply a s
      | .wait w max s =>
        modRing h.port h.ring (fun r =>
          { r with running := some ⟨opcode, h.seq, h.session, h.signal, s.now, max, w, false⟩ }) s
  else s

/-- A command of the host: time passes, then its ring serves it. -/
def hostCmd (dt opcode : Nat) (h : Hdr) (body : State → Served) (s : State) : State := serve opcode h body (tick dt s)

/-- One of several admissible choices, where the spec gives no rule (log entry 3). -/
def pick {α : Type} (l : List α) (s : State) : Option α := l[Config.choice s.draw % l.length]?

end Sys2Proof.Machine
end

