-- ==== Sys2Proof/Machine/Tables.lean ====
section
/-! DEFINITION. The flow/MAC table: placement, bank locks, command and DMA writes, learning notices and the age sweep (R215 to R233, R457). -/

namespace Sys2Proof.Machine
open Sys2Proof

/-! ### Destinations (Table 8.3) -/

/-- Why a dynamic entry may not name a destination, if it may not: the value names nothing, belongs to another tenant, is out
of range or not open (R219, R221). -/
def destStatus (s : State) (tenant dtype dvalue : Nat) : Nat :=
  let c := cfgOf s
  match dtype with
  | 0 =>
    if !c.has Kind.flow dvalue then St.handle
    else if c.valN Kind.flow dvalue Fld.flTenant != tenant then St.parameter
    else if c.val Kind.flow dvalue Fld.flQueue < 0 then St.parameter
    else if !c.live Kind.flow dvalue then St.parameter
    else St.ok
  | 1 =>
    if 64 ≤ dvalue then St.parameter
    else if !c.has Kind.subport dvalue then St.handle
    else if !c.live Kind.subport dvalue then St.parameter
    else St.ok
  | 2 =>
    if !c.has Kind.group dvalue then St.handle
    else if c.valN Kind.group dvalue Fld.grTenant != tenant then St.parameter
    else if !c.live Kind.group dvalue then St.parameter
    else St.ok
  | 3 => if dvalue = tenant then St.ok else St.parameter
  | 4 => if dvalue = 0 then St.ok else St.parameter
  | _ => St.parameter

/-- The die that a destination lies on: a flow of a channel of the die or a port of the die (R229). -/
def destDie? (s : State) (dtype dvalue : Nat) : Option DieId :=
  match dtype with
  | 0 => some (dieOfTerm s ((cfgOf s).valN Kind.flow dvalue Fld.flTerm))
  | 1 => some (dieOfPort dvalue)
  | _ => none

/-! ### Placement (R216, R220) -/

def fmtKey (tenant vid mac : Nat) : Nat := mac + 2 ^ 48 * vid + 2 ^ 60 * tenant

def sameKey (e : FmtEntry) (tenant vid mac : Nat) : Bool := e.tenant == tenant && e.vid == vid && e.mac == mac

/-- The entry of a key on a die. -/
def fmtFind (s : State) (die : DieId) (tenant vid mac : Nat) : Option FmtEntry :=
  (fmtOf s die).find? fun e => sameKey e tenant vid mac

def quotaOf (s : State) (die : DieId) (tenant table : Nat) : Nat :=
  (cfgOf s).valN Kind.tenant tenant (Fld.tnQuota (dieNum die) table)

/-- A tenant's entries in a bank. -/
def bankUse (s : State) (die : DieId) (bank tenant : Nat) : Nat :=
  ((fmtOf s die).filter fun e => e.bank == bank && e.tenant == tenant).length

/-- A tenant's entries on a die. -/
def tableUse (s : State) (die : DieId) (tenant : Nat) : Nat := ((fmtOf s die).filter fun e => e.tenant == tenant).length

/-- The free entries of a tenant's partition in a bank: a bank holds at most ⌈Q ÷ 16⌉ (R216). -/
def partFree (s : State) (die : DieId) (bank tenant : Nat) : Nat :=
  ceilDiv (quotaOf s die tenant 1) 16 - bankUse s die bank tenant

/-- The bucket of a key in a bank. -/
def bucketIn (bank key : Nat) : Nat := Config.bucketOf bank key % 2048

/-- The free indices of a key's bucket in a bank. -/
def freeIndices (s : State) (die : DieId) (bank key : Nat) : List Nat :=
  ((List.range 8).map fun i => 8 * bucketIn bank key + i).filter fun i =>
    !(fmtOf s die).any fun e => e.bank == bank && e.index == i

/-- The banks that can take a key of a tenant. -/
def banksFor (s : State) (die : DieId) (tenant key : Nat) : List Nat :=
  (List.range 16).filter fun b =>
    partFree s die b tenant != 0 && !(freeIndices s die b key).isEmpty && !s.stitch.quarantined.contains (locFmtBank die b)

/-- The banks with the most free entries in the tenant's partition among them. -/
def bestBanks (s : State) (die : DieId) (tenant key : Nat) : List Nat :=
  let l := banksFor s die tenant key
  let m := (l.map fun b => partFree s die b tenant).foldl max 0
  l.filter fun b => partFree s die b tenant == m

/-- A place for a key: bank and index. -/
def placeFor (s : State) (die : DieId) (tenant key : Nat) : Option (Nat × Nat) := do
  let b ← pick (bestBanks s die tenant key) s
  let i ← pick (freeIndices s die b key) s
  return (b, i)

/-- The moves of one entry that would make room for a key: the entry, its new bank and index (R220). No bank under lock
takes part (R232). -/
def roomMoves (s : State) (die : DieId) (tenant key : Nat) : List (FmtEntry × Nat × Nat) :=
  let free := (List.range 16).filter fun b =>
    (lockOf s die b).owner.isNone && !s.stitch.quarantined.contains (locFmtBank die b)
  (free.filter fun b => partFree s die b tenant != 0).flatMap fun b =>
    ((fmtOf s die).filter fun e => e.bank == b && e.index / 8 == bucketIn b key).flatMap fun e =>
      let k := fmtKey e.tenant e.vid e.mac
      ((free.filter fun b2 => b2 != b && partFree s die b2 e.tenant != 0).flatMap fun b2 =>
        (freeIndices s die b2 k).map fun i => (e, b2, i))

/-- Make room for a key by moving one entry: the new copy whole, then the old one cleared. -/
def makeRoom (s : State) (die : DieId) (tenant key : Nat) : Option (State × Nat × Nat) :=
  match pick (roomMoves s die tenant key) s with
  | none => none
  | some (e, b, i) =>
    some (countMove Kind.fmtStatic die false
      (modFmt die (fun l => { e with bank := b, index := i } :: l.erase e) (drawn s)), e.bank, e.index)

/-- What an insert on one die comes to. -/
inductive InsertRes
  | deferred
  | status (st bank index : Nat) (s : State)

/-- Write an entry at a place, deferred while the bank is locked (R232). -/
def writeAt (s : State) (die : DieId) (e : FmtEntry) (bank index : Nat) : InsertRes :=
  if (lockOf s die bank).owner.isSome then .deferred
  else .status St.ok bank index (modFmt die (fun l => { e with bank := bank, index := index } :: l) (drawn s))

/-- Insert a dynamic entry on one die (R216, R219 to R221, R230). An insert of a key that a dynamic entry has rewrites that
entry's destination (log entry 12). -/
def insertOn (s : State) (die : DieId) (tenant vid mac dtype dvalue : Nat) : InsertRes :=
  let st := destStatus s tenant dtype dvalue
  if st != St.ok then .status st 0 0 s
  else
    match fmtFind s die tenant vid mac with
    | some e =>
      if e.isStatic then .status St.parameter e.bank e.index s
      else if (lockOf s die e.bank).owner.isSome then .deferred
      else .status St.ok e.bank e.index
        (modFmt die (fun l => l.map fun x => if x = e then { e with dtype := dtype, dvalue := dvalue } else x) s)
    | none =>
      if quotaOf s die tenant 1 ≤ tableUse s die tenant then .status St.quota 0 0 s
      else
        let key := fmtKey tenant vid mac
        let e : FmtEntry := { mac := mac, vid := vid, tenant := tenant, dtype := dtype, dvalue := dvalue }
        match placeFor s die tenant key with
        | some (b, i) => writeAt s die e b i
        | none =>
          match makeRoom s die tenant key with
          | some (s', b, i) => writeAt s' die e b i
          | none => .status St.tableFull 0 0 s

/-- Insert on each die in turn: what is left to do, the results so far (die, status, bank, index) and the state. -/
def insertAll : List DieId → Nat → Nat → Nat → Nat → Nat → List Nat → State → List DieId × List Nat × State
  | [], _, _, _, _, _, done, s => ([], done, s)
  | d :: t, tenant, vid, mac, dtype, dvalue, done, s =>
    match insertOn s d tenant vid mac dtype dvalue with
    | .deferred =>
      let r := insertAll t tenant vid mac dtype dvalue done s
      (d :: r.1, r.2)
    | .status st b i s' => insertAll t tenant vid mac dtype dvalue (done ++ [dieNum d, st, b, i]) s'

/-- The status of an insert as a whole: the first status that is not OK (R230). -/
def insertStatus : List Nat → Nat
  | _ :: st :: _ :: _ :: t => if st = St.ok then insertStatus t else st
  | _ => St.ok

/-- The dies of a mask. -/
def maskDies (m : Nat) : List DieId := [DieId.east, .west].filter fun d => bitsOf m (dieNum d) (dieNum d) == 1

/-- Delete a dynamic entry: HANDLE when the key has none, PARAMETER for a static entry; none when the bank's lock defers it. -/
def deleteOn (s : State) (die : DieId) (tenant vid mac : Nat) : Option (Nat × State) :=
  match fmtFind s die tenant vid mac with
  | none => some (St.handle, s)
  | some e =>
    if e.isStatic then some (St.parameter, s)
    else if (lockOf s die e.bank).owner.isSome then none
    else some (St.ok, modFmt die (fun l => l.erase e) s)

/-- The key fields of a table command are in range. -/
def keyInRange (tenant vid mac : Nat) : Bool := decide (tenant < 64 ∧ vid < 4096 ∧ mac < 2 ^ 48)

def execFmtInsert (dt : Nat) (h : Hdr) (dieMask tenant vid mac dtype dvalue : Nat) (s : State) :
    Host.Outcome State Fault Refusal :=
  .next <| hostCmd dt Op.fmtInsert h (fun s =>
    if !keyInRange tenant vid mac || dieMask = 0 || 3 < dieMask then fail St.parameter s
    else
      let r := insertAll (maskDies dieMask) tenant vid mac dtype dvalue [] s
      if r.1.isEmpty then .done { status := insertStatus r.2.1, result := r.2.1 } r.2.2
      else .wait (.fmtInsert r.1 tenant vid mac dtype dvalue r.2.1) (Time.ms 10) r.2.2) s

def execFmtDelete (dt : Nat) (h : Hdr) (die : DieId) (tenant vid mac : Nat) (s : State) :
    Host.Outcome State Fault Refusal :=
  .next <| hostCmd dt Op.fmtDelete h (fun s =>
    if !keyInRange tenant vid mac then fail St.parameter s
    else
      match deleteOn s die tenant vid mac with
      | some (st, s) => .done { status := st } s
      | none => .wait (.fmtDelete die tenant vid mac) (Time.ms 10) s) s

/-! ### Bank locks (R232, R457) -/

/-- Try again the table write that a ring's running command waits with. -/
def retryRing (pr : PortId × Nat) (s : State) : State :=
  match (ringOf s pr.1 pr.2).running.map Running.wait with
  | some (.fmtInsert dies tenant vid mac dtype dvalue done) =>
    let r := insertAll dies tenant vid mac dtype dvalue done s
    if r.1.isEmpty then finishRunning pr.1 pr.2 { status := insertStatus r.2.1, result := r.2.1 } r.2.2
    else modRing pr.1 pr.2 (fun x => { x with running := x.running.map fun c =>
      { c with wait := .fmtInsert r.1 tenant vid mac dtype dvalue r.2.1 } }) r.2.2
  | some (.fmtDelete die tenant vid mac) =>
    match deleteOn s die tenant vid mac with
    | some (st, s) => finishRunning pr.1 pr.2 { status := st } s
    | none => s
  | _ => s

/-- A running command waits for a bank lock. -/
def waitsForBank : Wait → Bool
  | .fmtInsert _ _ _ _ _ _ _ => true
  | .fmtDelete _ _ _ _ => true
  | _ => false

/-- Carry out the deferred writes that the present locks allow (R232). -/
def retryDeferred (s : State) : State := forAll (ringsWaiting s waitsForBank) retryRing s

/-- Free a lock and carry out what it deferred. -/
def releaseLock (die : DieId) (bank : Nat) (s : State) : State :=
  retryDeferred (modLock die bank (fun l => { l with owner := none }) s)

/-- A write to FMT_LOCK (Table 8.6). -/
def writeFmtLock (p : PortId) (die : DieId) (bank : Nat) (v : Word) (s : State) : State :=
  let l := lockOf s die bank
  let agent := bitsOf v.toNat 7 2
  match l.owner with
  | some o => if bitsOf v.toNat 1 1 = 1 && o == (p, agent) then releaseLock die bank s else s
  | none =>
    if bitsOf v.toNat 0 0 = 1 then
      modLock die bank (fun l => { l with owner := some (p, agent), since := s.now, inForce := l.timeout.toNat }) s
    else modLock die bank (fun l => { l with timeout := BitVec.ofNat 16 (bitsOf v.toNat 31 16) }) s

/-- A write to a register of blocks 4, 5, 7 or 8 while the device is not ready is ignored and counted (R446, R447). -/
def ignoreWrite (s : State) : State := bump 0 0 Cn.ignoredWrites 1 s

def lockWrite (p : PortId) (die : DieId) (bank : Nat) (v : Word) (s : State) : State :=
  if s.pwr.ready then writeFmtLock p die bank v s else ignoreWrite s

/-- A write of a port whose link is up; a port whose link is down reaches no register (R356). -/
def portWrite (p : PortId) (f : State → State) (s : State) : State := if linkOf s p then f s else s

def execFmtLockClaim (dt : Nat) (port : PortId) (die : DieId) (bank agent : Nat) (timeoutBits : BitVec 16) (s : State) :
    Host.Outcome State Fault Refusal :=
  .next <| portWrite port (lockWrite port die bank (BitVec.ofNat 32 (1 + 4 * (agent % 64) + 2 ^ 16 * timeoutBits.toNat))) (tick dt s)

def execFmtLockRelease (dt : Nat) (port : PortId) (die : DieId) (bank agent : Nat) (s : State) :
    Host.Outcome State Fault Refusal :=
  .next <| portWrite port (lockWrite port die bank (BitVec.ofNat 32 (2 + 4 * (agent % 64)))) (tick dt s)

def execFmtLockTimeoutSet (dt : Nat) (port : PortId) (die : DieId) (bank : Nat) (timeout : BitVec 16) (s : State) :
    Host.Outcome State Fault Refusal :=
  .next <| portWrite port (lockWrite port die bank (BitVec.ofNat 32 (2 ^ 16 * timeout.toNat))) (tick dt s)

/-- A lock is held longer than its timeout: 100 µs units, 0 for no limit. -/
def lockExpired (l : FmtLock) (now : Time) : Bool :=
  l.owner.isSome && l.inForce != 0 && decide (l.since + Time.us (100 * l.inForce) < now)

/-- The owner of a lock or Thimble as event arguments: port and agent. -/
def ownerArgs : Option (PortId × Nat) → List Arg
  | some (p, a) => [.u8 (portNum p), .u8 a]
  | none => []

def execTableLockTimeout (dt : Nat) (die : DieId) (bank : Nat) (s : State) : Host.Outcome State Fault Refusal :=
  let s := tick dt s
  let l := lockOf s die bank
  .next <|
    if lockExpired l s.now then
      raise Ev.tableLockTimeout die ([.u8 (dieNum die), .u8 bank] ++ ownerArgs l.owner) (releaseLock die bank s)
    else s

/-! ### DMA (R231) -/

/-- The window of a BAR2 address: its die, and the byte offset in the table. -/
def fmtWindow? (addr : Nat) : Option (DieId × Nat) :=
  if addr < 0x400000 then some (.east, addr)
  else if 0x8000000 ≤ addr ∧ addr < 0x8400000 then some (.west, addr - 0x8000000)
  else none

/-- The entry at an offset of a table. -/
def entryAt (s : State) (die : DieId) (off : Nat) : Option FmtEntry :=
  (fmtOf s die).find? fun e => e.bank == off / 0x40000 && e.index == off % 0x40000 / 16

/-- A DMA write of one entry meets the conditions of R231: what it makes of the entry (none: it deletes it). -/
def dmaEntry (s : State) (p : PortId) (die : DieId) (off bits : Nat) : Option (FmtEntry × Option FmtEntry) :=
  match entryAt s die off with
  | none => none
  | some e =>
    let held := (lockOf s die (off / 0x40000)).owner.map (·.1) == some p
    let keeps := bitsOf bits 67 0 == bitsOf (fmtEntryBits e) 67 0 && bitsOf bits 126 92 == 0
    let dtype := bitsOf bits 71 68
    let dvalue := bitsOf bits 91 72
    if !held || e.isStatic || !keeps then none
    else if bitsOf bits 127 127 = 0 then
      if dtype = e.dtype && dvalue = e.dvalue then some (e, none) else none
    else if destStatus s e.tenant dtype dvalue = St.ok then some (e, some { e with dtype := dtype, dvalue := dvalue })
    else none

/-- The 16-byte entries of a write, with their offsets. -/
def dmaChunks (off : Nat) (data : List Byte) : List (Nat × Nat) :=
  (List.range (data.length / 16)).map fun i => (off + 16 * i, leNat (sliceBytes data (16 * i) 16))

/-- Commit one entry of a DMA write. -/
def dmaCommit (die : DieId) (c : FmtEntry × Option FmtEntry) (s : State) : State :=
  match c.2 with
  | none => modFmt die (fun l => l.erase c.1) s
  | some e => modFmt die (fun l => l.map fun x => if x = c.1 then e else x) s

/-- Discard a DMA write whole: it is counted, and TABLE_DMA_REJECT is raised at most once per second per die. -/
def dmaReject (die : DieId) (s : State) : State :=
  raiseLimited Ev.tableDmaReject die (dieNum die) (Time.sec 1) [.u8 (dieNum die)]
    (bump 3 (64 * dieNum die) Cn.dmaReject 1 s)

/-- A write outside the windows of BAR2 (R357). -/
def strayWrite (s : State) : State := bump 0 0 Cn.strayWrites 1 s

def dmaWrite (p : PortId) (addr : Nat) (data : List Byte) (s : State) : State :=
  match fmtWindow? addr with
  | none => strayWrite s
  | some (die, off) =>
    if off % 16 != 0 || data.length % 16 != 0 || data.isEmpty || 0x400000 < off + data.length then dmaReject die s
    else
      match (dmaChunks off data).mapM fun c => dmaEntry s p die c.1 c.2 with
      | none => dmaReject die s
      | some l => forAll l (dmaCommit die) s

def execTableDmaWrite (dt : Nat) (port : PortId) (addr : Nat) (data : List Byte) (s : State) :
    Host.Outcome State Fault Refusal :=
  let s := tick dt s
  .next (if linkOf s port then dmaWrite port addr data s else s)

/-! ### Notices, hold windows and ageing (R225 to R229) -/

/-- Where a die's notices, OMCI records or launch records go: 0 port A, 1 port B, 2 the Atelier. -/
def destPort (n : Nat) : Option PortId := if n = 0 then some .a else if n = 1 then some .b else none

/-- A session of a port is open. -/
def hasSession (s : State) (p : PortId) : Bool := (List.range 16).any fun r => (ringOf s p r).session.isSome

def noticesOf (s : State) : DieId → List Notice
  | .east => s.tab.noticeE
  | .west => s.tab.noticeW
def noticeSeq (s : State) : DieId → Word
  | .east => s.tab.noticeSeqE
  | .west => s.tab.noticeSeqW
/-- Add a notice to a die's ring and advance its sequence. -/
def addNotice (d : DieId) (n : Notice) (s : State) : State :=
  match d with
  | .east => { s with tab := { s.tab with noticeE := s.tab.noticeE ++ [n], noticeSeqE := s.tab.noticeSeqE + 1 } }
  | .west => { s with tab := { s.tab with noticeW := s.tab.noticeW ++ [n], noticeSeqW := s.tab.noticeSeqW + 1 } }

/-- Write a notice to the die's ring, or drop and count it: the destination port has no session, or the ring is full (R228). -/
def issueNotice (die : DieId) (kind tenant : Nat) (dir : Dir) (vid mac bank srcA srcB : Nat) (s : State) : State :=
  let obj := 64 * dieNum die + tenant
  let dest := destPort ((cfgOf s).valN Kind.die (dieNum die) Fld.dieNoticeDest)
  let n : Notice := ⟨kind, tenant, die, dir, vid, mac, bank, srcA, srcB, baseNs s 0, noticeSeq s die⟩
  match dest with
  | some p =>
    if !hasSession s p then bump 3 obj Cn.noSession 1 s
    else if Config.noticeMax ≤ (noticesOf s die).length then
      raiseLimited Ev.learnRingFull die (dieNum die) (Time.sec 1) [.u8 (dieNum die)] (bump 3 obj Cn.noticeFull 1 s)
    else fireDelivery p .notice (addNotice die n s)
  | none =>
    if Config.noticeMax ≤ (noticesOf s die).length then
      raiseLimited Ev.learnRingFull die (dieNum die) (Time.sec 1) [.u8 (dieNum die)] (bump 3 obj Cn.noticeFull 1 s)
    else addNotice die n s

/-- The open hold window of a key. -/
def holdOf (s : State) (die : DieId) (tenant vid mac : Nat) : Option HoldEnt :=
  s.tab.holds.find? fun h => h.die == die && h.tenant == tenant && h.vid == vid && h.mac == mac

/-- A LEARN or MOVE notice is due: the hold store decides whether it is issued, becomes CONTENTION or is only counted (R226). -/
def learnNotice (die : DieId) (kind tenant : Nat) (dir : Dir) (vid mac bank src srcB : Nat) (s : State) : State :=
  let obj := 64 * dieNum die + tenant
  match holdOf s die tenant vid mac with
  | none =>
    if Config.holdMax ≤ (s.tab.holds.filter fun h => h.die == die).length then
      raiseLimited Ev.holdStoreFull die (dieNum die) (Time.sec 1) [.u8 (dieNum die)] (bump 3 obj Cn.holdFull 1 s)
    else
      issueNotice die kind tenant dir vid mac bank src srcB
        { s with tab := { s.tab with holds := s.tab.holds ++ [⟨die, tenant, vid, mac, src, s.now, false⟩] } }
  | some h =>
    if h.source = src then bump 3 obj Cn.learnSuppressed 1 s
    else if h.contended then bump 3 obj Cn.contention 1 s
    else
      issueNotice die 3 tenant dir vid mac 0 h.source src
        { s with tab := { s.tab with holds := s.tab.holds.map fun x => if x = h then { h with contended := true } else x } }

/-- What a source check finds (R225). -/
inductive SourceRes
  | fine
  | staticMove
  deriving DecidableEq, Repr

/-- The source of a frame as an entry's destination: FLOW and the flow handle upstream, PORT and the port index downstream. -/
def srcOf (dir : Dir) (v : Nat) : Nat :=
  match dir with
  | .up => srcFlow v
  | .down => srcPort v
/-- An entry's destination as a notice source. -/
def entrySrc (e : FmtEntry) : Nat := if e.dtype = 1 then srcPort e.dvalue else srcFlow e.dvalue
def sameDest (dir : Dir) (v : Nat) (e : FmtEntry) : Bool :=
  match dir with
  | .up => e.dtype == 0 && e.dvalue == v
  | .down => e.dtype == 1 && e.dvalue == v

/-- Set HIT in an entry. -/
def setHit (die : DieId) (e : FmtEntry) (s : State) : State :=
  modFmt die (fun l => l.map fun x => if x = e then { e with hit := true } else x) s

/-- The source check of a frame: learning, HIT and moves (R225). -/
def sourceCheck (die : DieId) (tenant : Nat) (dir : Dir) (vid mac v : Nat) (e? : Option FmtEntry) (s : State) :
    SourceRes × State :=
  match e? with
  | none => (.fine, learnNotice die 1 tenant dir vid mac 0 (srcOf dir v) 0 s)
  | some e =>
    if sameDest dir v e then (.fine, setHit die e s)
    else if e.isStatic then (.staticMove, s)
    else (.fine, learnNotice die 2 tenant dir vid mac e.bank (srcOf dir v) (entrySrc e) (setHit die e s))

/-- A hold window closes 1 ms after it opened, and the device forgets the address (R226). -/
def execHoldWindowClose (dt : Nat) (die : DieId) (tenant vid mac : Nat) (s : State) : Host.Outcome State Fault Refusal :=
  let s := tick dt s
  .next <|
    match holdOf s die tenant vid mac with
    | none => s
    | some h =>
      if h.opened + Time.ms 1 ≤ s.now then { s with tab := { s.tab with holds := s.tab.holds.erase h } } else s

/-- The age sweep looks at the dynamic entries whose destination lies on the die (R229). -/
def sweeps (s : State) (die : DieId) (e : FmtEntry) : Bool := !e.isStatic && destDie? s e.dtype e.dvalue == some die

/-- The direction in which the frames of an entry's address travel: upstream for a flow, downstream for a port. -/
def entryDir (e : FmtEntry) : Dir := if e.dtype = 1 then .down else .up

def ageSweep (die : DieId) (s : State) : State :=
  let aged := (fmtOf s die).filter fun e => sweeps s die e && !e.hit
  let s := modFmt die (fun l => l.map fun e => if sweeps s die e then { e with hit := false } else e) s
  let s := { s with tab := { s.tab with lastAge := s.tab.lastAge.set (dieNum die) s.now } }
  forAll aged (fun e => issueNotice die 4 e.tenant (entryDir e) e.vid e.mac e.bank (entrySrc e) 0) s

def execAgeSweep (dt : Nat) (die : DieId) (s : State) : Host.Outcome State Fault Refusal :=
  let s := tick dt s
  let period := Time.sec ((cfgOf s).valN Kind.die (dieNum die) Fld.dieAgeS)
  .next <| if s.tab.lastAge.getD (dieNum die) 0 + period ≤ s.now then ageSweep die s else s

end Sys2Proof.Machine
end

