-- ==== Sys2Proof/Machine/Rules.lean ====
section
/-! DEFINITION. What a configuration may hold: the rules that a baste or a stitch is rejected for (R13, R34, R52, R54, R58, R60, R83, R104, R130 to R132, R163, R179, R181, R184, R194, R205, R216, R219, R224, R244, R245, R248, R283, R341, R342). -/

namespace Sys2Proof.Machine
open Sys2Proof

/-! ### Records over a configuration -/

/-- An object of a configuration, or the untouched one. -/
def objOr (c : Cfg) (kind num : Nat) : Obj := (c.obj? kind num).getD { kind := kind, num := num }

/-- The hints a record carries: a pin, if any, and the forbidden locations. -/
def recPin (r : BasteRec) (cur : Option Nat) : Option Nat :=
  if r.pin = 0xFFFFFFFF then none else if r.pin = 0xFFFFFFFE then cur else some r.pin

/-- The field that holds an identifier the device chooses (R54). -/
def idField (kind : Nat) : Option Nat :=
  if kind = Kind.alloc then some Fld.alAllocId else if kind = Kind.flow then some Fld.flPort else none

/-- The fields of a staged record with the identifier the device chose. -/
def recFields (r : StagedRec) : List (Nat × Int) :=
  match r.chosen, idField r.body.kind with
  | some v, some f => setField r.eff f v
  | _, _ => r.eff

/-- What a record makes of a configuration. -/
def applyRec (c : Cfg) (r : StagedRec) : Cfg :=
  let k := objKey r.body.kind r.num
  let o := objOr c r.body.kind r.num
  if r.body.op = 3 then c.del k
  else if r.body.op = 1 then
    c.set k { kind := r.body.kind, num := r.num, fields := setFields [] (recFields r), pin := recPin r.body none,
              forbid := r.body.forbid }
  else
    c.set k { o with fields := setFields o.fields (recFields r),
                     pin := if r.body.pin = 0xFFFFFFFF then o.pin else recPin r.body o.pin,
                     forbid := if r.body.forbid.isEmpty then o.forbid else r.body.forbid }

def applyRecs (c : Cfg) (l : List StagedRec) : Cfg := l.foldl applyRec c

/-- The configuration that the current and pending stitches leave (R35, R54). -/
def leftCfg (s : State) : Cfg := s.stitch.pend.foldl (fun c p => applyRecs c p.recs) s.stitch.cfg

/-- The configuration that the staging set would leave. -/
def stagedCfg (s : State) : Cfg := applyRecs (leftCfg s) s.stitch.staging

/-- The configuration with everything that the staging set creates or changes, and nothing that it deletes. -/
def namedCfg (s : State) : Cfg := applyRecs (leftCfg s) (s.stitch.staging.filter fun r => r.body.op != 3)

/-! ### Terminals, channels and identifiers -/

/-- The channels that a terminal's record allows: 0 either, 1 wide, 2 narrow (R71). -/
def allowedChannels (c : Cfg) (t : Nat) : List Nat :=
  let tree := c.valN Kind.terminal t Fld.trmTree
  match c.valN Kind.terminal t Fld.trmAllow with
  | 1 => [wideOf tree]
  | 2 => [narrowOf tree]
  | _ => [wideOf tree, narrowOf tree]

/-- The upstream rates that a terminal's record allows on the wide channel. -/
def allowedRates (c : Cfg) (t : Nat) : List Rate :=
  wideRates.filter fun r => bitsOf (c.valN Kind.terminal t Fld.trmRates) (rateBit r) (rateBit r) == 1

/-- The lowest rate of a terminal that is not activated, on a channel (R132). -/
def lowestRate (c : Cfg) (t ch : Nat) : Rate := if isWide ch then (allowedRates c t).headD .r12 else .r9
/-- The highest rate that a terminal's record allows. -/
def highestRate (c : Cfg) (t : Nat) : Rate :=
  if (allowedChannels c t).any isWide then (allowedRates c t).getLastD .r49 else .r9

/-- Bytes per 125 µs frame at a line rate (R130). -/
def lineBytes (r : Rate) : Nat := rateKbps r / 64

/-- The terminal that an identifier's owner belongs to. -/
def ownerTerm (c : Cfg) (kind num : Nat) : Nat :=
  if kind = Kind.alloc then c.valN Kind.alloc num Fld.alTerm else c.valN Kind.flow num Fld.flTerm

/-- Two lists share an element. -/
def meets (a b : List Nat) : Bool := a.any fun x => b.contains x

/-- An identifier of an allocation or a flow is bound on one of some channels, other than by one object. -/
def idBound (c : Cfg) (kind fld : Nat) (chans : List Nat) (v : Nat) (but : Option Nat) : Bool :=
  (c.ofKind kind).any fun o =>
    some o.num != but && c.val kind o.num fld == (v : Int) && meets (allowedChannels c (ownerTerm c kind o.num)) chans

/-- A record of the staging set has chosen or named an identifier for another object (R54). -/
def idStaged (s : State) (kind fld : Nat) (chans : List Nat) (v : Nat) (but : Option Nat) : Bool :=
  s.stitch.staging.any fun r =>
    r.body.kind == kind && r.body.op != 3 && some r.num != but
      && (r.chosen == some v || r.body.fields.contains (fld, (v : Int)))
      && meets (allowedChannels (namedCfg s) (ownerTerm (namedCfg s) kind r.num)) chans

/-- An identifier is free for a choice: not bound in the configuration that the current and pending stitches leave, and not
touched by a record of the staging set (R54, R55). -/
def idFree (s : State) (kind fld : Nat) (chans : List Nat) (v : Nat) (but : Option Nat) : Bool :=
  !idBound s.stitch.cfg kind fld chans v but && !idBound (leftCfg s) kind fld chans v but
    && !idBound (namedCfg s) kind fld chans v but && !idStaged s kind fld chans v but

/-- The assignable range of an identifier (Table 2.2). -/
def idRange (kind : Nat) : Nat × Nat := if kind = Kind.alloc then (1024, 16383) else (1021, 65534)

/-- The first of `n` values from `v` on that passes a test. -/
def firstFrom (p : Nat → Bool) : Nat → Nat → Option Nat
  | 0, _ => none
  | n + 1, v => if p v then some v else firstFrom p n (v + 1)

/-- The lowest free value of an identifier (R54). -/
def chooseId (s : State) (kind fld : Nat) (chans : List Nat) : Option Nat :=
  firstFrom (fun v => idFree s kind fld chans v none) ((idRange kind).2 + 1 - (idRange kind).1) (idRange kind).1

/-- An ONU-ID is held by another terminal on a shared channel: named by its record or assigned (R54, R71). -/
def onuHeld (s : State) (c : Cfg) (chans : List Nat) (v : Nat) (t : Nat) : Bool :=
  ((c.ofKind Kind.terminal).any fun o =>
    o.num != t && c.val Kind.terminal o.num Fld.trmOnu == (v : Int) && meets (allowedChannels c o.num) chans)
  || s.pon.terms.any fun p =>
      p.1 != t && p.2.onu == some v && (meets (allowedChannels c p.1) chans || (p.2.ch.map chans.contains).getD false)

/-! ### Service times (R132) -/

/-- The time in ps that bytes take at an upstream rate with FEC: LDPC (17280,14592) on a wide channel, RS(248,216) on a
narrow one while its profile's FEC is on. -/
def serviceTime (wide fec : Bool) (r : Rate) (bytes : Nat) : Time :=
  let raw := bytes * 8 * 10 ^ 9
  if wide then ceilDiv (raw * 17280) (rateKbps r * 14592)
  else if fec then ceilDiv (raw * 248) (rateKbps r * 216)
  else ceilDiv raw (rateKbps r)

/-- A field of the long (0) or short (1) profile of a rate: guard 0, preamble 1, delimiter 2; in ns. -/
def profNs (c : Cfg) (ch : Nat) (r : Rate) (short : Bool) (i : Nat) : Nat :=
  c.valN Kind.channel ch (Fld.chProfile (rateNum r) (3 * bit short + i))
def profOverheadNs (c : Cfg) (ch : Nat) (r : Rate) (short : Bool) : Nat :=
  profNs c ch r short 0 + profNs c ch r short 1 + profNs c ch r short 2
def profFec (c : Cfg) (ch : Nat) (r : Rate) : Bool := c.on Kind.channel ch (Fld.chProfile (rateNum r) 6)

/-- The upstream rates of a channel. -/
def channelRates (ch : Nat) : List Rate := if isWide ch then wideRates else [.r9]

/-! ### Destinations and templates -/

/-- A static destination's target exists and may be named (R219, R224, R245). A missing target passes when `lenient`. -/
def destRule (c : Cfg) (lenient : Bool) (tenant dtype dvalue : Nat) : Bool :=
  match dtype with
  | 0 =>
    if c.has Kind.flow dvalue then
      c.valN Kind.flow dvalue Fld.flTenant == tenant && decide (0 ≤ c.val Kind.flow dvalue Fld.flQueue)
    else lenient
  | 1 => if 64 ≤ dvalue then false else c.has Kind.subport dvalue || lenient
  | 2 => if c.has Kind.group dvalue then c.valN Kind.group dvalue Fld.grTenant == tenant else lenient
  | 3 => dvalue == tenant
  | 4 => dvalue == 0
  | _ => false

/-- The longest expansion of a template byte: items 1 to 7 (HEADEND, TREE, CHAN, ONU, SN, VID, PCP), or literal text (R244). -/
def itemLength (b : Byte) : Nat :=
  match b.toNat with
  | 0 => 0
  | 1 => 32
  | 2 => 3
  | 3 => 3
  | 4 => 4
  | 5 => 12
  | 6 => 4
  | 7 => 1
  | _ => 1
/-- The bytes of a template held in a field. -/
def templateOf (v : Nat) : List Byte := (leBytes 64 v).filter fun b => b != 0
def templateLength (v : Nat) : Nat := ((templateOf v).map itemLength).sum

/-- The width in bits of a key profile's field by its code: 1 destination and 2 source MAC, 3–5 MPLS labels, 6 PPPoE session,
7 and 8 IPv4 addresses, 9 DSCP and ECN, 10 protocol, 11 and 12 IPv6 addresses, 13 flow label, 14 and 15 ports, 16 TCP flags,
17 ICMP, 18 flow handle, and 100,000,000 + 100,000 × anchor + 100 × offset + n for a payload window (Table 7.4, R195). -/
def keyFieldWidth (code : Nat) : Nat :=
  if 100000000 ≤ code then 8 * (code % 100) + 1
  else
    match code with
    | 1 => 48
    | 2 => 48
    | 3 => 24
    | 4 => 24
    | 5 => 24
    | 6 => 16
    | 7 => 32
    | 8 => 32
    | 9 => 8
    | 10 => 8
    | 11 => 128
    | 12 => 128
    | 13 => 20
    | 14 => 16
    | 15 => 16
    | 16 => 8
    | 17 => 16
    | 18 => 20
    | _ => 0

/-- A field code of Table 7.4: a window has 1 to 16 bytes at an offset of 0 to 255 from one of three anchors. -/
def keyFieldOk (code : Nat) : Bool :=
  if 100000000 ≤ code then
    decide (1 ≤ code % 100 ∧ code % 100 ≤ 16 ∧ code % 100000 / 100 ≤ 255 ∧ code % 100000000 / 100000 < 3 ∧ code < 200000000)
  else decide (code ≤ 18)

/-- The fields of a key profile in order. -/
def profileCodes (c : Cfg) (num : Nat) : List Nat :=
  ((List.range 40).map fun i => c.valN Kind.keyProfile num (Fld.kpField i)).filter fun x => x != 0

/-- A profile exists: profile 0 of each die, and every profile that a record has set. -/
def profileDefined (c : Cfg) (num : Nat) : Bool := num % 16 == 0 || (c.obj? Kind.keyProfile num).isSome

/-- The tenant selectors of a direction that name a profile. -/
def selectedIn (c : Cfg) (dir p : Nat) : Bool :=
  (List.range 64).any fun t => (List.range 4).any fun l => c.valN Kind.tenant t (Fld.tnSelector dir l) == p

/-! ### The rules of one object -/

/-- m × 10⁻ⁿ of one pair is above that of another (R58). -/
def ratioAbove (m n m' n' : Nat) : Bool := decide (m' * 10 ^ n < m * 10 ^ n')

/-- A profile pair of a channel keeps the limits of R60. -/
def profileOk (c : Cfg) (ch : Nat) (r : Rate) : Bool :=
  decide (32 ≤ profNs c ch r false 0) && decide (32 ≤ profNs c ch r true 0) && decide (16 ≤ profNs c ch r true 1)
    && decide (profNs c ch r true 1 ≤ profNs c ch r false 1) && decide (profOverheadNs c ch r false ≤ 1024)
    && decide (profOverheadNs c ch r true ≤ 1024)

/-- The shortest guard time of a channel's profiles in ns. -/
def shortestGuard (c : Cfg) (ch : Nat) : Nat :=
  ((channelRates ch).flatMap fun r => [profNs c ch r false 0, profNs c ch r true 0]).foldl min 1024

def channelRule (s : State) (c : Cfg) (ch : Nat) : Bool :=
  let v := c.valN Kind.channel ch
  let pon := c.val Kind.channel ch Fld.chPonId
  ratioAbove (v Fld.chFailM) (v Fld.chFailN) (v Fld.chDegM) (v Fld.chDegN)
    && (channelRates ch).all (profileOk c ch)
    && decide (v Fld.chCueLead + 8000 ≤ 1000 * min (shortestGuard c ch) (shortestGuard s.stitch.cfg ch))
    && decide (v Fld.chCueWidth + 4000 ≤ v Fld.chCueLead)
    && decide (v Fld.chFreshMs < 60000 * v Fld.chDiscardMin)
    && (pon < 0 || !((List.range 512).any fun x => x != ch && c.val Kind.channel x Fld.chPonId == pon))

def shaperRule (c : Cfg) (kind num : Nat) : Bool :=
  let cir := c.valN kind num Fld.shCir
  (cir == 0 || decide (64 ≤ cir)) && decide (cir ≤ c.valN kind num Fld.shPir)

/-- The queue's yellow limit: half the green one where none is set (Table 6.4). -/
def yellowLimit (c : Cfg) (q : Nat) : Nat :=
  let y := c.val Kind.queue q Fld.qYellow
  if y < 0 then c.valN Kind.queue q Fld.qGreen / 2 else y.toNat

/-- A queue is one of its channel's two privileged queues (R168). -/
def privileged (s : State) (q : Nat) : Bool := s.pon.channels.any fun p => p.2.expressQ == some q || p.2.mgmtQ == some q

/-- The channel of a privileged queue. -/
def privChannel? (s : State) (q : Nat) : Option Nat :=
  (List.find? (fun p : Nat × Channel => p.2.expressQ == some q || p.2.mgmtQ == some q) s.pon.channels).map (·.1)

/-- A flow may enter its queue: the node's terminal and tenant are its own, or the queue is privileged and its channel one
that the terminal's record allows (R163, R169). -/
def flowQueueRule (s : State) (c : Cfg) (lenient : Bool) (fl : Nat) : Bool :=
  let q := c.val Kind.flow fl Fld.flQueue
  if q < 0 then true
  else
    match privChannel? s q.toNat with
    | some ch => (allowedChannels c (c.valN Kind.flow fl Fld.flTerm)).contains ch
    | none =>
      if c.has Kind.queue q.toNat then
        c.valN Kind.queue q.toNat Fld.qSub == 64 * c.valN Kind.flow fl Fld.flTerm + c.valN Kind.flow fl Fld.flTenant
      else lenient

/-- The flows bound to a policer belong to its tenant and die (R179). -/
def flowPolicerRule (c : Cfg) (lenient : Bool) (fl : Nat) : Bool :=
  let p := c.val Kind.flow fl Fld.flPolicer
  if p < 0 then true
  else if c.has Kind.policer p.toNat then
    c.valN Kind.policer p.toNat Fld.poTenant == c.valN Kind.flow fl Fld.flTenant
      && (!c.has Kind.terminal (c.valN Kind.flow fl Fld.flTerm)
          || dieNum (dieOfTree (c.valN Kind.terminal (c.valN Kind.flow fl Fld.flTerm) Fld.trmTree)) == p.toNat / 65536)
  else lenient

def policerRule (c : Cfg) (p : Nat) : Bool :=
  let v := c.valN Kind.policer p
  let burstOk := fun (rate burst : Nat) => !(burst == 0 && rate != 0) && (burst == 0 || decide (1536 ≤ burst))
  burstOk (v Fld.poCir) (v Fld.poCbs) && burstOk (v Fld.poPir) (v Fld.poPbs)
    && !(v Fld.poMode == 0 && decide (v Fld.poPir < v Fld.poCir))

/-- The capacity of a quota's table on a die: VLAN records, flow/MAC, IPv4 and IPv6 prefixes, next hops (Table 8.1). -/
def tableCapacity (table : Nat) : Nat := [16384, 262144, 131072, 32768, 16384].getD table 0

def tenantRule (c : Cfg) (t : Nat) : Bool :=
  decide (templateLength (c.valN Kind.tenant t Fld.tnCircuit) ≤ 63)
    && decide (templateLength (c.valN Kind.tenant t Fld.tnRemote) ≤ 63)
    && (List.range 8).all (fun i =>
        let p := c.valN Kind.tenant t (Fld.tnSelector 0 0 + i)
        profileDefined c p || profileDefined c (16 + p))
    && (List.range 2).all (fun d => (List.range 5).all fun k =>
        decide (((List.range 64).map fun x => c.valN Kind.tenant x (Fld.tnQuota d k)).sum ≤ tableCapacity k))

def rowRule (c : Cfg) (lenient : Bool) (r : Nat) : Bool :=
  let v := c.val Kind.row r
  let die := c.valN Kind.row r Fld.rwDie
  let dir := c.valN Kind.row r Fld.rwDir
  let pol := v Fld.rwPolicer
  let rec_ := v Fld.rwRecirc
  let polOk :=
    if pol < 0 then true
    else if c.has Kind.policer pol.toNat then
      pol.toNat / 65536 == die && c.valN Kind.policer pol.toNat Fld.poTenant == c.valN Kind.row r Fld.rwTenant
    else lenient
  let recOk :=
    if rec_ < 0 then true
    else if profileDefined c (16 * die + rec_.toNat) then !(selectedIn c (1 - dir) rec_.toNat && !selectedIn c dir rec_.toNat)
    else lenient
  !(dir == 0 && decide (0 ≤ pol)) && polOk && recOk

/-- The lanes of a sub-port (Table 13.5). -/
def subportWidth (c : Cfg) (p : Nat) : Nat := c.valN Kind.subport p Fld.spRate / 100
def subportLanes (c : Cfg) (p : Nat) : List Nat := (List.range (subportWidth c p)).map (· + p)

def subportRule (c : Cfg) (p : Nat) : Bool :=
  let w := subportWidth c p
  [1, 2, 4, 8].contains w && p % 8 % w == 0 && decide (p % 8 + w ≤ 8)
    && (c.ofKind Kind.subport).all (fun o => o.num == p || !meets (subportLanes c o.num) (subportLanes c p))

/-- A base does not name itself, directly or through a chain (R283). -/
def baseChain (c : Cfg) : Nat → Nat → Nat → Bool
  | 0, _, _ => false
  | n + 1, start, b =>
    if c.valN Kind.timeBase b Fld.tbSource != 4 then true
    else
      let x := c.valN Kind.timeBase b Fld.tbArg
      if x = start then false else baseChain c n start x

def profileRule (c : Cfg) (num : Nat) : Bool :=
  let codes := profileCodes c num
  codes.all keyFieldOk
    && decide ((codes.map keyFieldWidth).sum ≤ if c.on Kind.keyProfile num Fld.kpWide then 549 else 229)

def laneRule (c : Cfg) (l : Nat) : Bool :=
  let v := fun f => (c.val Kind.lane l f).natAbs
  decide (27 + v Fld.laC3 + v Fld.laC2 + v Fld.laC1 + v Fld.laC0p ≤ 50)

/-- The rule of a target: it exists and the condition holds, or it does not exist and the reading is lenient. -/
def target (lenient exists_ cond : Bool) : Bool := if exists_ then cond else lenient

/-- An object of a configuration keeps the rules of its chapter. A reference to an object that does not exist passes when
`lenient` (at baste) and fails otherwise (at the stitch, R34). -/
def objectRule (s : State) (c : Cfg) (lenient : Bool) (kind num : Nat) : Bool :=
  let v := c.valN kind num
  match kind with
  | 1 => decide (s.stitch.cfg.valN Kind.device 0 Fld.devMinPairing ≤ v Fld.devMinPairing
      ∧ (leftCfg s).valN Kind.device 0 Fld.devMinPairing ≤ v Fld.devMinPairing)
  | 2 => decide (v Fld.dieNearLow < v Fld.dieNearHigh)
  | 4 => decide (v Fld.treeLMin < v Fld.treeLMax ∧ v Fld.treeLMax ≤ v Fld.treeLMin + 400)
  | 5 => channelRule s c num
  | 7 =>
    let sum := v Fld.alFixed + v Fld.alAssured
    target lenient (c.has Kind.terminal (v Fld.alTerm))
      (let line := lineBytes (highestRate c (v Fld.alTerm))
       let m := c.val kind num Fld.alMax
       decide (sum ≤ line) && (m < 0 || decide ((sum : Int) ≤ m ∧ m ≤ line)))
  | 8 => shaperRule c kind num && (c.has Kind.terminal (num / 64) || lenient)
  | 9 =>
    decide (yellowLimit c num ≤ v Fld.qGreen) && shaperRule c kind num
      && (privileged s num || target lenient (c.has Kind.subscriber (v Fld.qSub))
          (decide (((c.ofKind Kind.queue).filter fun o => c.valN Kind.queue o.num Fld.qSub == v Fld.qSub).length ≤ 64)))
  | 10 =>
    (c.has Kind.terminal (v Fld.flTerm) || lenient) && flowQueueRule s c lenient num && flowPolicerRule c lenient num
  | 11 => shaperRule c kind num
  | 12 => policerRule c num && (c.ofKind Kind.flow).all fun o => flowPolicerRule c true o.num
  | 13 => tenantRule c num
  | 14 =>
    let g := c.val kind num Fld.vlGroup
    g < 0 || target lenient (c.has Kind.group g.toNat)
      (c.valN Kind.group g.toNat Fld.grTenant == v Fld.vlTenant && c.valN Kind.group g.toNat Fld.grDie == v Fld.vlDie)
  | 15 => destRule c lenient (v Fld.fsTenant) (v Fld.fsDtype) (v Fld.fsDvalue)
  | 16 =>
    decide (v Fld.pxLen ≤ if c.on kind num Fld.pxV6 then 128 else 32)
      && target lenient (c.has Kind.nextHop (16384 * v Fld.pxDie + v Fld.pxHop))
          (c.valN Kind.nextHop (16384 * v Fld.pxDie + v Fld.pxHop) Fld.nhTenant == v Fld.pxTenant)
  | 17 => destRule c lenient (v Fld.nhTenant) (v Fld.nhDtype) (v Fld.nhDvalue)
      && (c.ofKind Kind.prefix_).all fun o =>
          16384 * c.valN Kind.prefix_ o.num Fld.pxDie + c.valN Kind.prefix_ o.num Fld.pxHop != num
            || c.valN Kind.prefix_ o.num Fld.pxTenant == v Fld.nhTenant
  | 18 => rowRule c lenient num
  | 19 => profileRule c num
  | 21 => subportRule c num
  | 24 =>
    target lenient (c.has Kind.group (v Fld.lgGroup))
      (match v Fld.lgKind with
       | 0 => decide (v Fld.lgValue < 512)
       | 1 => destRule c lenient (c.valN Kind.group (v Fld.lgGroup) Fld.grTenant) 0 (v Fld.lgValue)
       | _ => destRule c lenient 0 1 (v Fld.lgValue))
  | 25 =>
    match v Fld.mpPlace with
    | 0 => c.has Kind.flow (v Fld.mpValue) || lenient
    | 1 => decide (v Fld.mpValue < 512 * 4096)
    | _ => c.has Kind.subport (v Fld.mpValue) || lenient
  | 26 => baseChain c 9 num num
  | 28 =>
    let l := c.val kind num Fld.rcLane
    l < 0 || lenient || (c.ofKind Kind.subport).any fun o => (subportLanes c o.num).contains l.toNat
  | 29 => v Fld.ptState == 0 || c.has Kind.subport num || lenient
  | 30 => decide (v Fld.foLow + 1 ≤ v Fld.foHigh)
  | 31 => (List.range 64).all fun p => bitsOf (v Fld.fiTargets) p p == 0 || c.has Kind.subport p || lenient
  | 32 => laneRule c num
  | 33 => !c.on kind num Fld.saEnabled || c.has Kind.subport (num / 36) || lenient
  | _ => true

/-- The staged configuration still names a sub-port (R342). -/
def portNamed (c : Cfg) (p : Nat) : Bool :=
  (c.obj? Kind.tenantMap p).isSome
    || (c.ofKind Kind.fmtStatic).any (fun o =>
        c.valN Kind.fmtStatic o.num Fld.fsDtype == 1 && c.valN Kind.fmtStatic o.num Fld.fsDvalue == p)
    || (c.ofKind Kind.nextHop).any (fun o =>
        c.valN Kind.nextHop o.num Fld.nhDtype == 1 && c.valN Kind.nextHop o.num Fld.nhDvalue == p)
    || c.valN Kind.ptpPort p Fld.ptState != 0
    || (List.range 36).any (fun i => c.on Kind.sa (36 * p + i) Fld.saEnabled)
    || (List.range 8).any (fun i => bitsOf (c.valN Kind.fcIn i Fld.fiTargets) p p == 1)
    || (c.ofKind Kind.leg).any (fun o => c.valN Kind.leg o.num Fld.lgKind == 2 && c.valN Kind.leg o.num Fld.lgValue == p)
    || (List.range 2).any (fun i =>
        let l := c.val Kind.rclk i Fld.rcLane
        decide (0 ≤ l) && (subportLanes c p).contains l.toNat)

/-! ### Capacities and quotas -/

/-- The die that an object counts against. -/
def objDie (s : State) (c : Cfg) (kind num : Nat) : DieId :=
  let v := c.valN kind num
  let ofTerm := fun t => dieOfTree (c.valN Kind.terminal t Fld.trmTree)
  match kind with
  | 6 => dieOfTree (v Fld.trmTree)
  | 7 => ofTerm (v Fld.alTerm)
  | 8 => ofTerm (num / 64)
  | 9 =>
    match privChannel? s num with
    | some ch => dieOfChannel ch
    | none => ofTerm (v Fld.qSub / 64)
  | 10 => ofTerm (v Fld.flTerm)
  | 12 => dieOf (num / 65536)
  | 14 => dieOf (v Fld.vlDie)
  | 16 => dieOf (v Fld.pxDie)
  | 17 => dieOf (num / 16384)
  | 18 => dieOf (v Fld.rwDie)
  | 23 => dieOf (v Fld.grDie)
  | 24 => dieOf (c.valN Kind.group (v Fld.lgGroup) Fld.grDie)
  | 25 => dieOf (v Fld.mpDie)
  | _ => .east

def countOn (s : State) (c : Cfg) (kind : Nat) (d : DieId) : Nat :=
  ((c.ofKind kind).filter fun o => objDie s c kind o.num == d).length

/-- The per-die capacity of a kind (Tables 1.1, 8.1, R245, R248). -/
def dieCapacity (kind : Nat) : Option Nat :=
  match kind with
  | 6 => some 32768
  | 7 => some 131072
  | 8 => some 32768
  | 9 => some 131072
  | 10 => some 524288
  | 12 => some 65536
  | 14 => some 16384
  | 17 => some 16384
  | 23 => some 16384
  | 24 => some 262144
  | 25 => some 2048
  | _ => none

/-- The allocations of a die, its terminals' default ones among them (R131). -/
def dieCount (s : State) (c : Cfg) (kind : Nat) (d : DieId) : Nat :=
  if kind = Kind.alloc then countOn s c Kind.alloc d + countOn s c Kind.terminal d else countOn s c kind d

/-- The rows of a die fit beside their pleats: narrow ones 31 to a group, wide ones 15 pairs to a group (R200). -/
def rowsFit (c : Cfg) (d : DieId) : Bool :=
  let rows := (c.ofKind Kind.row).filter fun o => c.valN Kind.row o.num Fld.rwDie == dieNum d
  let wide := rows.filter fun o => c.on Kind.keyProfile (16 * dieNum d + c.valN Kind.row o.num Fld.rwProfile) Fld.kpWide
  decide (ceilDiv (rows.length - wide.length) 31 + ceilDiv wide.length 15 ≤ 512)

/-- A tree holds at most 256 terminal objects (R4, R70). -/
def treeFits (c : Cfg) (tree : Nat) : Bool :=
  decide (((c.ofKind Kind.terminal).filter fun o => c.valN Kind.terminal o.num Fld.trmTree == tree).length ≤ 256)

/-- A replication group has at most 1,024 legs (R245). -/
def groupFits (c : Cfg) (g : Nat) : Bool :=
  decide (((c.ofKind Kind.leg).filter fun o => c.valN Kind.leg o.num Fld.lgGroup == g).length ≤ 1024)

/-- The end points of a die keep the limits of Table 9.3. -/
def mepsFit (s : State) (c : Cfg) (d : DieId) : Bool :=
  let l := (c.ofKind Kind.mep).filter fun o => objDie s c Kind.mep o.num == d
  let n := fun i => (l.filter fun o => c.valN Kind.mep o.num Fld.mpInterval == i).length
  decide (n 0 ≤ 128 ∧ n 1 ≤ 512 ∧ l.length ≤ 2048)

/-- The prefixes of a die fit their pools. -/
def prefixesFit (c : Cfg) (d : DieId) : Bool :=
  let n := fun v6 => ((c.ofKind Kind.prefix_).filter fun o =>
    c.valN Kind.prefix_ o.num Fld.pxDie == dieNum d && c.on Kind.prefix_ o.num Fld.pxV6 == v6).length
  decide (n false ≤ 131072 ∧ n true ≤ 32768)

/-- Every capacity of a die holds. -/
def dieFits (s : State) (c : Cfg) (d : DieId) : Bool :=
  (List.range 34).all (fun k => match dieCapacity k with | some n => decide (dieCount s c k d ≤ n) | none => true)
    && mepsFit s c d && prefixesFit c d

/-- A tenant's stitched entries of a quota's table on a die. -/
def quotaUse (c : Cfg) (table : Nat) (d : DieId) (t : Nat) : Nat :=
  match table with
  | 0 => ((c.ofKind Kind.vlan).filter fun o =>
      c.valN Kind.vlan o.num Fld.vlTenant == t && c.valN Kind.vlan o.num Fld.vlDie == dieNum d).length
  | 1 => ((c.ofKind Kind.fmtStatic).filter fun o =>
      c.valN Kind.fmtStatic o.num Fld.fsTenant == t
        && (maskDies (c.valN Kind.fmtStatic o.num Fld.fsDies)).contains d).length
  | 2 => ((c.ofKind Kind.prefix_).filter fun o => c.valN Kind.prefix_ o.num Fld.pxTenant == t
      && c.valN Kind.prefix_ o.num Fld.pxDie == dieNum d && !c.on Kind.prefix_ o.num Fld.pxV6).length
  | 3 => ((c.ofKind Kind.prefix_).filter fun o => c.valN Kind.prefix_ o.num Fld.pxTenant == t
      && c.valN Kind.prefix_ o.num Fld.pxDie == dieNum d && c.on Kind.prefix_ o.num Fld.pxV6).length
  | _ => ((c.ofKind Kind.nextHop).filter fun o =>
      c.valN Kind.nextHop o.num Fld.nhTenant == t && o.num / 16384 == dieNum d).length

/-- The quotas that a kind's object counts against, as table and tenant. -/
def quotaTables (c : Cfg) (kind num : Nat) : Option (Nat × Nat) :=
  match kind with
  | 14 => some (0, c.valN kind num Fld.vlTenant)
  | 15 => some (1, c.valN kind num Fld.fsTenant)
  | 16 => some (if c.on kind num Fld.pxV6 then 3 else 2, c.valN kind num Fld.pxTenant)
  | 17 => some (4, c.valN kind num Fld.nhTenant)
  | _ => none

/-- A tenant keeps its quota of a table on both dies; its dynamic flow/MAC entries count too (R216). -/
def quotaKept (s : State) (c : Cfg) (table t : Nat) : Bool :=
  [DieId.east, .west].all fun d =>
    let dyn := if table = 1 then ((fmtOf s d).filter fun e => e.tenant == t && !e.isStatic).length else 0
    decide (quotaUse c table d t + dyn ≤ c.valN Kind.tenant t (Fld.tnQuota (dieNum d) table))

/-! ### The grant-budget test (R132) -/

/-- The channels on which a terminal's allocations are counted, each with its upstream rate (R132). -/
def countedOn (s : State) (c : Cfg) (t : Nat) : List (Nat × Rate) :=
  let x := termOf s t
  match x.ch with
  | some ch => if registered x.st then [(ch, x.rate)] else (allowedChannels c t).map fun ch => (ch, lowestRate c t ch)
  | none => (allowedChannels c t).map fun ch => (ch, lowestRate c t ch)

/-- The hint ceiling in force (R130). -/
def hintCeiling (c : Cfg) (a : Nat) : Nat := if c.on Kind.alloc a Fld.alExpress then c.valN Kind.alloc a Fld.alHint else 0

/-- R_F, R_A and hint ceiling of an allocation, in bytes per frame. -/
def allocClaim (c : Cfg) (a : Nat) : Nat := c.valN Kind.alloc a Fld.alFixed + c.valN Kind.alloc a Fld.alAssured + hintCeiling c a

/-- The assured rate of a channel's default allocations, in bytes per frame (R131). -/
def defaultClaim (c : Cfg) (ch : Nat) : Nat := c.valN Kind.channel ch Fld.chDefAssured / 64

/-- The terminals counted on a channel, with their rates. -/
def termsOnChannel (s : State) (c : Cfg) (ch : Nat) : List (Nat × Rate) :=
  (c.ofKind Kind.terminal).filterMap fun o => ((countedOn s c o.num).find? fun x => x.1 == ch).map fun x => (o.num, x.2)

def allocsOfTerm (c : Cfg) (t : Nat) : List Nat :=
  ((c.ofKind Kind.alloc).map (·.num)).filter fun a => c.valN Kind.alloc a Fld.alTerm == t

/-- A terminal holds a fixed or express allocation. -/
def holdsGuaranteed (c : Cfg) (t : Nat) : Bool :=
  (allocsOfTerm c t).any fun a => c.valN Kind.alloc a Fld.alFixed != 0 || c.on Kind.alloc a Fld.alExpress

/-- The time in ps that a channel's claims take of each frame. -/
def channelClaim (s : State) (c : Cfg) (ch : Nat) : Time :=
  ((termsOnChannel s c ch).map fun (t, r) =>
    let bytes := (allocsOfTerm c t).map fun a => serviceTime (isWide ch) (profFec c ch r) r (allocClaim c a)
    bytes.sum + serviceTime (isWide ch) (profFec c ch r) r (defaultClaim c ch)
      + if holdsGuaranteed c t then 1000 * profOverheadNs c ch r false else 0).sum

/-- A channel keeps the per-channel limits of R132. -/
def channelFits (s : State) (c : Cfg) (ch : Nat) : Bool :=
  let ts := (termsOnChannel s c ch).map (·.1)
  let n := ts.length + ((ts.map fun t => (allocsOfTerm c t).length).sum)
  decide (n ≤ 2048) && decide (channelClaim s c ch ≤ Time.us 100)
    && decide ((ts.filter (holdsGuaranteed c)).length ≤ if isWide ch then 40 else 32)

/-- The configured grant budget in bytes per frame (R149). -/
def budgetBytes (c : Cfg) : Nat := c.valN Kind.device 0 Fld.devBudgetMbps * 125 / 8

/-- The sum of all claims across the device keeps the grant budget (R132). -/
def budgetFits (c : Cfg) : Bool :=
  decide (((c.ofKind Kind.alloc).map fun o => allocClaim c o.num).sum
    + ((c.ofKind Kind.terminal).map fun o => defaultClaim c ((allowedChannels c o.num).headD 0)).sum ≤ budgetBytes c)

/-- A stitch that enables a channel with no PON-ID fails (R52). -/
def enabledHasPonId (c : Cfg) (ch : Nat) : Bool :=
  !c.on Kind.channel ch Fld.chEnable || decide (0 ≤ c.val Kind.channel ch Fld.chPonId)

/-! ### Hints (R20, R24, R373, Table 1.3) -/

/-- The location exists, and objects of the kind may occupy it. -/
def locAllowed (s : State) (c : Cfg) (kind num loc : Nat) : Bool :=
  let p := locPlace loc
  let d := objDie s c kind num
  match kind with
  | 6 => locType loc == 1 && decide (p < 512) && p / 32 == clusterOfTree (c.valN Kind.terminal num Fld.trmTree)
  | 9 => locType loc == 2 && decide (p < 4) && p / 2 == dieNum d && !(privileged s num && p % 2 == 1)
  | 10 => locType loc == 3 && decide (p < 192) && p / 96 == dieNum d
  | 33 => locType loc == 3 && decide (p < 192) && p / 96 == dieNum (dieOfPort (num / 36))
  | 15 => locType loc == 4 && bitsOf p 26 24 == 0 && decide (p % 65536 < 16)
      && (maskDies (c.valN Kind.fmtStatic num Fld.fsDies)).contains (dieOf (p / 2 ^ 27))
  | 18 => locType loc == 4 && bitsOf p 26 24 == 1 && decide (p % 65536 < 512) && p / 2 ^ 27 == dieNum d
  | _ => false

/-- All the locations of a kind's object. -/
def allLocs (s : State) (c : Cfg) (kind num : Nat) : List Nat :=
  let d := objDie s c kind num
  match kind with
  | 6 => (List.range 32).map fun i => locBobbin (32 * clusterOfTree (c.valN Kind.terminal num Fld.trmTree) + i)
  | 9 => if privileged s num then [locPan d false] else [locPan d false, locPan d true]
  | 10 => (List.range 96).map fun i => locLane (96 * dieNum d + i)
  | 33 => (List.range 96).map fun i => locLane (96 * dieNum (dieOfPort (num / 36)) + i)
  | 15 => (maskDies (c.valN Kind.fmtStatic num Fld.fsDies)).flatMap fun d => (List.range 16).map (locFmtBank d)
  | 18 => (List.range 512).map (locRowGroup d)
  | _ => []

/-- The hints of an object are acceptable at baste (R20, R24). -/
def hintsOk (s : State) (c : Cfg) (kind num : Nat) : Bool :=
  match c.obj? kind num with
  | none => true
  | some o =>
    o.forbid.all (locAllowed s c kind num)
      && match o.pin with
         | none => true
         | some l => locAllowed s c kind num l && !o.forbid.contains l

/-- The hints leave the object a feasible location (R24, R34). -/
def hintsFeasible (s : State) (c : Cfg) (kind num : Nat) : Bool :=
  match c.obj? kind num with
  | none => true
  | some o =>
    o.forbid.isEmpty || (allLocs s c kind num).any fun l => !o.forbid.contains l

end Sys2Proof.Machine
end

