-- ==== Sys2Proof/Machine/Pans.lean ====
section
/-! DEFINITION. The pans and what waits in them: occupancy, admission to queues and port classes, the near-pan watermark and the flow-control outputs (R158 to R161, R166, R172, R184, R185). -/

namespace Sys2Proof.Machine
open Sys2Proof

/-! ### The bank of the pipelines -/

/-- The pending stitch whose window is open. -/
def openStitch? (s : State) : Option PendStitch := s.stitch.pend.find? fun p => p.opened

/-- The stitch number of the bank that the pipelines use. -/
def bankStitch (s : State) : StitchNo := ((openStitch? s).map (·.number)).getD s.stitch.current

/-! ### Where a queue lies -/

/-- The channel that a queue serves: a privileged queue's own, otherwise the channel of its node's terminal (R163, R168). -/
def queueChan? (s : State) (q : Nat) : Option Nat :=
  match privChannel? s q with
  | some ch => some ch
  | none =>
    let t := (cfgOf s).valN Kind.queue q Fld.qSub / 64
    match (termOf s t).ch with
    | some ch => some ch
    | none => (allowedChannels (cfgOf s) t).head?

def queueDie (s : State) (q : Nat) : DieId := objDie s (cfgOf s) Kind.queue q

/-- The length of a frame, from the destination address to the FCS. -/
def Frame.len (f : Frame) : Nat := f.bytes.length

/-- The counted length of a frame: with its 8-byte XGEM header (R165). -/
def Frame.counted (f : Frame) : Nat := f.len + 8

def framesLen (l : List Frame) : Nat := (l.map Frame.len).sum

/-- The bytes that a queue holds, in both instances of a move. -/
def queueLen (x : Queue) : Nat := framesLen (x.frames ++ x.oldFrames)

/-! ### Cells (R158, R160) -/

def cellBytes (deep : Bool) : Nat := if deep then 512 else 256

/-- The cells that frames occupy in a pan. -/
def cellsOf (deep : Bool) (l : List Frame) : Nat := (l.map fun f => ceilDiv f.len (cellBytes deep)).sum

/-- The key of a port's class on a die (R161). -/
def classKey (die : DieId) (port cls : Nat) : Nat := 1024 * dieNum die + 8 * port + cls

/-- The upstream frames that wait in a die's near pan. -/
def upstreamFrames (s : State) (die : DieId) : List Frame :=
  (s.q.ports.filter fun p => p.1 / 1024 == dieNum die).flatMap (·.2)

/-- The timed frames that wait in a pan: a port's in the near pan of its die, a channel's in the pan of their queue. -/
def launchFrames (s : State) (die : DieId) (deep : Bool) : List Frame :=
  (s.q.launches.flatMap fun p => p.2.filter fun l =>
    if 512 ≤ p.1 then !deep && dieOfPort (p.1 - 512) == die
    else dieOfChannel p.1 == die && (queueOf s l.queue).deep == deep).map (·.frame)

/-- The cells of a pan that its queues occupy. -/
def queueCells (s : State) (die : DieId) (deep : Bool) : Nat :=
  ((s.q.queues.filter fun p => queueDie s p.1 == die).map fun p =>
    cellsOf deep (if p.2.deep == deep then p.2.frames else p.2.oldFrames)).sum

/-- The occupied cells of a pan. -/
def panCells (s : State) (die : DieId) (deep : Bool) : Nat :=
  queueCells s die deep + cellsOf deep (launchFrames s die deep) + if deep then 0 else cellsOf false (upstreamFrames s die)

def panSize (deep : Bool) : Nat := if deep then Config.deepCells else Config.nearCells

/-- Pan occupancy in bytes. -/
def panBytes (s : State) (die : DieId) (deep : Bool) : Nat := panCells s die deep * cellBytes deep

/-- The frame finds its cells free. -/
def panRoom (s : State) (die : DieId) (deep : Bool) (f : Frame) : Bool :=
  decide (panCells s die deep + ceilDiv f.len (cellBytes deep) ≤ panSize deep)

/-- A frame that finds no free cell is dropped and counted; PAN_FULL at most once per second per pan (R160). -/
def panDrop (die : DieId) (deep : Bool) (s : State) : State :=
  raiseLimited Ev.panFull die (2 * dieNum die + bit deep) (Time.sec 1) [.u8 (dieNum die), .u8 (bit deep)]
    (bump 0 (dieNum die) (Cn.panFull deep) 1 s)

/-! ### Flow-control outputs (R184, R185) -/

/-- The queued bytes of a channel: every queue that it serves. -/
def channelBytes (s : State) (ch : Nat) : Nat :=
  ((s.q.queues.filter fun p => queueChan? s p.1 == some ch).map fun p => queueLen p.2).sum

/-- The queued bytes of a service node: the queues of its tenant's nodes on its channel. -/
def nodeBytes (s : State) (node : Nat) : Nat :=
  ((s.q.queues.filter fun p =>
    (privChannel? s p.1).isNone && queueChan? s p.1 == some (node / 64)
      && (cfgOf s).valN Kind.queue p.1 Fld.qSub % 64 == node % 64).map fun p => queueLen p.2).sum

/-- The upstream backlog of a port on both dies. -/
def portBytes (s : State) (port : Nat) : Nat :=
  framesLen ([DieId.east, .west].flatMap fun d => (List.range 8).flatMap fun c => s.q.ports.getD (classKey d port c) [])

/-- The level of an FC_OUT pin's source; none for a pin without one. -/
def fcLevel (s : State) (pin : Nat) : Option Nat :=
  let arg := (cfgOf s).valN Kind.fcOut pin Fld.foArg
  match (cfgOf s).valN Kind.fcOut pin Fld.foSource with
  | 1 => some (panBytes s .east false)
  | 2 => some (panBytes s .west false)
  | 3 => some (panBytes s .east true)
  | 4 => some (panBytes s .west true)
  | 5 => some (channelBytes s arg)
  | 6 => some (nodeBytes s arg)
  | 7 => some (portBytes s arg)
  | _ => none

def fcMark (s : State) (pin fld : Nat) : Nat := 4096 * (cfgOf s).valN Kind.fcOut pin fld

/-- One FC_OUT pin follows its source: active at the high watermark, inactive at the low one or below once it has been active
for the minimum hold; every activation is counted. -/
def fcPin (pin : Nat) (s : State) : State :=
  let x := s.q.fcOut.getD pin {}
  let set : FcOut → State := fun y => { s with q := { s.q with fcOut := s.q.fcOut.set pin y } }
  match fcLevel s pin with
  | none => if x.active then set { x with active := false } else s
  | some v =>
    if !x.active && decide (fcMark s pin Fld.foHigh ≤ v) then
      bump 0 0 (Cn.fcOutAsserts pin) 1 (set ⟨true, s.now⟩)
    else if x.active && decide (v ≤ fcMark s pin Fld.foLow)
        && decide (x.since + Time.us ((cfgOf s).valN Kind.fcOut pin Fld.foHoldUs) ≤ s.now) then
      set { x with active := false }
    else s

def fcUpdate (s : State) : State := forAll (List.range 8) fcPin s

/-! ### The near-pan watermark (R159) -/

def nearMark (s : State) (die : DieId) (fld : Nat) : Nat := 2 ^ 20 * (cfgOf s).valN Kind.die (dieNum die) fld

/-- A stitch that is pending touches the object (R23). -/
def touched (s : State) (kind num : Nat) : Bool :=
  s.stitch.pend.any fun p => p.recs.any fun r => r.body.kind == kind && r.num == num

/-- The deep pan of a die is faulted. -/
def deepFaulted (s : State) (die : DieId) : Bool := s.q.deepFault.getD (dieNum die) false

/-- A queue may move from the near to the deep pan for load: ordinary, unpinned, not forbidden there, not moving, and touched
by no pending stitch (R20, R23, R159). -/
def mayGoDeep (s : State) (die : DieId) (q : Nat) : Bool :=
  let o := objOr (cfgOf s) Kind.queue q
  !privileged s q && o.pin.isNone && !o.forbid.contains (locPan die true) && !touched s Kind.queue q
    && !deepFaulted s die
    && match placeOf? s Kind.queue q with
       | some p => p.moving.isNone && p.loc == locPan die false
       | none => false

/-- Insert by length, greatest first. -/
def insertLen (x : Nat × Nat) : List (Nat × Nat) → List (Nat × Nat)
  | [] => [x]
  | y :: t => if y.2 < x.2 then x :: y :: t else y :: insertLen x t

/-- The queues of a near pan that may move, with their occupancy in bytes of the pan, greatest first. -/
def movable (s : State) (die : DieId) : List (Nat × Nat) :=
  ((s.q.queues.filter fun p => mayGoDeep s die p.1 && !p.2.frames.isEmpty).map fun p =>
    (p.1, cellsOf false p.2.frames * 256)).foldl (fun a x => insertLen x a) []

/-- Take queues until the bytes chosen reach what must go. -/
def takeUntil (need : Nat) : List (Nat × Nat) → List Nat
  | [] => []
  | (q, n) :: t => if need = 0 then [] else q :: takeUntil (need - n) t

/-- A queue starts its move to the other pan: what it holds drains from the old instance (R21). -/
def moveQueue (die : DieId) (deep fault : Bool) (q : Nat) (s : State) : State :=
  let s := modQueue q (fun x => { x with oldFrames := x.oldFrames ++ x.frames, frames := [], deep := deep }) s
  match placeOf? s Kind.queue q with
  | none => s
  | some p => startMove p (locPan die deep) fault s

/-- The near pan of a die stands at its high watermark: NEAR_PAN_HIGH, and the moves that would bring it to the low one (R159). -/
def nearCheck (die : DieId) (s : State) : State :=
  let occ := panBytes s die false
  let mark : Bool → State → State := fun b s => { s with q := { s.q with nearHigh := s.q.nearHigh.set (dieNum die) b } }
  if occ < nearMark s die Fld.dieNearHigh then
    if s.q.nearHigh.getD (dieNum die) false then mark false s else s
  else if s.q.nearHigh.getD (dieNum die) false then s
  else
    let s := raise Ev.nearPanHigh die [.u8 (dieNum die)] (mark true s)
    forAll (takeUntil (occ - nearMark s die Fld.dieNearLow) (movable s die)) (moveQueue die true false) s

/-- What follows a change of the pans' contents. -/
def settlePans (s : State) : State := fcUpdate (nearCheck .west (nearCheck .east s))

/-! ### Admission (R166, R172) -/

/-- The limit of a queue for a colour; at most 16 MiB in a near pan (Table 6.4). -/
def queueLimit (s : State) (q colour : Nat) : Nat :=
  let l := if colour = 0 then (cfgOf s).valN Kind.queue q Fld.qGreen else yellowLimit (cfgOf s) q
  if (queueOf s q).deep then l else min l (2 ^ 24)

/-- Count a drop of a queue by colour. -/
def queueDrop (q : Nat) (f : Frame) (s : State) : State :=
  bump 11 q Cn.qDropBytes f.len (bump 11 q Cn.qDropFrames 1 (bump 11 q (Cn.qColourDrops f.colour) 1 s))

/-- Frames to a SHADOW channel are discarded until a new holder opens its queues (R327). -/
def shadowDrop (s : State) (ch : Nat) : Bool := (chOf s ch).st == .shadow && !s.twin.held

/-- A frame enters its queue, or is dropped: to a SHADOW channel, above its channel's maximum frame, red, above the limit of its colour, or without
a free cell. -/
def admitQueue (q : Nat) (f : Frame) (s : State) : State :=
  let x := queueOf s q
  let max := (queueChan? s q).map fun ch => (ch, chValN s ch Fld.chMaxFrame)
  match max with
  | some (ch, m) =>
    if shadowDrop s ch then bump 7 ch Cn.shadowDiscards 1 s
    else if m < f.len then bump 7 ch Cn.oversize 1 s
    else if f.colour = 2 then queueDrop q f s
    else if queueLimit s q f.colour < queueLen x + f.len then queueDrop q f s
    else if !panRoom s (queueDie s q) x.deep f then panDrop (queueDie s q) x.deep s
    else
      settlePans (bump 11 q Cn.qEnqBytes f.len (bump 11 q Cn.qEnqFrames 1
        (modQueue q (fun x => { x with frames := x.frames ++ [f] }) s)))
  | none => queueDrop q f s

/-- An upstream frame enters its class at its port in a die's near pan, or is dropped: above the die's upstream limit, or
without a free cell (R161). -/
def admitClass (die : DieId) (port : Nat) (f : Frame) (s : State) : State :=
  let k := classKey die port f.cls
  if 2 ^ 20 * (cfgOf s).valN Kind.die (dieNum die) Fld.dieUpLimit
      < 256 * (cellsOf false (upstreamFrames s die) + ceilDiv f.len 256) then
    bump 8 port Cn.upDrops 1 (bump 8 port (Cn.classDrops f.cls) 1 s)
  else if !panRoom s die false f then panDrop die false s
  else
    settlePans { s with q := { s.q with ports := s.q.ports.set k (s.q.ports.getD k [] ++ [f]) } }

end Sys2Proof.Machine
end

