-- ==== Sys2Proof/Machine/Mcast.lean ====
section
/-! DEFINITION. Multicast membership, the groups that snooping builds and the frames that services send (R169, R234, R245 to R247). -/

namespace Sys2Proof.Machine
open Sys2Proof

/-! ### Frames that a service originates -/

/-! What a service frame is, for the standards that lay it out. -/
namespace Svc
def report : Nat := 0
def query : Nat := 1
def groupQuery : Nat := 2
def currentState : Nat := 3
def ccm : Nat := 4
def lbm : Nat := 5
def ltm : Nat := 6
def lbr : Nat := 7
def ltr : Nat := 8
def probe : Nat := 9
end Svc

/-- A service's frame towards the network leaves at the tenant's uplink destination; only the holder of the token sends. -/
def toNetwork (die : DieId) (tenant cls : Nat) (bytes : List Byte) (s : State) : State :=
  let port := (cfgOf s).valN Kind.tenant tenant Fld.tnUplink
  let f : Frame := { bytes := bytes, dir := .up, tenant := tenant, stitch := bankStitch s, cls := cls, arrival := baseNs s 0 }
  if s.twin.held then { s with q := { s.q with transit := s.q.transit ++ [⟨f, .port port, die⟩] } } else s

/-- A service's frame towards terminals leaves through the channel's management queue (R169). -/
def toManagement (ch : Nat) (f : Frame) (s : State) : State :=
  match (chOf s ch).mgmtQ with
  | none => s
  | some q => if s.twin.held then admitQueue q { f with stitch := bankStitch s, arrival := baseNs s 0 } s else s

/-- A frame for a tenant's terminals of a channel. -/
def toTenantOn (ch tenant : Nat) (bytes : List Byte) (s : State) : State :=
  toManagement ch { bytes := bytes, kind := .mcast, tenant := tenant } s

/-- The channels of a die where frames of a tenant may have receivers: ACTIVE ones with a registered terminal that has a flow
of the tenant. -/
def tenantChannels (s : State) (die : DieId) (tenant : Nat) : List Nat :=
  (List.range Config.nChannels).filter fun ch =>
    dieOfChannel ch == die && (chOf s ch).st == .active
      && (chTerms s ch).any fun t =>
          (termTenantFlows s t).any fun o => (cfgOf s).valN Kind.flow o.num Fld.flTenant == tenant

/-! ### Groups (R245, R246) -/

/-- The group MAC address of an IPv4 or IPv6 group. -/
def groupMac (g : Nat) : Nat := if g < 2 ^ 32 then 0x01005E000000 + g % 2 ^ 23 else 0x333300000000 + g % 2 ^ 32

/-- The number that a tenant and VLAN have among a terminal's memberships. -/
def memKey (tenant vid : Nat) : Nat := 4096 * tenant + vid

/-- A terminal is a member of a group. -/
def isMember (x : Terminal) (key g : Nat) : Bool := x.groups.any fun m => m.1 == key && m.2.1 == g

/-- A terminal of a channel is a member of some group with the MAC address. -/
def chHasMember (s : State) (ch key mac : Nat) : Bool :=
  s.pon.terms.any fun p => p.2.ch == some ch && p.2.groups.any fun m => m.1 == key && groupMac m.2.1 == mac

/-- The record of a snooped group on a die. -/
def snooped? (s : State) (die : DieId) (tenant vid mac : Nat) : Option McastGroup :=
  s.svc.groups.find? fun x => x.die == die && x.tenant == tenant && x.vid == vid && x.mac == mac

def sameGroup (x y : McastGroup) : Bool := x.tenant == y.tenant && x.vid == y.vid && x.mac == y.mac

/-- The replication groups and the legs of a die: the stitched ones and the snooped ones. -/
def dieGroups (s : State) (die : DieId) : Nat :=
  (((cfgOf s).ofKind Kind.group).filter fun o => (cfgOf s).valN Kind.group o.num Fld.grDie == dieNum die).length
    + (s.svc.groups.filter fun x => x.die == die).length
def dieLegs (s : State) (die : DieId) : Nat :=
  (((cfgOf s).ofKind Kind.leg).filter fun o =>
      (cfgOf s).valN Kind.group ((cfgOf s).valN Kind.leg o.num Fld.lgGroup) Fld.grDie == dieNum die).length
    + ((s.svc.groups.filter fun x => x.die == die).map fun x => x.legs.length).sum

/-- Both dies have room for one more leg, and for one more group. -/
def legRoom (s : State) : Bool := [DieId.east, .west].all fun d => decide (dieLegs s d < 262144)
def groupRoom (s : State) : Bool := [DieId.east, .west].all fun d => decide (dieGroups s d < 16384)

/-- Write a group's GROUP entry on a die; none when the tenant's partition has no place. A key that has an entry keeps it. -/
def placeGroup (die : DieId) (tenant vid mac num : Nat) (s : State) : Option State :=
  if (fmtFind s die tenant vid mac).isSome then some s
  else if quotaOf s die tenant 1 ≤ tableUse s die tenant then none
  else
    let e : FmtEntry := { mac := mac, vid := vid, tenant := tenant, dtype := 2, dvalue := num }
    let put : State → Nat × Nat → State := fun s x => modFmt die (fun l => { e with bank := x.1, index := x.2 } :: l) (drawn s)
    match placeFor s die tenant (fmtKey tenant vid mac) with
    | some x => some (put s x)
    | none => (makeRoom s die tenant (fmtKey tenant vid mac)).map fun r => put r.1 r.2

/-- Remove a group's own entry on a die. -/
def unplaceGroup (die : DieId) (x : McastGroup) (s : State) : State :=
  modFmt die (fun l => l.filter fun e => !(sameKey e x.tenant x.vid x.mac && e.dtype == 2 && e.dvalue == x.num)) s

/-- The number of a new group: the head of the pool of group numbers. -/
def groupPool (s : State) : Pool := s.stitch.pools.getD (2 * Kind.group) {}
def takeGroupNum (s : State) : Option (Nat × State) :=
  let p := groupPool s
  let keep : Pool → State := fun p => { s with stitch := { s.stitch with pools := s.stitch.pools.set (2 * Kind.group) p } }
  if p.next < p.size then some (p.next, keep { p with next := p.next + 1 })
  else
    match p.freed with
    | [] => none
    | x :: t => some (x, keep { p with freed := t })
def giveGroupNum (n : Nat) (s : State) : State :=
  let p := groupPool s
  { s with stitch := { s.stitch with pools := s.stitch.pools.set (2 * Kind.group) { p with freed := p.freed ++ [n] } } }

/-- A state-change report to the network as proxy (R247). -/
def stateChange (die : DieId) (tenant vid g : Nat) (join : Bool) (s : State) : State :=
  toNetwork die tenant 0 (Config.serviceBytes Svc.report [tenant, vid, g, bit join]) s

/-- Create a group with one channel leg on both dies; none when there is no room. -/
def newGroup (ch tenant vid mac : Nat) (s : State) : Option State := do
  if !(groupRoom s && legRoom s) then none
  else
    let (n, s) ← takeGroupNum s
    let s ← placeGroup .east tenant vid mac n s
    let s ← placeGroup .west tenant vid mac n s
    return { s with svc := { s.svc with groups := s.svc.groups ++ [⟨.east, tenant, vid, mac, n, [ch]⟩, ⟨.west, tenant, vid, mac, n, [ch]⟩] } }

/-- Give a group a leg for a channel; none when there is no room. -/
def addLeg (x : McastGroup) (ch : Nat) (s : State) : Option State :=
  if x.legs.contains ch then some s
  else if !legRoom s || 1024 ≤ x.legs.length then none
  else
    some { s with svc := { s.svc with
      groups := s.svc.groups.map fun y => if sameGroup x y then { y with legs := y.legs ++ [ch] } else y } }

/-- Some terminal is a member of the group address. -/
def hasMember (s : State) (key g : Nat) : Bool := s.pon.terms.any fun p => isMember p.2 key g

/-- A terminal reports a group: its membership begins or is refreshed (R246, R247). -/
def join (t ch tenant vid : Nat) (s : State) (g : Nat) : State :=
  let x := termOf s t
  let key := memKey tenant vid
  let die := dieOfTerm s t
  let obj := 64 * dieNum die + tenant
  if isMember x key g then
    let s := { s with svc := { s.svc with leaves := s.svc.leaves.filter fun l =>
      !(l.term == t && memKey l.tenant l.vid == key && l.group == g) } }
    modTerm t (fun x => { x with groups := x.groups.map fun m => if m.1 == key && m.2.1 == g then (key, g, s.now) else m }) s
  else if (cfgOf s).valN Kind.tenant tenant Fld.tnMcastLimit ≤ x.groups.length then
    raise Ev.mcastLimit die [.u16 t] (bump 4 obj Cn.mcastLimit 1 s)
  else
    let first := !hasMember s key g
    let made := match snooped? s die tenant vid (groupMac g) with
      | some y => addLeg y ch s
      | none => newGroup ch tenant vid (groupMac g) s
    match made with
    | none => raiseLimited Ev.mcastTableFull die (dieNum die) (Time.sec 1) [.u8 (dieNum die)] (bump 4 obj Cn.mcastFull 1 s)
    | some s =>
      let s := modTerm t (fun x => { x with groups := x.groups ++ [(key, g, s.now)] }) s
      doIf first (stateChange die tenant vid g true) s

/-- A group without legs is given up on both dies. -/
def dropGroup (x : McastGroup) (s : State) : State :=
  let s := unplaceGroup .west x (unplaceGroup .east x s)
  giveGroupNum x.num { s with svc := { s.svc with groups := s.svc.groups.filter fun y => !sameGroup x y } }

/-- A channel's leg ends when no terminal of the channel is a member any more. -/
def settleLeg (ch key mac : Nat) (s : State) : State :=
  if chHasMember s ch key mac then s
  else
    let groups := s.svc.groups.map fun y =>
      if memKey y.tenant y.vid == key && y.mac == mac then { y with legs := y.legs.filter (· != ch) } else y
    let s := { s with svc := { s.svc with groups := groups } }
    match groups.find? fun y => memKey y.tenant y.vid == key && y.mac == mac with
    | none => s
    | some y => if y.legs.isEmpty then dropGroup y s else s

/-- End one membership of a terminal on a channel (R246, R247). -/
def endMember (t ch : Nat) (m : Nat × Nat × Time) (s : State) : State :=
  let s := modTerm t (fun x => { x with groups := x.groups.filter fun y => !(y.1 == m.1 && y.2.1 == m.2.1) }) s
  let s := { s with svc := { s.svc with leaves := s.svc.leaves.filter fun l =>
    !(l.term == t && memKey l.tenant l.vid == m.1 && l.group == m.2.1) } }
  let s := settleLeg ch m.1 (groupMac m.2.1) s
  doIf (!hasMember s m.1 m.2.1) (stateChange (dieOfTerm s t) (m.1 / 4096) (m.1 % 4096) m.2.1 false) s

/-- A terminal leaves its channel: every membership ends. -/
def endMemberships (t : Nat) (s : State) : State :=
  match (termOf s t).ch with
  | none => s
  | some ch => forAll (termOf s t).groups (endMember t ch) s

end Sys2Proof.Machine
end

