-- ==== Sys2Proof/Machine/Staging.lean ====
section
/-! DEFINITION. Basting, discarding and stitching: the staging set, the handle pools and the acceptance of a stitch (R6, R27 to R38, R54, R316, R330, R371, R372). -/

namespace Sys2Proof.Machine
open Sys2Proof

/-! ### Handle pools (R6) -/

/-- The value at the head of a pool, and the pool without it. -/
def Pool.take (p : Pool) : Option (Nat × Pool) :=
  if p.next < p.size then some (p.next, { p with next := p.next + 1 })
  else
    match p.freed with
    | [] => none
    | x :: t => some (x, { p with freed := t })

/-- A value joins the tail of its pool. -/
def Pool.give (v : Nat) (p : Pool) : Pool := { p with freed := p.freed ++ [v] }

/-- The kinds whose numbers are issued on each die: policers and classifier rows. -/
def perDie (kind : Nat) : Bool := kind == Kind.policer || kind == Kind.row

/-- The kinds whose numbers the device issues. -/
def isIssued (kind : Nat) : Bool :=
  [Kind.terminal, Kind.alloc, Kind.queue, Kind.flow, Kind.policer, Kind.fmtStatic, Kind.prefix_, Kind.row, Kind.group,
   Kind.leg, Kind.mep].contains kind

def poolOf (s : State) (kind d : Nat) : Pool :=
  match kind with
  | 6 => s.stitch.terms
  | 7 => s.stitch.allocs
  | 9 => s.stitch.queues
  | 10 => s.stitch.flows
  | _ => s.stitch.pools.getD (2 * kind + d) (if perDie kind then ⟨65536, 0, []⟩ else {})

def putPool (kind d : Nat) (p : Pool) (s : State) : State :=
  match kind with
  | 6 => { s with stitch := { s.stitch with terms := p } }
  | 7 => { s with stitch := { s.stitch with allocs := p } }
  | 9 => { s with stitch := { s.stitch with queues := p } }
  | 10 => { s with stitch := { s.stitch with flows := p } }
  | _ => { s with stitch := { s.stitch with pools := s.stitch.pools.set (2 * kind + d) p } }

/-- A value becomes free. -/
def freeNum (kind num : Nat) (s : State) : State :=
  if isIssued kind then
    let d := if perDie kind then num / 65536 else 0
    let v := if perDie kind then num % 65536 else num
    putPool kind d ((poolOf s kind d).give v) s
  else s

/-- The field of a record's field block, if it carries one; the last of several. -/
def recField (r : BasteRec) (f : Nat) : Option Int := ((r.fields.filter fun p => p.1 == f).getLast?).map (·.2)
def recFieldN (r : BasteRec) (f : Nat) : Nat := ((recField r f).getD 0).toNat

/-- The die that a record's issued number belongs to. -/
def recDie (r : BasteRec) : Nat :=
  if r.kind = Kind.policer then recFieldN r Fld.poDie
  else if r.kind = Kind.row then recFieldN r Fld.rwDie
  else 0

/-- The number of a created object: issued from its pool, or named by its own fields. -/
def issueNum (r : BasteRec) (s : State) : Option (Nat × State) :=
  if isIssued r.kind then
    match (poolOf s r.kind (recDie r)).take with
    | none => none
    | some (v, p) => some (if perDie r.kind then 65536 * recDie r + v else v, putPool r.kind (recDie r) p s)
  else (Schema.numberOf r.kind (recFieldN r)).map fun n => (n, s)

/-! ### Staging one record (R28 to R31, R54) -/

/-- A record sets a field of an object that an earlier record sets too. -/
def replaces (kind num : Nat) (fs : List (Nat × Int)) (r : StagedRec) : Bool :=
  r.body.kind == kind && r.num == num && r.body.op != 3 && r.eff.any fun p => fs.any fun q => q.1 == p.1

/-- An earlier record without the fields that a later one of the same object sets (R30). -/
def stripRec (kind num : Nat) (fs : List (Nat × Int)) (r : StagedRec) : StagedRec :=
  if replaces kind num fs r then { r with eff := r.eff.filter fun p => !fs.any fun q => q.1 == p.1 } else r

/-- The staging set with one more record, and whether it replaced a field of an earlier one. -/
def withRec (staging : List StagedRec) (r : StagedRec) : Bool × List StagedRec :=
  if r.body.op = 2 then
    (staging.any (replaces r.body.kind r.num r.eff), staging.map (stripRec r.body.kind r.num r.eff) ++ [r])
  else (false, staging ++ [r])

/-- Add a record to the staging set under the next record index. -/
def stageRec (body : BasteRec) (num : Nat) (chosen : Option Nat) (s : State) : Bool × State :=
  let w := withRec s.stitch.staging ⟨body, num, chosen, s.stitch.nextIndex, setFields [] body.fields⟩
  (w.1, { s with stitch := { s.stitch with staging := w.2, nextIndex := s.stitch.nextIndex + 1 } })

/-- Send one part of the staging stream to the standby (R316). -/
def stitchPart (f : Nat → SeamMsg) (s : State) : State :=
  if mirrors s then
    { seamSend 0 (f s.stitch.partNo) s with
      stitch := { s.stitch with partNo := s.stitch.partNo + 1 } }
  else s

/-! ### What a baste is turned away for -/

/-- Every field of a record is one of its kind, in range and on its step. -/
def fieldsOk (r : BasteRec) : Bool :=
  r.fields.all fun p =>
    match Schema.field? r.kind r.handle p.1 with
    | none => false
    | some f => Schema.inRange f p.2

/-- A create carries every field that has no default. -/
def hasRequired (r : BasteRec) : Bool :=
  (Schema.fields r.kind 0).all fun f => f.dflt.isSome || (recField r f.num).isSome

/-- The form of a record (Table 14.8, R372). -/
def recForm (r : BasteRec) : Bool :=
  Schema.known r.kind && decide (1 ≤ r.op ∧ r.op ≤ 3) && decide (r.forbid.length ≤ 16) && fieldsOk r
    && (r.op == 2 || (Schema.standing r.kind).isNone)
    && (r.op != 1 || hasRequired r)
    && (r.op != 2 || r.fields.all fun p => !(Schema.keyFields r.kind).contains p.1)

/-- The identifier that a record names for its allocation or flow: −1 stands for none. -/
def namedId (r : BasteRec) : Option Nat :=
  match idField r.kind with
  | none => none
  | some f =>
    match recField r f with
    | none => none
    | some v => if v < 0 then none else some v.toNat

/-- The identifier rules of a record over the configuration it would leave (R54, R71). -/
def idsOk (s : State) (c : Cfg) (kind num : Nat) (r : BasteRec) : Bool :=
  if kind = Kind.terminal then
    match recField r Fld.trmOnu with
    | none => true
    | some v =>
      v < 0 || [s.stitch.cfg, leftCfg s, namedCfg s].all fun k => !onuHeld s k (allowedChannels c num) v.toNat num
  else
    match idField kind, namedId r with
    | some f, some v =>
      decide ((idRange kind).1 ≤ v ∧ v ≤ (idRange kind).2)
        && idFree s kind f (allowedChannels c (ownerTerm c kind num)) v (some num)
    | _, _ => true

/-- The identifier that the device chooses for a created allocation or flow that names none. -/
def chosenFor (s : State) (c : Cfg) (num : Nat) (r : BasteRec) : Option Nat :=
  match idField r.kind with
  | none => none
  | some f => if r.op = 1 && (namedId r).isNone then chooseId s r.kind f (allowedChannels c (ownerTerm c r.kind num)) else none

/-- The rules of other chapters that a created or changed object must keep, and their statuses (R13, R24, R216, R371). -/
def objectStatus (s : State) (c : Cfg) (r : BasteRec) (num : Nat) : Nat :=
  if !idsOk s c r.kind num r || !objectRule s c true r.kind num then St.parameter
  else if !hintsOk s c r.kind num then St.hint
  else if r.op == 1 && !(match dieCapacity r.kind with
      | some n => decide (dieCount s c r.kind (objDie s c r.kind num) ≤ n)
      | none => true) then St.capacity
  else
    match quotaTables c r.kind num with
    | some (table, t) => if r.op == 1 && !quotaKept s c table t then St.quota else St.ok
    | none => St.ok

/-- The configuration that one more record would leave. -/
def trialCfg (s : State) (r : BasteRec) (num : Nat) (chosen : Option Nat) : Cfg :=
  applyRecs (leftCfg s) (withRec s.stitch.staging ⟨r, num, chosen, s.stitch.nextIndex, setFields [] r.fields⟩).2

/-- Stage a record, stream it to the standby and answer it. -/
def acceptRec (r : BasteRec) (num : Nat) (chosen : Option Nat) (s : State) : Served :=
  let index := s.stitch.nextIndex
  let w := stageRec r num chosen s
  let s := stitchPart (fun p => .stitchRec p r num chosen) w.2
  .done { status := if w.1 then St.okReplaced else St.ok, detail := bit w.1,
          result := (if r.op = 1 then [num] else []) ++ chosen.toList ++ [index] } s

def basteCreate (r : BasteRec) (s : State) : Served :=
  match issueNum r s with
  | none => fail St.capacity s
  | some (num, s') =>
    if (stagedCfg s).has r.kind num then fail St.parameter s
    else
      let chosen := chosenFor s (trialCfg s r num none) num r
      let c := trialCfg s r num chosen
      if (idField r.kind).isSome && (namedId r).isNone && chosen.isNone then fail St.capacity s
      else
        let st := objectStatus s c r num
        if st != St.ok then fail st s else acceptRec r num chosen s'

def basteModify (r : BasteRec) (s : State) : Served :=
  if !(stagedCfg s).has r.kind r.handle then fail St.handle s
  else
    let st := objectStatus s (trialCfg s r r.handle none) r r.handle
    if st != St.ok then fail st s else acceptRec r r.handle none s

/-- A delete: privileged queues stay for the life of the device (R168), and a sub-port that is still named stays (R342). -/
def basteDelete (r : BasteRec) (s : State) : Served :=
  if !(stagedCfg s).has r.kind r.handle then fail St.handle s
  else if (r.kind == Kind.queue && privileged s r.handle) || (r.kind == Kind.subport && portNamed (stagedCfg s) r.handle) then
    fail St.parameter s
  else acceptRec r r.handle none s

def basteBody (h : Hdr) (r : BasteRec) (s : State) : Served :=
  if h.stitch != stagingNumber s then fail St.staleStitch s
  else if Config.stagingMax ≤ s.stitch.staging.length then fail St.stagingFull s
  else if !recForm r then fail St.parameter s
  else if r.op = 1 then basteCreate r s
  else if r.op = 2 then basteModify r s
  else basteDelete r s

def execBaste (dt : Nat) (h : Hdr) (rec : BasteRec) (s : State) : Host.Outcome State Fault Refusal :=
  .next <| hostCmd dt Op.baste h (basteBody h rec) s

/-! ### Discarding (R32) -/

/-- The numbers of a staging set's creates become free, in the order of its records. -/
def freeCreates (l : List StagedRec) (s : State) : State :=
  forAll (l.filter fun r => r.body.op == 1) (fun r => freeNum r.body.kind r.num) s

/-- Empty the staging set. -/
def discardStaging (s : State) : State :=
  let s' := freeCreates s.stitch.staging s
  { s' with stitch := { s'.stitch with staging := [], nextIndex := 0 } }

def execDiscard (dt : Nat) (h : Hdr) (s : State) : Host.Outcome State Fault Refusal :=
  .next <| hostCmd dt Op.discard h (fun s =>
    .done { result := [s.stitch.staging.length] } (stitchPart .stitchDiscard (discardStaging s))) s

/-! ### Validation (R34, R35) -/

/-- A charged failure: the record index and the status. -/
abbrev Charge := Nat × Nat

/-- The last staged record that touches an object and is not a delete, or the record that carries the failure. -/
def carrier (l : List StagedRec) (kind num : Nat) : Option Nat :=
  (l.reverse.find? fun r => r.body.kind == kind && r.num == num && r.body.op != 3).map (·.index)

/-- References and hints: every object of the left configuration keeps its rules. A failure is charged to the record that
carries the reference; where none of the set does, to the last deleting record. -/
def refCharges (s : State) (c : Cfg) (l : List StagedRec) : List Charge :=
  let standing := (l.filter fun r => r.body.op != 3 && (Schema.standing r.body.kind).isSome).map fun r => (r.body.kind, r.num)
  let objs := (c.map fun p => (p.2.kind, p.2.num)) ++ standing
  let lastDel := ((l.filter fun r => r.body.op == 3).getLast?).map (·.index)
  objs.flatMap fun (k, n) =>
    let ok := objectRule s c false k n && hintsFeasible s c k n && (k != Kind.channel || enabledHasPonId c n)
    if ok then []
    else
      match carrier l k n, lastDel with
      | some i, _ => [(i, if hintsFeasible s c k n then St.validation else St.hint)]
      | none, some i => [(i, St.validation)]
      | none, none => []

/-- The limits that only the set as a whole can break, with their statuses. -/
def setLimits (s : State) (l : List StagedRec) : List ((Cfg → Bool) × Nat) :=
  let trees := (List.range 256).filter fun (t : Nat) =>
    l.any fun r => r.body.kind == Kind.terminal && (recField r.body Fld.trmTree == some (t : Int) || r.body.op == 2)
  let groups := (l.filter fun r => r.body.kind == Kind.leg).map fun r => recFieldN r.body Fld.lgGroup
  let touchesPon := l.any fun r => [Kind.device, Kind.channel, Kind.terminal, Kind.alloc].contains r.body.kind
  let quotas := (l.filter fun r => (quotaTables (namedCfg s) r.body.kind r.num).isSome || r.body.kind == Kind.tenant)
  let tenants := (List.range 64).filter fun t => quotas.any fun r =>
    (r.body.kind == Kind.tenant && r.num == t) || ((quotaTables (namedCfg s) r.body.kind r.num).map (·.2)) == some t
  [((fun c => dieFits s c .east && rowsFit c .east), St.capacity), ((fun c => dieFits s c .west && rowsFit c .west), St.capacity)]
    ++ trees.map (fun t => ((fun c => treeFits c t), St.capacity))
    ++ groups.map (fun g => ((fun c => groupFits c g), St.capacity))
    ++ (tenants.flatMap fun t => (List.range 5).map fun k => ((fun c => quotaKept s c k t), St.quota))
    ++ (if touchesPon then
          ((List.range 512).map fun ch => ((fun c => channelFits s c ch), St.validation)) ++ [(budgetFits, St.validation)]
        else [])

/-- The record at which a limit was crossed for the last time, with the records applied one after another. -/
def crossing (ok : Cfg → Bool) : Cfg → Option Nat → List StagedRec → Option Nat
  | c, at_, [] => if ok c then none else at_
  | c, at_, r :: t =>
    let c' := applyRec c r
    crossing ok c' (if ok c' then none else match at_ with | some i => some i | none => some r.index) t

/-- The failures of a set limit, if it is broken at the end. -/
def limitCharges (s : State) (l : List StagedRec) : List Charge :=
  (setLimits s l).filterMap fun (ok, st) => (crossing ok (leftCfg s) none l).map fun i => (i, st)

/-- The failure with the lowest record index. -/
def firstCharge (l : List Charge) : Option Charge :=
  l.foldl (fun a x => match a with | none => some x | some y => if x.1 < y.1 then some x else some y) none

/-- The trees that the set would leave with more than 256 terminals (R70). -/
def fullTrees (s : State) (l : List StagedRec) : List Nat :=
  let c := stagedCfg s
  (List.range 256).filter fun t => (l.any fun r => r.body.kind == Kind.terminal) && !treeFits c t

/-- The staging set changes a rate's profiles while two generations exist there (R63). -/
def profileBusy (s : State) (l : List StagedRec) : Bool :=
  l.any fun r =>
    r.body.kind == Kind.channel && r.eff.any fun p =>
      decide (40 ≤ p.1 ∧ p.1 < 72) && ((chOf s r.num).gens.getD ((p.1 - 40) / 8) {}).incoming.isSome

/-! ### Acceptance (R36 to R38, R316, R330) -/

/-- B1 of a stitch accepted now. -/
def nextB1 (s : State) : Time :=
  match s.stitch.pend.getLast? with
  | some p => p.b1 + Time.us 375
  | none => boundaryFrom s (s.now + Time.us 40)

/-- The digest that the set of records leaves. -/
def digestWith (d : BitVec 64) (number : StitchNo) (l : List StagedRec) : BitVec 64 :=
  crc64 (leBytes 8 d.toNat ++ leBytes 4 number.toNat ++ l.flatMap fun r => Config.recordBytes r.body r.num)

/-- The digest of the last accepted stitch. -/
def lastDigest (s : State) : BitVec 64 := ((s.stitch.pend.getLast?).map (·.digest)).getD s.stitch.digest

/-- An accepted stitch: pending from now until its B2. -/
def pendingStitch (s : State) (b1 : Time) : PendStitch :=
  let n := stagingNumber s
  { number := n, recs := s.stitch.staging, b1 := b1, b2 := b1 + Time.us 125,
    digest := digestWith (lastDigest s) n s.stitch.staging }

/-- A DARK channel that the set enables starts to leave Dormant (R407, R408). -/
def wakesChannel (s : State) (r : StagedRec) : Bool :=
  r.body.kind == Kind.channel && r.eff.contains (Fld.chEnable, 1) && isDark s r.num

/-- Accept the staging set as a stitch with this B1. -/
def acceptStitch (b1 : Time) (s : State) : State :=
  let p := pendingStitch s b1
  let wake := (s.stitch.staging.filter (wakesChannel s)).map (·.num)
  let s := { s with stitch := { s.stitch with pend := s.stitch.pend ++ [p], staging := [], nextIndex := 0 } }
  forAll wake (fun c => modCh c fun x => { x with readyAt := s.now + Time.ms 1 }) s

/-- The holder sends the closing part, and waits for the standby's acknowledgement while the partner is ARMED. -/
def closeSet (p : PendStitch) (s : State) : State :=
  stitchPart (fun n => .stitchClosing n p.number p.recs.length p.b1 p.digest) s

/-- The time of day of an instant on time base 0, in ns. -/
def todOf (s : State) (t : Time) : Nat := (baseVal (baseOf s 0) t / 65536).toNat

def stitchBody (h : Hdr) (s : State) : Served :=
  let l := s.stitch.staging
  if h.stitch != stagingNumber s then fail St.staleStitch s
  else if 2 ≤ s.stitch.pend.length || profileBusy s l then fail St.busy s
  else
    match firstCharge (refCharges s (stagedCfg s) l ++ limitCharges s l) with
    | some (i, st) =>
      .done { status := st, detail := i }
        (forAll (fullTrees s l) (fun t => bump 7 (wideOf t) Cn.capacityRefusals 1) s)
    | none =>
      let b1 := nextB1 s
      let p := pendingStitch s b1
      let waits := mirrors s && !s.twin.yieldIn
      let s := closeSet p (acceptStitch b1 s)
      let result := [todOf s b1]
      if waits then
        .wait (.stitchAck result) (Time.ms 2)
          { s with stitch := { s.stitch with ackDue := some (p.number, s.now + Time.us 20) } }
      else .done { result := result } s

def execStitch (dt : Nat) (h : Hdr) (yieldIn : Bool) (s : State) : Host.Outcome State Fault Refusal :=
  .next <| hostCmd dt Op.stitch h (stitchBody h) { s with twin := { s.twin with yieldIn := yieldIn } }

end Sys2Proof.Machine
end

