-- ==== Sys2Proof/Machine/Terminals.lean ====
section
/-! DEFINITION. Shared operations on a terminal: its ranging arithmetic, its keys, its OMCI requests and downloads, its entry to and exit from OPERATIONAL, and its deactivation (R105, R112, R237, R240, R261 to R268, R460). -/

namespace Sys2Proof.Machine
open Sys2Proof

/-! ### Ranging arithmetic (R104, R105, R116) -/

/-- The group indices of a channel, down and up, in units of 0.00001. -/
def groupDown (s : State) (ch : Nat) : Nat :=
  (cfgOf s).valN Kind.tree (treeOf ch) (if isWide ch then Fld.treeNWideDown else Fld.treeNNarrowDown)
def groupUp (s : State) (ch : Nat) : Nat :=
  (cfgOf s).valN Kind.tree (treeOf ch) (if isWide ch then Fld.treeNWideUp else Fld.treeNNarrowUp)
/-- S_k, the sum of the group indices. -/
def groupSum (s : State) (ch : Nat) : Nat := groupDown s ch + groupUp s ch

/-- A length in steps of 0.1 km times S_k ÷ c, in ps, rounded down (log entry 14). -/
def reachPs (s : State) (ch len : Nat) : Nat := len * 100 * groupSum s ch * 10 ^ 7 / 299792458

def treeLMin (s : State) (ch : Nat) : Nat := (cfgOf s).valN Kind.tree (treeOf ch) Fld.treeLMin
def treeLMax (s : State) (ch : Nat) : Nat := (cfgOf s).valN Kind.tree (treeOf ch) Fld.treeLMax

/-- D_k: the nominal response, the module delays and the device's own lane delays. -/
def fixedDelay (s : State) (ch : Nat) : Nat :=
  Time.us 35 + chValN s ch Fld.chModTx + chValN s ch Fld.chModRx + Config.laneDelay ch

/-- T_k, the response-time target of a channel. -/
def targetDelay (s : State) (ch : Nat) : Nat := reachPs s ch (treeLMax s ch) + fixedDelay s ch + Time.us 10

/-- The round-trip spread of the reach. -/
def reachSpread (s : State) (ch : Nat) : Nat := reachPs s ch (treeLMax s ch - treeLMin s ch)

/-- The tree's directions run on separate fibres (R123). -/
def splitPath (s : State) (tree : Nat) : Bool := (cfgOf s).on Kind.tree tree Fld.treeSplit

/-- Recompute a terminal's length in mm, one-way delay and asymmetry in ps (R116, R117, R123). -/
def recompute (t : Nat) (s : State) : State :=
  match (termOf s t).ch with
  | none => s
  | some ch =>
    let r := (termOf s t).rtd - (fixedDelay s ch : Int)
    let sk : Int := groupSum s ch
    let len := r * 299792458 * 100000 / (sk * 10 ^ 9)
    if splitPath s (treeOf ch) then
      let a := (chOf s ch).asym
      let hold := (s.pon.todUnverified.find? (treeOf ch)).isSome
      modTerm t (fun x => { x with length := len, asym := a, td := if hold then x.td else (r - a) / 2 }) s
    else
      let td := r * groupDown s ch / sk
      let tu := r * groupUp s ch / sk
      modTerm t (fun x => { x with length := len, asym := tu - td, td := td }) s

/-! ### Key Cellar slots (R261) -/

/-- Slot kinds of Table 10.3. -/
def slotData : Nat := 0
def slotIntegrity : Nat := 1
def slotExchange : Nat := 2
def slotBroadcast : Nat := 3
def slotSak : Nat := 4
def slotSeam : Nat := 5

/-- The slot of an owner, by its key. -/
def slotFor? (s : State) (die : DieId) (kind owner : Nat) : Option Nat :=
  (List.find? (fun p : Nat × KeySlot => p.1 / Config.keySlots == dieNum die && p.2.kind == kind && p.2.owner == owner)
    s.ciph.slots).map (·.1)

/-- A slot of a die is in use or in quarantine. -/
def slotTaken (s : State) (k : Nat) : Bool :=
  (s.ciph.slots.find? k).isSome
    || s.stitch.quarantined.contains (locSlot (dieOf (k / Config.keySlots)) (k % Config.keySlots))

/-- The lowest slot that is not taken, from a key on, with fuel. -/
def lowestFree (s : State) : Nat → Nat → Nat
  | 0, k => k
  | n + 1, k => if slotTaken s k then lowestFree s n (k + 1) else k

/-- The lowest free slot of a die. -/
def freeSlot (s : State) (die : DieId) : Nat :=
  lowestFree s (s.ciph.slots.length + s.stitch.quarantined.length + 1) (slotKey die 0)

/-- Change a key of an owner's slot; an owner without a slot takes the lowest free one. -/
def modKey (die : DieId) (kind owner index : Nat) (f : KeyVal → KeyVal) (s : State) : State :=
  let k := (slotFor? s die kind owner).getD (freeSlot s die)
  let x := s.ciph.slots.getD k { kind := kind, owner := owner }
  let y : KeySlot := if index = 2 then { x with key2 := f x.key2 } else { x with key1 := f x.key1 }
  modSlots (fun t => t.set k y) s

/-- A key of an owner's slot. -/
def keyOf (s : State) (die : DieId) (kind owner index : Nat) : KeyVal :=
  match slotFor? s die kind owner with
  | none => {}
  | some k =>
    let x := s.ciph.slots.getD k { kind := kind, owner := owner }
    if index = 2 then x.key2 else x.key1

/-- The index that is CURRENT, if one is. -/
def currentIndex (s : State) (die : DieId) (kind owner : Nat) : Option Nat :=
  if (keyOf s die kind owner 1).st == .current then some 1
  else if (keyOf s die kind owner 2).st == .current then some 2
  else none

/-- Clear one key of a slot that exists. -/
def clearKey (die : DieId) (kind owner index : Nat) (s : State) : State :=
  if (slotFor? s die kind owner).isSome then modKey die kind owner index (fun _ => {}) s else s

/-- Free every slot of an owner of the given kind. -/
def freeSlots (die : DieId) (kind owner : Nat) (s : State) : State :=
  match slotFor? s die kind owner with
  | none => s
  | some k => modSlots (fun t => t.del k) s

/-- The quadrant that a key concerns: its terminal's, or that of the channel of a broadcast key. -/
def keyQuadrant (s : State) (kind owner : Nat) : Nat := if kind = 3 then quadrantOf (owner / 64) else quadrantOfTree (termTree s owner)

/-- The holder sends a changed key of an owner to the standby within one frame (R281). -/
def sendKey (die : DieId) (kind owner index : Nat) (s : State) : State :=
  toStandby (keyQuadrant s kind owner) (.keyContext die kind owner index (keyStNum (keyOf s die kind owner index).st)) s

/-! ### Terminal key exchanges (R263 to R268) -/

/-- The index that an exchange fills: the one that is not CURRENT. -/
def exchangeIndex (s : State) (t : Nat) : Nat :=
  if currentIndex s (dieOfTerm s t) slotData t == some 1 then 2 else 1

/-- The device awaits an upstream PLOAM message from the terminal (R139). -/
def awaitPloam (t : Nat) (s : State) : State := modTerm t (fun x => { x with needPloamu := true }) s

/-- Send a PLOAM message to a registered terminal on its channel. -/
def sendTo (t : Nat) (m : Nat → Ploam) (s : State) : State :=
  match (termOf s t).ch, (termOf s t).onu with
  | some c, some o => sendPloam c (m o) s
  | _, _ => s

/-- Start a key exchange, unless one is in progress (R265, R266). -/
def startExchange (t : Nat) (s : State) : State :=
  if !s.twin.held || (termOf s t).exch.isSome || (termOf s t).st != .operational then s
  else
    let i := exchangeIndex s t
    sendTo t (fun o => .keyControl o false i)
      (awaitPloam t (modTerm t (fun x => { x with exch := some { index := i, startedAt := s.now }, exchRetryAt := none }) s))

/-- Abandon an exchange: a LOADED key that is not yet CURRENT is cleared (R268). -/
def abandonExchange (t : Nat) (s : State) : State :=
  match (termOf s t).exch with
  | none => modTerm t (fun x => { x with exchRetryAt := none }) s
  | some e =>
    let die := dieOfTerm s t
    let s := doIf ((keyOf s die slotData t e.index).st == .loaded) (clearKey die slotData t e.index) s
    modTerm t (fun x => { x with exch := none, exchRetryAt := none, switchAt := none }) s

/-- The master session key of a terminal: imported, or the default derivation (R263). -/
def mskOf (s : State) (t : Nat) : List Byte :=
  (termOf s t).msk.getD (Config.defaultMsk ((cfgOf s).valN Kind.terminal t Fld.trmSerial))

/-- Derive the integrity keys and the KEK at the entry to OPERATIONAL (R263). -/
def deriveKeys (t : Nat) (s : State) : State :=
  let die := dieOfTerm s t
  let k : Nat → KeyVal := fun i => { st := .current, bytes := Config.deriveKey (mskOf s t) i, loadedSf := s.pon.sf, since := s.pon.sf }
  modKey die slotExchange t 1 (fun _ => k 2) (modKey die slotIntegrity t 2 (fun _ => k 1) (modKey die slotIntegrity t 1 (fun _ => k 0) s))

/-! ### OMCI requests (R237) -/

/-- An OMCI message: the transaction identifier, the device identifier and contents, and the MIC under the terminal's OMCI
integrity key (R237). -/
def omciBytes (s : State) (t txn : Nat) (contents : List Byte) : List Byte :=
  let m := beBytes 2 txn ++ contents
  m ++ fitTo 4 (Config.cmac (keyOf s (dieOfTerm s t) slotIntegrity t 2).bytes m)

/-- An OMCI message for a terminal enters its channel's management queue (R169). -/
def queueOmci (t txn : Nat) (contents : List Byte) (s : State) : State :=
  match (termOf s t).ch.bind fun ch => (chOf s ch).mgmtQ with
  | none => s
  | some q =>
    admitQueue q { bytes := omciBytes s t txn contents, kind := .omci t txn, stitch := s.stitch.current, arrival := baseNs s 0 } s

/-- The contents of an OMCI message after its transaction identifier: type, device identifier, class, instance, and the body in
the form of the message set in use (log entry 5). -/
def omciContents (s : State) (t msgType cls inst : Nat) (body : List Byte) : List Byte :=
  if (termOf s t).omciExt then beBytes 1 msgType ++ beBytes 1 0x0B ++ beBytes 2 cls ++ beBytes 2 inst ++ beBytes 2 body.length ++ body
  else beBytes 1 msgType ++ beBytes 1 0x0A ++ beBytes 2 cls ++ beBytes 2 inst ++ fitTo 32 body ++ beBytes 4 0x28

/-- OMCI requests of a priority outstanding at a terminal. -/
def omciBusy (x : Terminal) (prio : Nat) : Bool := x.omciOut.any fun r => r.prio == prio

/-- Put a request on the OMCC with the next transaction identifier. -/
def launchOmci (t : Nat) (r : OmciReq) (s : State) : State :=
  let n := ((termOf s t).omciTxn + 1) % 65536
  queueOmci t n r.contents
    (modTerm t (fun x => { x with omciTxn := n, omciOut := x.omciOut ++ [{ r with txn := n, sentAt := s.now, resends := 0 }] }) s)

/-- Start the next waiting request of a priority when none is outstanding. -/
def nextOmci (t prio : Nat) (s : State) : State :=
  let x := termOf s t
  if omciBusy x prio then s
  else
    match x.omciWait.find? fun r => r.prio == prio with
    | none => s
    | some r => launchOmci t r (modTerm t (fun y => { y with omciWait := y.omciWait.erase r }) s)

/-- A time-of-day set has ended: three failures in a row raise TOD_DELIVERY_FAILED (R300). -/
def todEnded (t : Nat) (ok : Bool) (s : State) : State :=
  if ok then modTerm t (fun x => { x with todFails := 0, todOut := false }) s
  else
    let n := (termOf s t).todFails + 1
    let s := bump 10 t Cn.todFails 1 (modTerm t (fun x => { x with todFails := n, todOut := false }) s)
    doIf (n == 3) (raise Ev.todDeliveryFailed (dieOfTerm s t) [.u16 t]) s

/-- The OMCC versions that support the extended message set (log entry 5). -/
def extVersions : List Nat := [0x96, 0xB0, 0xB1, 0xB2, 0xB3, 0xB4]

/-- The answer to the reading of the OMCC version: a result, an attribute mask of two bytes and the version (R236). -/
def versionRead (t : Nat) (a : Answer) (s : State) : State :=
  let ok := a.status == St.ok && extVersions.contains (a.result.getD 3 0) && (cfgOf s).on Kind.terminal t Fld.trmOmciExt
  modTerm t (fun x => { x with omciExt := ok }) s

/-- Some request of a terminal still carries a broadcast key of a tenant. -/
def bcastOut (x : Terminal) (tenant : Nat) : Bool :=
  (x.omciOut ++ x.omciWait).any fun r =>
    match r.use with
    | .bcast n _ => n == tenant
    | _ => false

/-- A terminal has acknowledged a broadcast key, or not: the distribution notes it, and joins that waited for the keys are
accepted once it holds all of them (R269). -/
def bcastAnswered (t tenant index : Nat) (ok : Bool) (s : State) : State :=
  match (termOf s t).ch with
  | none => s
  | some ch =>
    let held := (termOf s t).heldJoins.filter fun j => j.1 == tenant
    let s := modTerm t (fun x =>
      if bcastOut x tenant then x
      else { x with heldJoins := x.heldJoins.filter (fun j => j.1 != tenant)
                    bcastGot := if !ok || x.bcastGot.contains tenant then x.bcastGot else tenant :: x.bcastGot }) s
    if !ok then s
    else
      let got : Bcast → Bcast := fun b =>
        if b.ch == ch && b.tenant == tenant && b.index == index then { b with waiting := b.waiting.filter (· != t) } else b
      let s := { s with ciph := { s.ciph with bcasts := s.ciph.bcasts.map got } }
      if bcastOut (termOf s t) tenant then s else forAll held (fun j s => join t ch j.1 j.2.1 s j.2.2) s

/-- Submit a request: it is sent at once when none of its priority is outstanding, and waits otherwise. -/
def submitOmci (t : Nat) (r : OmciReq) (s : State) : State :=
  if omciBusy (termOf s t) r.prio || (termOf s t).omciWait.any (fun w => w.prio == r.prio) then
    modTerm t (fun x => { x with omciWait := x.omciWait ++ [r] }) s
  else launchOmci t r s

/-- End an outstanding or waiting request with an answer: to the ring that asked, or to the device's own purpose. -/
def endOmci (t : Nat) (r : OmciReq) (a : Answer) (s : State) : State :=
  let s := modTerm t (fun x => { x with omciOut := x.omciOut.erase r, omciWait := x.omciWait.erase r }) s
  match r.use with
  | .host => finishRunning r.port r.ring a s
  | .version => versionRead t a s
  | .tod => todEnded t (a.status == St.ok) s
  | .bcast tenant i => bcastAnswered t tenant i (a.status == St.ok) s

/-- Every request of a terminal ends with one status. -/
def failOmci (t status : Nat) (s : State) : State :=
  let x := termOf s t
  forAll (x.omciOut ++ x.omciWait) (fun r => endOmci t r { status := status }) s

/-! ### Software downloads (R240) -/

/-- Causes of SWDL_FAILED (log entry 6). -/
def swdlTimeout : Nat := 1
def swdlMissing : Nat := 2
def swdlBusy : Nat := 3
def swdlLeft : Nat := 4
def swdlAborted : Nat := 5
def swdlTakeover : Nat := 6

/-- The terminals of a channel with a running download. -/
def runningDownloads (s : State) (ch : Nat) : List Nat :=
  (s.pon.terms.filter fun p => p.2.ch == some ch && (p.2.download.map (·.running)).getD false).map (·.1)

/-- The waiting download of a channel that was commanded first. -/
def firstWaiting (s : State) (ch : Nat) : Option (Nat × Download) :=
  let l := s.pon.terms.filterMap fun p =>
    if p.2.ch == some ch then p.2.download.bind fun d => if d.running then none else some (p.1, d) else none
  l.foldl (fun a x => match a with | none => some x | some y => if x.2.order < y.2.order then some x else some y) none

/-- The managed entity class of software images (log entry 5). -/
def swImage : Nat := 7

/-- Length and CRC-32 of an image of a terminal's die. -/
def imageOf (s : State) (t image : Nat) : Nat × Word := (imagesOf s (dieOfTerm s t)).images.getD image (0, 0)

/-- Send a message of a download with the next transaction identifier. -/
def swdlSend (t msgType : Nat) (d : Download) (body : List Byte) (s : State) : State :=
  let n := ((termOf s t).omciTxn + 1) % 65536
  queueOmci t n (omciContents s t msgType swImage d.inst body) (modTerm t (fun x => { x with omciTxn := n }) s)

/-- Change a terminal's download. -/
def modDownload (t : Nat) (f : Download → Download) (s : State) : State :=
  modTerm t (fun x => { x with download := x.download.map f }) s

/-- Send Start software download with the proposed window. -/
def startDownload (t : Nat) (s : State) : State :=
  match (termOf s t).download with
  | none => s
  | some d =>
    let body := beBytes 1 (d.window - 1) ++ beBytes 4 (imageOf s t d.image).1 ++ beBytes 1 1 ++ beBytes 2 d.inst
    swdlSend t 0x53 d body (modDownload t (fun d => { d with running := true, lastAt := s.now }) s)

/-- Start the next waiting download of a channel while fewer than 32 run. -/
def nextDownload (ch : Nat) (s : State) : State :=
  if 32 ≤ (runningDownloads s ch).length then s
  else
    match firstWaiting s ch with
    | none => s
    | some (t, _) => startDownload t s

/-- End a terminal's download with SWDL_FAILED; the next waiting one of its channel starts. -/
def failDownload (t cause : Nat) (s : State) : State :=
  if (termOf s t).download.isNone then s
  else
    let s' := raise Ev.swdlFailed (dieOfTerm s t) [.u16 t, .u8 cause] (modTerm t (fun x => { x with download := none }) s)
    match (termOf s t).ch with
    | none => s'
    | some ch => nextDownload ch s'

/-! ### Profile generations (R62) -/

def genOf (s : State) (ch : Nat) (r : Rate) : ProfileGen := (chOf s ch).gens.getD (rateNum r) {}
def modGen (ch : Nat) (r : Rate) (f : ProfileGen → ProfileGen) (s : State) : State :=
  modCh ch (fun x => { x with gens := Tab.upd {} (rateNum r) f x.gens }) s

/-- The index of a profile of a generation: long 0 or 2, short 1 or 3 (R59). -/
def profIndex (g : ProfileGen) (incoming short : Bool) : Nat := 2 * bit (g.currentHigh != incoming) + bit short

/-- Send the incoming profiles to a terminal and ask for acknowledgement (R62). -/
def sendIncoming (t : Nat) (s : State) : State :=
  match (termOf s t).ch with
  | none => s
  | some ch =>
    let r := (termOf s t).rate
    let g := genOf s ch r
    let s := sendTo t (fun o => .burstProfile o true r (profIndex g true false)) s
    let s := sendTo t (fun o => .burstProfile o true r (profIndex g true true)) s
    awaitPloam t (modTerm t (fun x => { x with profAckDue := some (s.now + Time.ms 100) }) s)

/-- When the first broadcasts are out and every registered terminal at the rate has moved, the incoming generation becomes
current (R62). -/
def settleGen (ch : Nat) (r : Rate) (s : State) : State :=
  let g := genOf s ch r
  if g.incoming.isNone || g.broadcastsLeft != 0 then s
  else if ((chTerms s ch).filter fun t => (termOf s t).rate == r).all fun t => g.moved.contains t then
    raise Ev.profileSwitched (dieOfChannel ch) [.u16 ch, .u8 (rateNum r)]
      (modGen ch r (fun g => { g with currentHigh := !g.currentHigh, incoming := none, broadcastsLeft := 0, moved := [], stale := [], old := [] }) s)
  else s

/-- A terminal has moved to the incoming generation of its rate. -/
def moveToIncoming (t : Nat) (s : State) : State :=
  match (termOf s t).ch with
  | none => s
  | some ch =>
    let r := (termOf s t).rate
    if (genOf s ch r).incoming.isNone then s
    else
      settleGen ch r (modGen ch r (fun g => { g with moved := if g.moved.contains t then g.moved else t :: g.moved
                                                     stale := g.stale.filter (· != t) }) s)

/-- A terminal that leaves its channel leaves the profile change. -/
def leaveGen (t : Nat) (ch : Nat) (r : Rate) (s : State) : State :=
  settleGen ch r (modGen ch r (fun g => { g with moved := g.moved.filter (· != t), stale := g.stale.filter (· != t) }) s)

/-! ### Entering and leaving OPERATIONAL (R112) -/

/-- What ends when a terminal leaves OPERATIONAL: its OMCI requests, its download and its key exchange (R237, R240, R268). -/
def leaveOperational (t : Nat) (s : State) : State :=
  if (termOf s t).st == .operational then
    abandonExchange t (failDownload t swdlLeft (failOmci t St.terminalAbsent s))
  else s

/-- Send a bind of an allocation to its terminal. -/
def bindAlloc (t a : Nat) (s : State) : State :=
  modAlloc a (fun x => { x with bound := true })
    (sendTo t (fun o => .assignAlloc o ((cfgOf s).valN Kind.alloc a Fld.alAllocId) true) s)

/-- The allocations of a terminal whose binds are held: open, and not yet bound at the terminal (R69). -/
def heldBinds (s : State) (t : Nat) : List Nat :=
  (allocsOfTerm (cfgOf s) t).filter fun a => (cfgOf s).live Kind.alloc a && !(allocOf s a).bound

/-- Bind the allocations whose binds were held for the terminal. -/
def sendHeldBinds (t : Nat) (s : State) : State := forAll (heldBinds s t) (bindAlloc t) s

/-- The key of a terminal's default allocation. -/
def defaultKey (t : Nat) : Nat := Config.nAllocs + t

/-- A terminal without its ONU-ID holds no binding; its default allocation is retired (R55, R69). -/
def unbindAll (t : Nat) (s : State) : State :=
  let s := forAll (allocsOfTerm (cfgOf s) t) (fun a => modAlloc a fun x => { x with bound := false }) s
  { s with pon := { s.pon with allocs := s.pon.allocs.del (defaultKey t) } }

/-- The shortest refresh period among the tenants that have flows at a terminal, in time units (R265). -/
def refreshPeriod (s : State) (t : Nat) : Time :=
  let l := ((termTenantFlows s t).map fun o => (cfgOf s).valN Kind.flow o.num Fld.flTenant).map fun x =>
    (cfgOf s).valN Kind.tenant x Fld.tnRefreshMin
  Time.sec (60 * (l.foldl min (l.headD 60)))

/-- A terminal enters OPERATIONAL: keys derived, the exchange started, held binds sent, time of day due; during a profile
change it counts among the moved and is sent the incoming profiles (R62, R69, R263, R265, R300). -/
def enterOperational (t : Nat) (s : State) : State :=
  let s := modTerm t (fun x => { x with st := .operational, enteredAt := s.now, omciAsked := false, lostRun := 0, drift := [], todDue := s.now,
                                        corr := none, corrWaiting := false, grants := 0, rangingAt := none }) s
  let s := deriveKeys t (sendHeldBinds t s)
  let changing := match (termOf s t).ch with
    | none => false
    | some ch => (genOf s ch (termOf s t).rate).incoming.isSome
  startExchange t (doIf changing (fun s => moveToIncoming t (sendIncoming t s)) s)

/-! ### Deactivation -/

/-- The channel's last moment with a registered terminal (R74). -/
def noteRegistered (ch : Nat) (s : State) : State := modCh ch (fun x => { x with lastRegistered := s.now }) s

/-- A terminal gives up its ONU-ID and enters ABSENT or DISABLED, with no message of its own: its running state ends, while its
fitting record, its key slots and its MSK stay (Table 4.2, R85). -/
def dropTerm (t : Nat) (dst : TermState) (s : State) : State :=
  let old := termOf s t
  let s := unbindAll t (endMemberships t (leaveOperational t s))
  let s := modTerm t (fun x =>
    { x with st := dst, ch := none, onu := none, enteredAt := s.now, grants := 0, rangingAt := none, drift := [], corr := none, ctxLost := false,
             corrWaiting := false, lostRun := 0, needPloamu := false, asleep := false, profAckDue := none,
             profResends := 0, cwTotal := 0, cwBad := 0, wokeLong := false, narrowSeen := false, wideMissed := [],
             omciExt := false, omciAsked := false, bcastGot := [], heldJoins := [], alarmSeq := none, groups := [], todOut := false, todFails := 0 }) s
  match old.ch with
  | none => s
  | some ch => leaveGen t ch old.rate (doIf (registered old.st) (noteRegistered ch) s)

/-- Deactivate a terminal: Deactivate_ONU-ID, then ABSENT; the standby is told (R111, R113, R125, R460). -/
def deactivate (t : Nat) (s : State) : State :=
  sendRanging t none (dropTerm t .absent (sendTo t (fun o => .deactivate o) s))

/-! ### A context that fails its reload (R275) -/

/-- A terminal's context is lost: it is rebuilt by a fresh exchange, which the standby leaves to the holder. -/
def contextLost (die : DieId) (t : Nat) (s : State) : State :=
  if (termOf s t).ctxLost then s
  else
    let s := modTerm t (fun x => { x with ctxLost := true }) (raise Ev.contextIntegrity die [.u32 t] s)
    if s.twin.held then startExchange t (abandonExchange t s) else seamSend (quadrantOfTree (termTree s t)) (.keyAgain t) s

end Sys2Proof.Machine
end

