-- ==== Sys2Proof/Machine/Channels.lean ====
section
/-! DEFINITION. The downstream grid, the PLOAM layer and the states of a channel (R49 to R52, R59 to R77, R107, R108, R459). -/

namespace Sys2Proof.Machine
open Sys2Proof

/-! ### Discovery windows (R107, R108) -/

/-- The length of a discovery window, rounded up to a whole microsecond. -/
def discoveryLength (s : State) (ch : Nat) : Time := Time.us (ceilDiv (reachSpread s ch + Time.us 49) (Time.us 1))

/-- The rates that a channel opens discovery windows for, ascending. -/
def discoveryRates (s : State) (ch : Nat) : List Rate :=
  if isWide ch then
    wideRates.filter fun r => bitsOf ((cfgOf s).valN Kind.tree (treeOf ch) Fld.treeDiscRates) (rateBit r) (rateBit r) == 1
  else [.r9]

/-- The discovery period in force. -/
def discoveryPeriod (s : State) (ch : Nat) : Time :=
  Time.ms ((cfgOf s).valN Kind.tree (treeOf ch)
    (if (chOf s ch).st == .quiet then Fld.treeDiscQuietMs else Fld.treeDiscMs))

/-- A feeder search is in progress on a tree. -/
def searchOn (s : State) (tree : Nat) : Bool := (chOf s (wideOf tree)).search.isSome || (chOf s (narrowOf tree)).search.isSome

/-- A discovery window may not open now (R108). -/
def discoveryBlocked (s : State) (ch : Nat) : Bool :=
  searchOn s (treeOf ch) || (chOf s ch).rogue.isSome || (chOf s ch).st == .shadow

/-- The channel's discovery windows are due: a postponement is counted once, and the windows follow when nothing stands in
their way. -/
def discoveryDue (ch : Nat) (s : State) : State :=
  let x := chOf s ch
  if discoveryBlocked s ch then
    if x.discPostponed then s
    else bump 7 ch Cn.postponedDiscovery 1 (modCh ch (fun y => { y with discPostponed := true }) s)
  else
    let reqs := (discoveryRates s ch).map fun r => ({ kind := .discovery, rate := r, len := discoveryLength s ch } : WinReq)
    modCh ch (fun y => { y with windowsDue := y.windowsDue ++ reqs, discPostponed := false,
                                discNext := y.discNext + discoveryPeriod s ch }) s

/-- What postponed a channel's discovery windows has cleared: they fall due with the next map (R108). -/
def releaseDiscovery (ch : Nat) (s : State) : State :=
  let x := chOf s ch
  if x.discPostponed && (x.st == .active || (x.st == .quiet && x.awake)) && !discoveryBlocked s ch then discoveryDue ch s else s

def execDiscoveryPeriodExpiry (dt : Nat) (ch : Nat) (s : State) : Host.Outcome State Fault Refusal :=
  let s := tick dt s
  let x := chOf s ch
  .next <|
    if decide (x.discNext ≤ s.now) && (x.st == .active || x.st == .shadow || (x.st == .quiet && x.awake)) then discoveryDue ch s
    else s

/-! ### Channel states (Table 2.5, R74 to R76) -/

def execChannelActive (dt : Nat) (ch : Nat) (s : State) : Host.Outcome State Fault Refusal :=
  let s := tick dt s
  .next <|
    if (chOf s ch).st == .starting && decide (8 ≤ (chOf s ch).framesSent) then
      modCh ch (fun x => { x with discNext := s.now, discPostponed := false }) (enterCh ch .active s)
    else s

/-- A QUIET channel whose period is short stays awake between its windows (R75). -/
def staysAwake (s : State) (ch : Nat) : Bool :=
  decide (Time.ms ((cfgOf s).valN Kind.tree (treeOf ch) Fld.treeDiscQuietMs) < discoveryLength s ch + Time.ms 13)

def execChannelQuiet (dt : Nat) (ch : Nat) (s : State) : Host.Outcome State Fault Refusal :=
  let s := tick dt s
  let x := chOf s ch
  .next <|
    if x.st == .active && (chTerms s ch).isEmpty && decide (x.lastRegistered + Time.sec 1 ≤ s.now) then
      let next := s.now + Time.ms ((cfgOf s).valN Kind.tree (treeOf ch) Fld.treeDiscQuietMs)
      modCh ch (fun y => { y with awake := staysAwake s ch, windowsDue := [], discPostponed := false, discNext := next })
        (enterCh ch .quiet s)
    else s

def execQuietWake (dt : Nat) (ch : Nat) (s : State) : Host.Outcome State Fault Refusal :=
  let s := tick dt s
  let x := chOf s ch
  .next <|
    if x.st == .quiet && !x.awake && decide (x.discNext ≤ s.now + Time.ms 11) then
      modCh ch (fun y => { y with awake := true, readyAt := s.now + Time.ms 1 }) s
    else s

/-- A QUIET channel has no window left to hold and its last one ended 2 ms ago. -/
def windowsOver (s : State) (ch : Nat) : Bool :=
  let x := chOf s ch
  x.windowsDue.isEmpty && decide (s.now + Time.ms 11 < x.discNext)
    && x.windows.all fun w => decide (w.start + w.len + Time.ms 2 ≤ s.now)

def execQuietSleep (dt : Nat) (ch : Nat) (s : State) : Host.Outcome State Fault Refusal :=
  let s := tick dt s
  let x := chOf s ch
  .next <|
    if x.st == .quiet && x.awake && windowsOver s ch && !staysAwake s ch then
      modCh ch (fun y => { y with awake := false }) s
    else s

/-- What a channel keeps of its reception ends with it. -/
def stopReception (ch : Nat) (s : State) : State :=
  modCh ch (fun x => { x with cue := [], build := none, nextMap := none, carryMap := none, windowsDue := [], windows := [],
                              search := none, rogue := none, gapFrames := 0, foreign := [], los := false, losFrames := 0,
                              missFrames := 0, frExpected := 0, frHeard := false, frMissed := 0, frOffsets := [], cut := none }) s

/-- The moment at which a drain may end: the last granted burst or window, and the three broadcasts (R74). -/
def drainEnd (x : Channel) (b1 : Time) : Time := max x.lastEnd (b1 + Time.us 375)

def execChannelDark (dt : Nat) (ch : Nat) (s : State) : Host.Outcome State Fault Refusal :=
  let s := tick dt s
  let x := chOf s ch
  .next <|
    match x.drainFrom with
    | none => s
    | some b1 =>
      if (x.st == .draining || x.st == .shadow) && decide (boundaryFrom s (drainEnd x b1) ≤ s.now) then
        stopReception ch (modCh ch (fun y => { y with drainFrom := none }) (enterCh ch .dark s))
      else s

/-- Causes of CHANNEL_FAULT (log entry 6). -/
def faultCause (moduleFault : Bool) : Nat := if moduleFault then 2 else 1

def execChannelFault (dt : Nat) (ch : Nat) (moduleFault yieldIn : Bool) (s : State) : Host.Outcome State Fault Refusal :=
  let s := tick dt s
  .next <|
    if isDark s ch || (chOf s ch).st == .faulted then s
    else
      policyFinding Fld.devYieldChannel Cause.channelFault yieldIn
        (raise Ev.channelFault (dieOfChannel ch) [.u16 ch, .u8 (faultCause moduleFault)]
          (stopReception ch (enterCh ch .faulted s)))

/-! ### PLOAM rows (R66 to R68) -/

/-- Held messages join the queue while there is room. -/
def releaseHeld (ch : Nat) (s : State) : State :=
  modCh ch (fun x =>
    let n := Config.ploamMax - x.ploam.length
    { x with ploam := x.ploam ++ x.ploamHeld.take n, ploamHeld := x.ploamHeld.drop n }) s

def execPloamBacklogRelease (dt : Nat) (ch : Nat) (s : State) : Host.Outcome State Fault Refusal :=
  .next (releaseHeld ch (tick dt s))

/-- Sleep modes of a Sleep_Request: 0 awake, 1 doze, 2 cyclic sleep, 3 watchful sleep. -/
def sleepAllowed (s : State) (t mode : Nat) : Bool :=
  (mode == 1 || mode == 2) && (cfgOf s).on Kind.terminal t Fld.trmSleep

def execSleepRequest (dt : Nat) (term mode : Nat) (s : State) : Host.Outcome State Fault Refusal :=
  let s := tick dt s
  .next <|
    if registered (termOf s term).st then
      let ok := sleepAllowed s term mode
      modTerm term (fun x => { x with asleep := ok, wokeLong := x.wokeLong || (x.asleep && !ok), needPloamu := false })
        (sendTo term (fun o => .sleepAllow o ok) s)
    else s

/-- MIC failures of the last second, and whether the count stands above 16 (R67). -/
def pruneMic (now : Time) (x : Terminal) : Terminal :=
  let l := x.micFails.filter fun t => decide (now < t + Time.sec 1)
  { x with micFails := l, micHigh := x.micHigh && decide (16 < l.length) }

def execPloamIntegrity (dt : Nat) (term : Nat) (s : State) : Host.Outcome State Fault Refusal :=
  let s := tick dt s
  let s := modTerm term (pruneMic s.now) s
  let x := termOf s term
  .next <|
    if decide (16 < x.micFails.length) && !x.micHigh then
      raiseLimited Ev.ploamIntegrity (dieOfTerm s term) term (Time.sec 1) [.u16 term]
        (modTerm term (fun y => { y with micHigh := true }) s)
    else s

/-- A unicast Burst_Profile stays unanswered for 100 ms (R63). -/
def profileUnanswered (t : Nat) (s : State) : State :=
  let x := termOf s t
  if x.profResends < 3 then modTerm t (fun y => { y with profResends := x.profResends + 1 }) (sendIncoming t s)
  else
    let s := modTerm t (fun y => { y with profAckDue := none, profResends := 0 }) s
    let s := match x.ch with
      | none => s
      | some ch => modGen ch x.rate (fun g => { g with stale := if g.stale.contains t then g.stale else g.stale ++ [t] }) s
    raise Ev.profileStale (dieOfTerm s t) [.u16 t] s

def execProfileAckTimeout (dt : Nat) (term : Nat) (s : State) : Host.Outcome State Fault Refusal :=
  let s := tick dt s
  .next <|
    match (termOf s term).profAckDue with
    | none => s
    | some d => if d ≤ s.now then profileUnanswered term s else s

/-! ### The frame at a grid boundary (R49 to R53, R61, R62, R68) -/

/-- The broadcast profile messages of one rate: the current profiles each millisecond, the incoming ones too, and in each of
the 8 frames after a change (R61, R62). -/
def profileBroadcasts (s : State) (ch : Nat) (r : Rate) : List Ploam :=
  let g := genOf s ch r
  let ms := s.pon.sf.toNat % 8 == 0
  let msg := fun inc short => Ploam.burstProfile bcastOnu false r (profIndex g inc short)
  (if ms then [msg false false, msg false true] else [])
    ++ (if g.incoming.isSome && (ms || g.broadcastsLeft != 0) then [msg true false, msg true true] else [])

/-- The broadcasts of a frame (R61, R459), and the deactivation broadcasts of a draining channel (R74). -/
def frameBroadcasts (s : State) (ch : Nat) : List Ploam :=
  let drain := match (chOf s ch).drainFrom with
    | none => []
    | some b1 => if (chOf s ch).st == .draining && decide (s.now < b1 + Time.us 375) then [Ploam.deactivate bcastOnu] else []
  drain ++ (channelRates ch).flatMap (profileBroadcasts s ch)
    ++ (if !isWide ch && s.pon.sf.toNat % 8 == 0 then [.systemProfile, .channelProfile] else [])

/-- One frame of the first broadcasts of a change has passed. -/
def countBroadcast (ch : Nat) (s : State) : State :=
  forAll (channelRates ch) (fun r s =>
    if (genOf s ch r).broadcastsLeft = 0 then s
    else settleGen ch r (modGen ch r (fun g => { g with broadcastsLeft := g.broadcastsLeft - 1 }) s)) s

/-- The terminal that holds an ONU-ID on a channel. -/
def termOfOnu (s : State) (ch onu : Nat) : Option Nat :=
  (List.find? (fun p : Nat × Terminal => p.2.ch == some ch && p.2.onu == some onu && registered p.2.st) s.pon.terms).map (·.1)

/-- A directed ranging grant falls due: a quiet window of 50 µs (R111). -/
def rangingDue (t : Nat) (s : State) : State :=
  match (termOf s t).ch with
  | none => s
  | some ch =>
    modCh ch (fun x => { x with windowsDue := x.windowsDue ++ [{ kind := .ranging, term := some t, rate := (termOf s t).rate,
                                                                  len := Time.us 50 }] }) s

/-- What the sending of a downstream message sets going: the ranging grant after an Assign_ONU-ID (R111), the shifted
expectation after a broadcast Ranging_Time (R121), the confirm's frame of a key exchange (R265). -/
def ploamSent (ch : Nat) (m : Ploam) (s : State) : State :=
  let s := emit (.ploam ch m) s
  match m with
  | .assignOnu onu _ =>
    match termOfOnu s ch onu with
    | some t => rangingDue t s
    | none => s
  | .rangingTime onu true ps =>
    if onu = bcastOnu then modCh ch (fun x => { x with expShift := x.expShift + ps }) s else s
  | .keyControl onu true _ =>
    match termOfOnu s ch onu with
    | some t => modTerm t (fun x => { x with switchAt := some (s.pon.sf + 8) }) s
    | none => s
  | _ => s

/-- The end of the latest burst or window of a map (R74). -/
def mapEnd (m : BwMap) (t0 : Time) : Time :=
  ((m.bursts.map fun b => t0 + b.start + b.dur) ++ m.windows.map fun w => w.start + w.len).foldl max 0

/-- A quiet window has been granted by a map that is sent: a ranging grant is counted and its end kept, a search's window end
is known (R111, R120). -/
def windowSent (ch : Nat) (w : QuietWin) (s : State) : State :=
  match w.kind, w.term with
  | .ranging, some t => modTerm t (fun x => { x with grants := x.grants + 1, rangingAt := some (w.start + w.len) }) s
  | .feeder, _ => modCh ch (fun x => { x with search := x.search.map fun y => { y with windowEnd := some (w.start + w.len) } }) s
  | _, _ => s

/-- Start of the upstream frame that belongs to the map of the frame at `t`. -/
def upStart (s : State) (ch : Nat) (t : Time) : Time := t + (targetDelay s ch + (chOf s ch).expShift).toNat

/-- The map that the frame at this boundary carries: none but an empty one in STARTING and DRAINING (R74). -/
def frameMap (s : State) (ch : Nat) : BwMap :=
  let x := chOf s ch
  if x.st == .starting || x.st == .draining then { sf := s.pon.sf }
  else
    match x.nextMap with
    | some m => if m.sf = s.pon.sf then m else { sf := s.pon.sf }
    | none => { sf := s.pon.sf }

/-- A channel takes part in the grid: it sends frames, or its framer runs in step in SHADOW. -/
def inStep (s : State) (ch : Nat) : Bool := sendsFrames s ch || (chOf s ch).st == .shadow

/-- The frame's map goes out: it is digested and exchanged with the twin, and its windows are granted (R147, R321). -/
def carryFrameMap (ch : Nat) (s : State) : State :=
  let m := frameMap s ch
  let d := mapDigest ch m
  let s := modCh ch (fun x => { x with
    nextMap := none, sent := lastN 12 (x.sent ++ [m]), ownDigest := some (m.sf, d)
    lastEnd := max x.lastEnd (mapEnd m (upStart s ch s.now))
    windows := x.windows.filter fun w => decide (s.now < w.start + w.len + Time.ms 3) }) s
  let s := forAll m.windows (windowSent ch) s
  doIf (s.twin.paired && s.twin.seamUp) (seamSend (quadrantOf ch) (.mapDigest ch m.sf d))
    (doIf (sendsFrames s ch) (emit (.map ch m.sf d)) s)

/-- The PLOAM partition of a frame: at most 8 messages in priority order. -/
def sendPloams (ch : Nat) (s : State) : State :=
  let s := forAll (frameBroadcasts s ch) (sendPloam ch) s
  let r := takePloam 8 (chOf s ch).ploam
  let s := modCh ch (fun x => { x with ploam := r.2 }) s
  countBroadcast ch (forAll r.1 (ploamSent ch) s)

/-- One channel's frame at the boundary. -/
def channelFrame (ch : Nat) (s : State) : State :=
  if !inStep s ch then s
  else
    let s := carryFrameMap ch s
    if sendsFrames s ch then
      let s := sendPloams ch (emit (.psbd ch s.pon.sf) s)
      bump 7 ch Cn.sentFrames 1 (modCh ch (fun x => { x with framesSent := x.framesSent + 1 }) s)
    else countBroadcast ch s

/-- The grid passes a boundary: the count advances, every running channel sends its frame, and a paired unit sends GRID. -/
def gridStep (s : State) : State :=
  let s := { s with pon := { s.pon with gridAt := s.pon.gridAt + Time.frame, sf := s.pon.sf + 1 } }
  let s := sendHello (forAll (s.pon.channels.map (·.1)) channelFrame s)
  doIf (s.twin.paired && s.twin.seamUp) (seamSend 0 (.grid s.pon.sf s.stitch.digest)) s

def execGridBoundary (dt : Nat) (s : State) : Host.Outcome State Fault Refusal :=
  let s := tick dt s
  .next (if s.pon.gridOn && decide (s.pon.gridAt + Time.frame ≤ s.now) then gridStep s else s)

end Sys2Proof.Machine
end

