-- ==== Sys2Proof/Machine/Fitting.lean ====
section
/-! DEFINITION. The fitting records: starting points, ages, adaptation under the drift fence, confidence and preload failures (R85 to R98). -/

namespace Sys2Proof.Machine
open Sys2Proof

/-! ### Starting points and new records (R85, R86) -/

/-- The starting point in force of a channel's lane at a rate: re-planned, or as manufactured. -/
def startPoint (s : State) (ch : Nat) (r : Rate) : List Int :=
  s.pon.starts.getD (4 * ch + rateNum r) ((List.range 12).map fun i => (Config.startPoint (isWide ch) r i : Int))

/-- Bits [31:0] of the superframe count. -/
def sfLow (s : State) : Word := BitVec.ofNat 32 s.pon.sf.toNat

/-- The channel that a record's rate field names on its terminal's tree. -/
def fitChannel (s : State) (t : Nat) (f : Fitting) : Nat :=
  if f.rate = .r9 then narrowOf (termTree s t) else wideOf (termTree s t)

def newFit (s : State) (ch : Nat) (r : Rate) (t onu slot : Nat) : Fitting :=
  { work := startPoint s ch r, snap := startPoint s ch r, rate := r, lastAdapt := sfLow s, term := t, onu := onu, slot := slot }

/-- The slots of a tree's store in use. -/
def usedSlots (s : State) (tree : Nat) : List Nat :=
  (s.pon.fits.filter fun p => termTree s p.1 == tree).map (·.2.slot)

/-- The lowest free slot of a tree's store. -/
def freeFitSlot (s : State) (tree : Nat) : Nat := (firstFrom (fun v => !(usedSlots s tree).contains v) 256 0).getD 0

/-- A record returns to EMPTY with the starting point (R93). -/
def emptyFit (s : State) (t : Nat) (f : Fitting) : Fitting :=
  let p := startPoint s (fitChannel s t f) f.rate
  { f with work := p, snap := p, conf := 0, st := .empty, snapValid := false }

/-! ### Ages (R92, R93) -/

/-- The age of a record in frames, modulo 2³². -/
def fitAge (s : State) (f : Fitting) : Nat := (sfLow s - f.lastAdapt).toNat

/-- The record is older than its channel's discard age. -/
def discardDue (s : State) (t : Nat) (f : Fitting) : Bool :=
  f.st != .empty && decide (480000 * chValN s (fitChannel s t f) Fld.chDiscardMin < fitAge s f)

/-- The record is FRESH and older than its channel's freshness age. -/
def freshnessOver (s : State) (t : Nat) (f : Fitting) : Bool :=
  f.st == .fresh && decide (8 * chValN s (fitChannel s t f) Fld.chFreshMs < fitAge s f)

/-- Bring a terminal's record up to date: the discard age first, then the freshness age. -/
def ageFit (t : Nat) (s : State) : State :=
  if (s.pon.fits.find? t).isNone then s
  else
    modFit t (fun f => if discardDue s t f then emptyFit s t f else if freshnessOver s t f then { f with st := .aged } else f) s

/-- The sweep applies the discard age alone. -/
def sweepFit (t : Nat) (s : State) : State := modFit t (fun f => if discardDue s t f then emptyFit s t f else f) s

def execFittingSweep (dt : Nat) (s : State) : Host.Outcome State Fault Refusal :=
  let s := tick dt s
  let s := forAll (s.pon.fits.map (·.1)) sweepFit s
  .next { s with pon := { s.pon with lastSweep := s.now } }

/-- A terminal is assigned an ONU-ID: it takes a slot the first time; later its record is tested for the discard age, and kept when
the rate is the same and reset otherwise (R85, R93). -/
def assignFit (ch : Nat) (r : Rate) (t onu : Nat) (s : State) : State :=
  match s.pon.fits.find? t with
  | none => modFit t (fun _ => newFit s ch r t onu (freeFitSlot s (treeOf ch))) s
  | some f =>
    if f.rate = r then modFit t (fun f => { f with onu := onu }) (sweepFit t s)
    else modFit t (fun f => newFit s ch r t onu f.slot) s

/-! ### Adaptation (R94 to R97) -/

/-- The distance of a working value from its snapshot; the CDR phase is measured modulo one unit interval. -/
def fenceDistance (i : Nat) (v w : Int) : Nat :=
  if i = 10 then
    let d := ((v - w) % 256).toNat
    min d (256 - d)
  else (v - w).natAbs

/-- The fence of a working value on a channel. -/
def fenceOf (s : State) (ch i : Nat) : Nat :=
  if i = 10 then chValN s ch Fld.chFenceCdr else if i = 11 then chValN s ch Fld.chFenceGain else chValN s ch Fld.chFenceTap

/-- The course of adaptation through a burst. -/
structure Adapt where
  work : List Int
  applied : Nat := 0
  bad : Nat := 0
  corrected : Nat := 0
  crossed : Option Nat := none
  deriving DecidableEq, Repr

/-- The working values that an update would give; the CDR phase is modulo one unit interval. -/
def moved (work : List Int) (upd : List (Nat × Int)) : List Int :=
  upd.foldl (fun l p =>
    let v := l.getD p.1 0 + p.2
    setAt l p.1 (if p.1 = 10 then v % 256 else v)) work

/-- The first value of an update that lies beyond its fence. -/
def crossing? (s : State) (ch : Nat) (f : Fitting) (work : List Int) : Option Nat :=
  (List.range 12).find? fun i => decide (fenceOf s ch i < fenceDistance i (work.getD i 0) (f.snap.getD i 0))

/-- A FRESH or AGED record is fenced (R96). -/
def fenced (f : Fitting) : Bool := f.st == .fresh || f.st == .aged

/-- One codeword: its update is applied when it is correctable and its windows qualify, unless adaptation is frozen or a fence
is crossed. -/
def adaptCw (s : State) (ch : Nat) (f : Fitting) (a : Adapt) (c : Codeword) : Adapt :=
  let a := { a with corrected := a.corrected + c.corrected, bad := a.bad + bit (!c.ok) }
  if !c.ok || !c.qualifies || a.crossed.isSome then a
  else
    let w := moved a.work c.upd
    match if fenced f then crossing? s ch f w else none with
    | some i => { a with crossed := some i, work := f.snap }
    | none => { a with work := w, applied := a.applied + 1 }

def adaptAll (s : State) (ch : Nat) (f : Fitting) (cws : List Codeword) : Adapt :=
  cws.foldl (adaptCw s ch f) { work := f.work }

/-- The burst was clean: its ratio of corrected bits to received bits is at most 10⁻⁵ (R95). -/
def cleanBurst (a : Adapt) (bits : Nat) : Bool := decide (a.corrected * 100000 ≤ bits)

/-- CONF after a qualifying burst in which no fence was crossed (R95). -/
def nextConf (conf : Nat) (a : Adapt) (bits : Nat) : Nat :=
  if a.bad != 0 then 0 else if cleanBurst a bits then min 255 (conf + 32) else conf - 64

/-- The state changes at the end of a qualifying burst without a crossing (R93). -/
def settleFit (s : State) (ch : Nat) (clean : Bool) (f : Fitting) : Fitting :=
  let floor := chValN s ch Fld.chConfFloor
  if f.st = .fresh then
    if f.conf < floor then { f with st := .aged }
    else if clean && decide (80 ≤ (sfLow s - f.snapTime).toNat) then { f with snap := f.work, snapTime := sfLow s }
    else f
  else if floor ≤ f.conf then
    { f with st := .fresh, snap := f.work, snapTime := sfLow s, snapValid := true, fenceHit := false }
  else f

/-- What every qualifying burst records (R95). -/
def qualify (s : State) (mv mh : Nat) (f : Fitting) : Fitting :=
  { f with lastAdapt := sfLow s, adaptBursts := min 0xFFFF (f.adaptBursts + 1), marginV := mv, marginH := mh }

/-- The record after an accepted burst. -/
def fitAfter (s : State) (ch : Nat) (obs : BurstObs) (f : Fitting) : Fitting :=
  let a := adaptAll s ch f obs.cws
  let q := fun (g : Fitting) => if a.applied != 0 then qualify s obs.marginV obs.marginH g else g
  match a.crossed with
  | some _ =>
    q { f with work := f.snap, st := .stale, conf := 128, fenceHit := true, fenceCount := min 0xFFFF (f.fenceCount + 1) }
  | none =>
    if a.applied = 0 then { f with work := a.work }
    else settleFit s ch (a.bad == 0 && cleanBurst a obs.bits) (q { f with work := a.work, conf := nextConf f.conf a obs.bits })

/-- The field that crossed its fence in a burst, if one did. -/
def crossedField (s : State) (ch : Nat) (obs : BurstObs) (f : Fitting) : Option Nat := (adaptAll s ch f obs.cws).crossed

/-! ### Preload failures (Table 3.6) -/

/-- The record after a preload failure under a short or a long profile. -/
def preloadFailed (s : State) (t : Nat) (short : Bool) (f : Fitting) : Fitting :=
  let f := { f with preloadFail := min 0xFFFF (f.preloadFail + 1) }
  match f.st with
  | .empty => f
  | .stale => if short then { f with work := f.snap, st := .stale, conf := 128 } else emptyFit s t f
  | _ => { f with work := f.snap, st := .stale, conf := 128 }

/-- An error found at preload makes the record EMPTY, is counted and is reported (R88). -/
def storeError (t : Nat) (s : State) : State :=
  raise Ev.fittingStoreError (dieOfTerm s t) [.u16 (termTree s t), .u16 (fitOf s t).slot]
    (bump 0 (dieNum (dieOfTerm s t)) Cn.storeErrors 1 (modFit t (emptyFit s t) s))

/-! ### The fitting reset command (R87) -/

/-- Set a record to EMPTY or STALE. -/
def resetFit (t : Nat) (empty : Bool) (s : State) : State :=
  modFit t (fun f => if empty then emptyFit s t f else { f with st := .stale, conf := 128 }) s

/-- A burst of the terminal is being received: its channel's first cue item is the terminal's and is swapped in. -/
def receiving (s : State) (t : Nat) : Bool :=
  match (termOf s t).ch with
  | none => false
  | some ch => (((chOf s ch).cue.head?).map fun c => c.swapped && c.term == t).getD false

/-- The reset takes effect at the end of the burst being received, or at once. -/
def askFitReset (t : Nat) (empty : Bool) (s : State) : State :=
  if receiving s t then modTerm t (fun x => { x with fitReset := some empty }) s else resetFit t empty s

def execFittingReset (dt : Nat) (h : Hdr) (term : Nat) (empty : Bool) (s : State) : Host.Outcome State Fault Refusal :=
  .next <| hostCmd dt Op.fittingReset h (fun s =>
    if !(cfgOf s).has Kind.terminal term then fail St.handle s
    else if (s.pon.fits.find? term).isNone then fail St.state s
    else okay (toStandby (quadrantOfTree (termTree s term)) (.hostEvent (.fittingReset term empty)) (askFitReset term empty s))) s

end Sys2Proof.Machine
end

