-- ==== Sys2Proof/Machine/Ranging.lean ====
section
/-! DEFINITION. Discovery answers, activation, drift and step corrections, feeder changes, lost terminals and rogues (R109 to R129). -/

namespace Sys2Proof.Machine
open Sys2Proof

/-! ### Discovery answers (R47, R70, R71, R110) -/

/-- The terminal that a tree's records provision a serial number for. -/
def termOfSerial (s : State) (tree serial : Nat) : Option Nat :=
  (((cfgOf s).liveOf Kind.terminal).find? fun o =>
    (cfgOf s).valN Kind.terminal o.num Fld.trmTree == tree && (cfgOf s).valN Kind.terminal o.num Fld.trmSerial == serial).map (·.num)

/-- The highest rate that the announced capability and the record both allow (R47). -/
def grantedRate (s : State) (t ch : Nat) (cap : Rate) : Option Rate :=
  if isWide ch then ((allowedRates (cfgOf s) t).filter fun r => decide (rateNum r ≤ rateNum cap)).getLast? else some .r9

/-- Whether a narrow answer of a terminal whose record names either channel is acted on (R71). -/
def narrowActs (s : State) (t ch : Nat) : Bool :=
  let w := wideOf (treeOf ch)
  let x := chOf s w
  !(cfgOf s).on Kind.channel w Fld.chEnable
    || (x.discPostponed && decide (x.discNext + discoveryPeriod s w < s.now))
    || ((termOf s t).narrowSeen && (discoveryRates s w).all fun r => (termOf s t).wideMissed.contains r)

/-- The ONU-ID of a new assignment: the one the record names, or the lowest free one (R54, R71). -/
def chooseOnu (s : State) (t : Nat) : Option Nat :=
  let c := cfgOf s
  let named := c.val Kind.terminal t Fld.trmOnu
  if 0 ≤ named then some named.toNat
  else firstFrom (fun v => !onuHeld s c (allowedChannels c t) v t && !onuHeld s (namedCfg s) (allowedChannels c t) v t) 1021 0

/-- The start of the channel's last discovery window. -/
def lastDiscovery (s : State) (ch : Nat) : Time :=
  (((chOf s ch).windows.filter fun w => w.kind == .discovery).getLast?.map (·.start)).getD s.now

/-- A terminal is assigned an ONU-ID: Assign_ONU-ID is queued, its fitting slot taken, and a QUIET channel becomes ACTIVE. -/
def assign (t ch onu : Nat) (r : Rate) (arrival : Time) (s : State) : State :=
  let serial := (cfgOf s).valN Kind.terminal t Fld.trmSerial
  let s :=
    if (chOf s ch).st = .quiet then
      let from_ := lastDiscovery s ch
      let s := enterCh ch .active s
      modCh ch (fun x => { x with discNext := from_ + discoveryPeriod s ch, discPostponed := false }) s
    else s
  let s := modTerm t (fun x => { x with st := .assigned, ch := some ch, onu := some onu, rate := r, snArrival := arrival,
                                        enteredAt := s.now, grants := 0, rangingAt := none, narrowSeen := false, wideMissed := [] }) s
  let s := assignFit ch r t onu s
  sendRanging t none (sendPloam ch (.assignOnu onu serial) s)

/-- A readable answer of a provisioned terminal. -/
def answer (t ch : Nat) (cap : Rate) (arrival : Time) (s : State) : State :=
  let x := termOf s t
  let c := cfgOf s
  let dup := bump 7 ch Cn.duplicateDiscovery 1
  if x.st = .disabled then s
  else if registered x.st then if x.ch = some ch then s else dup s
  else if !(allowedChannels c t).contains ch then dup s
  else if !isWide ch && (allowedChannels c t).length == 2 && !narrowActs s t ch then
    modTerm t (fun y => { y with narrowSeen := true }) s
  else
    match grantedRate s t ch cap, chooseOnu s t with
    | some r, some onu => assign t ch onu r arrival s
    | _, _ => s

/-- The channel takes discovery answers: it lights the fibre and is ACTIVE, or QUIET and awake. -/
def takesAnswers (s : State) (ch : Nat) : Bool :=
  sendsFrames s ch && ((chOf s ch).st == .active || (chOf s ch).st == .quiet)

def execSerialNumberOnu (dt : Nat) (ch serial : Nat) (rate : Rate) (arrival : Time) (s : State) :
    Host.Outcome State Fault Refusal :=
  let s := tick dt s
  .next <|
    if !takesAnswers s ch then s
    else
      match termOfSerial s (treeOf ch) serial with
      | none => raiseLimited Ev.unknownSerial (dieOfChannel ch) serial (Time.sec 60) [.u16 ch, .u64 serial] s
      | some t => answer t ch rate arrival s

/-! ### Ranging and activation (R111) -/

/-- Remove a terminal's requests for quiet windows. -/
def dropWindowsOf (t : Nat) (ch : Nat) (s : State) : State :=
  modCh ch (fun x => { x with windowsDue := x.windowsDue.filter fun w => w.term != some t }) s

/-- A terminal of a SHADOW channel takes its ranging from the holder (R113). -/
def followsHolder (s : State) (t : Nat) : Bool := ((termOf s t).ch.map fun ch => (chOf s ch).st == .shadow).getD false

def execRegistration (dt : Nat) (term : Nat) (arrival : Time) (s : State) : Host.Outcome State Fault Refusal :=
  let s := tick dt s
  let x := termOf s term
  .next <|
    if followsHolder s term then s
    else
    match x.st, x.ch with
    | .assigned, some ch =>
      let eqd : Int := (targetDelay s ch : Int) - arrival
      let s := modTerm term (fun y => { y with st := .ranged, rtd := arrival, eqd := eqd, enteredAt := s.now,
                                               rangingAt := some (s.now + Time.ms 10), needPloamu := true }) s
      sendRanging term none
        (recompute term (sendTo term (fun o => .rangingTime o false eqd) (dropWindowsOf term ch s)))
    | _, _ => s

/-- An attempt has ended: three grants without a reply, or no Acknowledge within 10 ms. -/
def activationOver (s : State) (t : Nat) : Bool :=
  let x := termOf s t
  match x.st, x.rangingAt with
  | .assigned, some e => decide (3 ≤ x.grants ∧ e ≤ s.now)
  | .ranged, some e => decide (e ≤ s.now)
  | _, _ => false

def execActivationFailed (dt : Nat) (term : Nat) (s : State) : Host.Outcome State Fault Refusal :=
  let s := tick dt s
  .next <|
    if activationOver s term && !followsHolder s term then
      raise Ev.activationFailed (dieOfTerm s term) [.u16 term]
        (deactivate term (match (termOf s term).ch with | some ch => dropWindowsOf term ch s | none => s))
    else s

/-! ### Corrections (R114, R115, R125) -/

/-- Send a unicast relative Ranging_Time that moves a terminal's bursts earlier by `amount`; one that falls due while another is
outstanding waits. -/
def sendCorrection (t : Nat) (amount : Int) (s : State) : State :=
  if (termOf s t).corr.isSome then modTerm t (fun x => { x with corrWaiting := true }) s
  else
    bump 10 t Cn.driftSteps 1 (sendTo t (fun o => .rangingTime o true (-amount))
      (modTerm t (fun x => { x with corr := some ⟨amount, s.now, false⟩, corrWaiting := false, drift := [], needPloamu := true }) s))

/-- The tree's steps leave a split-path tree's time of day UNVERIFIED (R123). -/
def markUnverified (tree : Nat) (s : State) : State :=
  if splitPath s tree then
    let s := modCh (wideOf tree) (fun x => { x with asymConfirmed := false })
      (modCh (narrowOf tree) (fun x => { x with asymConfirmed := false }) s)
    raise Ev.todUnverified (dieOfTree tree) [.u16 tree]
      { s with pon := { s.pon with todUnverified := s.pon.todUnverified.set tree s.pon.sf } }
  else s

/-- An outstanding correction is acknowledged: the EqD falls and the RTD rises by the amount, and the mean restarts. -/
def applyCorrection (t : Nat) (s : State) : State :=
  match (termOf s t).corr with
  | none => s
  | some c =>
    let s := modTerm t (fun x => { x with eqd := x.eqd - c.amount, rtd := x.rtd + c.amount, corr := none,
                                          drift := [], todDue := s.now }) s
    sendRanging t none (recompute t s)

/-- The drift threshold of a terminal's tree in ps. -/
def driftThreshold (s : State) (t : Nat) : Nat := (cfgOf s).valN Kind.tree (termTree s t) Fld.treeDriftPs

/-- An accepted burst's offset joins the mean of the last 8, which is corrected when it reaches the threshold (R114). -/
def trackDrift (t : Nat) (off : Int) (s : State) : State :=
  let s := modTerm t (fun x => { x with drift := lastN 8 (x.drift ++ [off]) }) s
  let l := (termOf s t).drift
  if decide (l.length = 8) && decide (driftThreshold s t ≤ (meanInt l).natAbs) then sendCorrection t (meanInt l) s else s

/-- An accepted burst of an OPERATIONAL terminal that is no step: a correction that waited is sent with the burst's offset once
none is outstanding, and otherwise the offset joins the mean (R114). -/
def useDrift (t : Nat) (off : Int) (s : State) : State :=
  if (termOf s t).corrWaiting && (termOf s t).corr.isNone then sendCorrection t off s else trackDrift t off s

/-- A correction that is judged on this burst is taken as acknowledged when the burst arrives within 2 ns of its place, and as
lost otherwise (R114). -/
def judgeCorrection (t : Nat) (off : Int) (s : State) : State :=
  match (termOf s t).corr with
  | none => s
  | some c =>
    if !c.judging then s
    else if off.natAbs ≤ 2000 then applyCorrection t s
    else modTerm t (fun x => { x with corr := none, drift := [] }) s

def execRangingCorrectionTimeout (dt : Nat) (term : Nat) (s : State) : Host.Outcome State Fault Refusal :=
  let s := tick dt s
  .next <|
    match (termOf s term).corr with
    | none => s
    | some c =>
      if !c.judging && decide (c.sentAt + Time.ms 10 ≤ s.now) then
        modTerm term (fun x => { x with corr := some { c with judging := true } }) s
      else s

/-- A terminal returns from SEARCHING to OPERATIONAL (R125). -/
def foundAgain (t : Nat) (s : State) : State := sendRanging t none (enterOperational t s)

/-- An Acknowledge of a ranging message. -/
def rangingAcked (t : Nat) (s : State) : State :=
  if followsHolder s t then s
  else
  match (termOf s t).st with
  | .ranged => sendRanging t none (raise Ev.terminalActivated (dieOfTerm s t) [.u16 t] (enterOperational t s))
  | .operational => applyCorrection t s
  | .searching => if (termOf s t).corr.isSome then foundAgain t (applyCorrection t s) else s
  | _ => s

def execAcknowledge (dt : Nat) (term : Nat) (what : AckOf) (s : State) : Host.Outcome State Fault Refusal :=
  let s := tick dt s
  .next <|
    if !registered (termOf s term).st then s
    else
      let s := modTerm term (fun x => { x with needPloamu := false }) s
      match what with
      | .ranging => rangingAcked term s
      | .profile => moveToIncoming term (modTerm term (fun x => { x with profAckDue := none, profResends := 0 }) s)
      | .other => s

/-! ### Lost terminals (R99, R125) -/

/-- The next SEARCHING grant falls due. -/
def searchingDue (t : Nat) (s : State) : State :=
  match (termOf s t).ch with
  | none => s
  | some ch =>
    modCh ch (fun x => { x with windowsDue := x.windowsDue ++ [{ kind := .searching, term := some t, rate := (termOf s t).rate,
                                                                  len := 2 * reachSpread s ch }] }) s

/-- R99's conditions hold for a terminal. -/
def burstsLost (s : State) (t : Nat) : Bool :=
  let x := termOf s t
  match x.ch with
  | none => false
  | some ch =>
    x.st == .operational && decide (8 ≤ x.lostRun) && decide (x.lostSince + Time.ms 1 ≤ s.now) && !(chOf s ch).los
      && !searchOn s (treeOf ch)

def execTerminalBurstLoss (dt : Nat) (term : Nat) (s : State) : Host.Outcome State Fault Refusal :=
  let s := tick dt s
  .next <|
    if burstsLost s term && !followsHolder s term then
      let s := raise Ev.terminalBurstLoss (dieOfTerm s term) [.u16 term] s
      if (termOf s term).underTest then modTerm term (fun x => { x with lostRun := 0 }) s
      else
        let s := modTerm term (fun x => { x with st := .searching, enteredAt := s.now, lostRun := 0, drift := [], corr := none, corrWaiting := false })
          (leaveOperational term s)
        sendRanging term none (searchingDue term s)
    else s

def execTerminalLost (dt : Nat) (term : Nat) (s : State) : Host.Outcome State Fault Refusal :=
  let s := tick dt s
  let x := termOf s term
  let loss := Time.ms ((cfgOf s).valN Kind.tree (termTree s term) Fld.treeLossMs)
  .next <|
    if x.st == .searching && !followsHolder s term && decide (x.enteredAt + loss ≤ s.now) then
      raise Ev.terminalLost (dieOfTerm s term) [.u16 term]
        (deactivate term (match x.ch with | some ch => dropWindowsOf term ch s | none => s))
    else s

/-! ### Feeder changes (R118 to R121) -/

/-- The wide and narrow steps of a tree are compared with the configured indices (R118). -/
def compareIndices (tree : Nat) (s : State) : State :=
  match (chOf s (wideOf tree)).lastStep, (chOf s (narrowOf tree)).lastStep with
  | some (w, a), some (n, b) =>
    let near := (a - b).toNat ≤ 2 || (b - a).toNat ≤ 2
    let sn : Int := groupSum s (narrowOf tree)
    let sw : Int := groupSum s (wideOf tree)
    if near && decide (1000000 < w.natAbs) && decide (1000000 < n.natAbs)
        && decide (2 * (sn * w).natAbs < 10000 * (n * sw - sn * w).natAbs) then
      raise Ev.indexMismatch (dieOfTree tree) [.u16 tree, .u32 (n * 10000000 / w).toNat] s
    else s
  | _, _ => s

/-- The broadcast adjustment of a step, clipped to the EqDs of the channel. -/
def adjustment (s : State) (ch : Nat) (step : Int) : Int :=
  let l := (chTerms s ch).map fun t => (termOf s t).eqd
  let m := l.foldl min (l.headD 0)
  let mx := l.foldl max (l.headD 0)
  let e : Int := Config.eqdMax (isWide ch)
  if l.isEmpty then -step else if m < step then -m else if e - mx < -step then e - mx else -step

/-- Steps 2 to 6 of R121 for a step of the channel: the broadcast, the shifted expectation, the restart of drift means and
activations, and the new lengths. -/
def adjustChannel (ch : Nat) (step : Int) (s : State) : State :=
  let a := adjustment s ch step
  let s := sendPloam ch (.rangingTime bcastOnu true a) s
  let s := modCh ch (fun x => { x with
    expShift := x.expShift + step
    cue := x.cue.map fun c => { c with arrival := ((c.arrival : Int) + step).toNat } }) s
  forAll (chTerms s ch) (fun t s =>
    let s := modTerm t (fun x => { x with eqd := x.eqd + a, rtd := x.rtd + step, drift := [], corr := none, corrWaiting := false,
                                          todDue := s.now }) s
    let s := recompute t s
    match (termOf s t).st with
    | .assigned => rangingDue t (modTerm t (fun x => { x with grants := 0, rangingAt := none }) (dropWindowsOf t ch s))
    | .ranged => rangingDue t (modTerm t (fun x => { x with st := .assigned, grants := 0, rangingAt := none }) s)
    | _ => s) s

/-- A feeder change with a step is declared on a channel. -/
def feederChange (ch : Nat) (step : Int) (s : State) : State :=
  let s := raise Ev.feederChange (dieOfChannel ch) [.u16 ch, .u64 (step % 2 ^ 64).toNat] s
  let s := modCh ch (fun x => { x with lastStep := some (step, s.pon.sf), search := none, missFrames := 0 }) s
  let s := markUnverified (treeOf ch) (compareIndices (treeOf ch) s)
  forAll (chTerms s ch) (fun t => sendRanging t none) (adjustChannel ch step s)

/-- The step that a direct feeder change shows, if it does (R119). -/
def directStep (offs : List (Nat × Int)) : Option Int :=
  let n := offs.length
  let try_ := fun (l : List Int) =>
    let m := medianInt l
    if 4 ≤ n && decide (n < 2 * (l.filter fun x => decide ((x - m).natAbs ≤ 2000)).length) then some m else none
  match try_ ((offs.map (·.2)).filter fun x => decide (8000 < x)) with
  | some m => some m
  | none => try_ ((offs.map (·.2)).filter fun x => decide (x < -8000))

/-- The excess of a step over a feeder change's is corrected when it is above 8 ns (R115). -/
def correctExcess (step : Int) (p : Nat × Int) (s : State) : State :=
  if decide (8000 < p.2.natAbs) && decide (8000 < (p.2 - step).natAbs) then sendCorrection p.1 (p.2 - step) s else s

/-- A step outside a feeder change is corrected whole (R115). -/
def correctStep (p : Nat × Int) (s : State) : State :=
  if 8000 < p.2.natAbs then sendCorrection p.1 p.2 (markUnverified (termTree s p.1) s) else s

/-- The terminals of a feeder search: up to 4 OPERATIONAL ones of the highest CONF (R120). -/
def searchTerms (s : State) (ch : Nat) : List Nat :=
  let l := opTerms s ch
  let best := fun (l : List Nat) => l.foldl (fun (a : Option Nat) t =>
    match a with
    | none => some t
    | some b => if (fitOf s b).conf < (fitOf s t).conf then some t else some b) none
  ((List.range 4).foldl (fun (p : List Nat × List Nat) _ =>
    match best p.2 with
    | none => p
    | some t => (p.1 ++ [t], p.2.erase t)) ([], l)).1

/-- A feeder search asks for its shared window. -/
def askSearch (ch : Nat) (second : Bool) (s : State) : State :=
  modCh ch (fun x => { x with
    search := some ⟨second, searchTerms s ch, none⟩
    windowsDue := x.windowsDue ++ [{ kind := .feeder, rate := lowestRate (cfgOf s) ((searchTerms s ch).headD 0) ch,
                                     len := 2 * reachSpread s ch }] }) s

/-- More than half of at least 4 granted bursts were not accepted. -/
def frameMissed (x : Channel) : Bool := decide (4 ≤ x.frExpected) && decide (x.frExpected < 2 * x.frMissed)

/-- A wide discovery window has ended at a rate: narrow answers waiting for it take note (R71). -/
def noteWideMissed (ch : Nat) (s : State) : State :=
  if !isWide ch then s
  else
    let ended := ((chOf s ch).windows.filter fun w => w.kind == .discovery && decide (w.start + w.len ≤ s.now)).map (·.rate)
    forAll ((treeTerms s (treeOf ch)).filter fun t => (termOf s t).narrowSeen) (fun t =>
      modTerm t fun x => { x with wideMissed := x.wideMissed ++ ended.filter fun r => !x.wideMissed.contains r }) s

/-- The tests at the end of an upstream frame (R100, R119, R126). -/
def frameEnd (ch gaps : Nat) (s : State) : State :=
  let x := chOf s ch
  let s := modCh ch (fun y => { y with
    frExpected := 0, frHeard := false, frMissed := 0, frOffsets := []
    losFrames := if x.frExpected != 0 && !x.frHeard then x.losFrames + 1 else 0
    missFrames := if frameMissed x then x.missFrames + 1 else 0
    gapFrames := if 4 ≤ gaps then x.gapFrames + 1 else 0 }) s
  let s := noteWideMissed ch s
  match directStep x.frOffsets with
  | some m => forAll x.frOffsets (correctExcess m) (feederChange ch m s)
  | none =>
    let s := forAll x.frOffsets correctStep s
    if decide (2 ≤ (chOf s ch).missFrames) && (chOf s ch).search.isNone && !(chOf s ch).los then askSearch ch false s else s

def execUpstreamFrameEnd (dt : Nat) (ch gapsWithEnergy : Nat) (s : State) : Host.Outcome State Fault Refusal :=
  let s := tick dt s
  .next <|
    match (chOf s ch).st with
    | .active => frameEnd ch gapsWithEnergy s
    | .quiet => frameEnd ch gapsWithEnergy s
    | .shadow => modCh ch (fun x => { x with
        frExpected := 0, frHeard := false, frMissed := 0, frOffsets := []
        losFrames := if x.frExpected != 0 && !x.frHeard then x.losFrames + 1 else 0 }) s
    | _ => s

/-- The median of the largest group of answers that agree within 2 ns, when there are at least 2 (R120). -/
def agreedStep (answers : List Int) : Option Int :=
  let group := fun m => answers.filter fun x => decide ((x - m).natAbs ≤ 2000)
  let best := answers.foldl (fun (a : List Int) m => if a.length < (group m).length then group m else a) []
  if 2 ≤ best.length then some (medianInt best) else none

/-- The answers of a feeder search's window (R120). -/
def searchResult (ch : Nat) (second : Bool) (answers : List Int) (s : State) : State :=
  match agreedStep answers with
  | some m => feederChange ch m s
  | none =>
    if second then
      raise Ev.feederSearchFailed (dieOfChannel ch) [.u16 ch] (modCh ch (fun x => { x with search := none, missFrames := 0 }) s)
    else askSearch ch true s

def execFeederSearchResult (dt : Nat) (ch : Nat) (answers : List Int) (s : State) : Host.Outcome State Fault Refusal :=
  let s := tick dt s
  .next <|
    match (chOf s ch).search with
    | none => s
    | some x =>
      match x.windowEnd with
      | none => s
      | some e =>
        if e ≤ s.now then
          releaseDiscovery (narrowOf (treeOf ch)) (releaseDiscovery (wideOf (treeOf ch)) (searchResult ch x.second answers s))
        else s

/-! ### Rogue terminals (R126 to R129) -/

/-- The ONU-ID that 3 foreign bursts of the last second named. -/
def foreignNamed (x : Channel) (now : Time) : Option Nat :=
  let l := (x.foreign.filter fun p => decide (now < p.2 + Time.sec 1)).map (·.1)
  l.find? fun o => decide (3 ≤ l.count o)

/-- Candidates: up to 16 OPERATIONAL terminals whose working gain lies within 1 dB of the lane's, nearest first. -/
def rogueCandidates (s : State) (ch gain : Nat) : List Nat :=
  let dist := fun t => ((fitOf s t).work.getD 11 0 - (gain : Int)).natAbs
  let l := (opTerms s ch).filter fun t => decide (dist t ≤ 8)
  ((List.range 9).flatMap fun d => l.filter fun t => dist t == d).take 16

/-- Isolation is automatic on a tree. -/
def autoIsolates (s : State) (ch : Nat) : Bool := s.twin.held && (cfgOf s).on Kind.tree (treeOf ch) Fld.treeRogueAuto

def serialOf (s : State) (t : Nat) : Nat := (cfgOf s).valN Kind.terminal t Fld.trmSerial

/-- Disable a terminal under suspicion and tell the twin. -/
def disableTerm (ch t : Nat) (s : State) : State :=
  let s := sendPloam ch (.disableSerial (serialOf s t) false) s
  let s := modTerm t (fun x => { x with underTest := true }) (dropTerm t .disabled s)
  toStandby (quadrantOf ch) (.hostEvent (.rogueDisable t)) s

/-- Enable a terminal again: it is ABSENT. -/
def enableTerm (ch t : Nat) (s : State) : State :=
  let s := sendPloam ch (.disableSerial (serialOf s t) true) s
  let s := modTerm t (fun x => { x with st := .absent, underTest := false, enteredAt := s.now }) s
  toStandby (quadrantOf ch) (.hostEvent (.rogueEnable t)) s

/-- Test the next candidate, or leave the suspicion unresolved (R127, R128). -/
def nextCandidate (ch : Nat) (s : State) : State :=
  match (chOf s ch).rogue with
  | none => s
  | some r =>
    match r.candidates with
    | t :: rest =>
      disableTerm ch t (modCh ch (fun x => { x with rogue := some { r with candidates := rest, current := some t, since := s.pon.sf } }) s)
    | [] =>
      raise Ev.rogueUnresolved (dieOfChannel ch) [.u16 ch]
        (modCh ch (fun x => { x with rogue := some { r with current := none, unresolved := true } }) s)

def suspect (ch gain : Nat) (named : Option Nat) (s : State) : State :=
  let direct := named.bind (termOfOnu s ch)
  let cands := match direct with
    | some t => [t]
    | none => rogueCandidates s ch gain
  let r : Rogue := { named := direct, candidates := cands, since := s.pon.sf }
  let s := raise Ev.rogueSuspect (dieOfChannel ch) [.u16 ch] (modCh ch (fun x => { x with rogue := some r }) s)
  if autoIsolates s ch then nextCandidate ch s else s

def execRogueSuspect (dt : Nat) (ch gain : Nat) (s : State) : Host.Outcome State Fault Refusal :=
  let s := tick dt s
  let x := chOf s ch
  .next <|
    if x.rogue.isSome || !(x.st == .active || x.st == .quiet || x.st == .shadow) then s
    else
      match foreignNamed x s.now with
      | some onu => suspect ch gain (some onu) s
      | none => if 8 ≤ x.gapFrames then suspect ch gain none s else s

/-- The suspicion clears: a discovery window follows within 10 ms (R108, R127). -/
def clearSuspicion (ch : Nat) (s : State) : State :=
  releaseDiscovery ch
    (modCh ch (fun x => { x with rogue := none, gapFrames := 0, foreign := [], discNext := min x.discNext s.now }) s)

def checkCandidate (ch t : Nat) (energy : Bool) (s : State) : State :=
  if energy then nextCandidate ch (enableTerm ch t s)
  else
    raise Ev.rogueIsolated (dieOfChannel ch) [.u16 t, .u64 (serialOf s t)]
      (clearSuspicion ch (modTerm t (fun x => { x with underTest := false }) s))

/-- A suspicion under which no candidate is disabled: it ends when the energy is gone, and its isolation starts when this unit has
come to hold the token or the tree's isolation has become automatic. One that is left unresolved waits for the host (R128). -/
def untestedCheck (ch : Nat) (energy unresolved : Bool) (s : State) : State :=
  if unresolved then s
  else if !energy then clearSuspicion ch s
  else if autoIsolates s ch then nextCandidate ch s
  else s

def execRogueCandidateCheck (dt : Nat) (ch : Nat) (energy : Bool) (s : State) : Host.Outcome State Fault Refusal :=
  let s := tick dt s
  .next <|
    match (chOf s ch).rogue with
    | none => s
    | some r =>
      if (s.pon.sf - r.since).toNat < 2 then s
      else
      match r.current with
      | none => untestedCheck ch energy r.unresolved s
      | some t => checkCandidate ch t energy s

/-- The host enables a DISABLED terminal: it returns to ABSENT, and an unresolved suspicion of its tree ends (R128). -/
def hostEnable (t : Nat) (s : State) : State :=
  let tree := termTree s t
  let s := forAll [wideOf tree, narrowOf tree] (fun c s =>
    let s := sendPloam c (.disableSerial (serialOf s t) true) s
    doIf (((chOf s c).rogue.map (·.unresolved)).getD false) (clearSuspicion c) s) s
  toStandby (quadrantOfTree tree) (.hostEvent (.rogueEnable t))
    (modTerm t (fun x => { x with st := .absent, underTest := false, enteredAt := s.now }) s)

def execTerminalEnable (dt : Nat) (h : Hdr) (term : Nat) (s : State) : Host.Outcome State Fault Refusal :=
  .next <| hostCmd dt Op.terminalEnable h (fun s =>
    if !(cfgOf s).has Kind.terminal term then fail St.handle s
    else if (termOf s term).st != .disabled then fail St.state s
    else okay (hostEnable term s)) s

/-! ### Asymmetry of split-path trees (R123, R124) -/

/-- The host supplies a channel's asymmetry; confirming it on both channels clears UNVERIFIED. -/
def setAsymmetry (ch : Nat) (ps : Int) (confirm : Bool) (s : State) : State :=
  let tree := treeOf ch
  let s := modCh ch (fun x => { x with asym := ps, asymConfirmed := x.asymConfirmed || confirm }) s
  let both := (chOf s (wideOf tree)).asymConfirmed && (chOf s (narrowOf tree)).asymConfirmed
  let s := doIf both (fun s => { s with pon := { s.pon with todUnverified := s.pon.todUnverified.del tree } }) s
  forAll (chTerms s (wideOf tree) ++ chTerms s (narrowOf tree)) (fun t s =>
    modTerm t (fun x => { x with todDue := s.now }) (recompute t s)) s

def execAsymmetrySet (dt : Nat) (h : Hdr) (ch : Nat) (asymPs : Int) (confirm : Bool) (s : State) :
    Host.Outcome State Fault Refusal :=
  .next <| hostCmd dt Op.asymmetrySet h (fun s =>
    if Config.nChannels ≤ ch then fail St.handle s
    else if !splitPath s (treeOf ch) then fail St.state s
    else okay (setAsymmetry ch asymPs confirm s)) s

end Sys2Proof.Machine
end

