-- ==== Sys2Proof/Machine/Bursts.lean ====
section
/-! DEFINITION. Burst reception: CUE pulses, preload and swap, the reception of one granted burst, and the loss of signal and lock (R56 to R58, R79 to R84, R89, R90, R94 to R102). -/

namespace Sys2Proof.Machine
open Sys2Proof

/-- A channel's burst lane receives (Table 2.5). -/
def lanesReceive (s : State) (ch : Nat) : Bool :=
  let x := chOf s ch
  match x.st with
  | .active => true
  | .shadow => true
  | .draining => true
  | .quiet => x.awake
  | _ => false

/-- Change the first item of a channel's cue queue that a test picks out. -/
def modFirst (p : CueItem → Bool) (f : CueItem → CueItem) : List CueItem → List CueItem
  | [] => []
  | c :: t => if p c then f c :: t else c :: modFirst p f t

/-! ### CUE, preload and swap (R82, R84, R89, R90) -/

/-- The instants of the two edges of a cue pulse. -/
def cueEdges (s : State) (ch : Nat) (c : CueItem) : Int × Int :=
  let rise : Int := (c.arrival : Int) - chValN s ch Fld.chCueLead + chVal s ch Fld.chCueSkew
  (rise, rise + chValN s ch Fld.chCueWidth)

def execCuePulse (dt : Nat) (ch : Nat) (s : State) : Host.Outcome State Fault Refusal :=
  let s := tick dt s
  .next <|
    match (chOf s ch).cue.find? fun c => !c.cued with
    | none => s
    | some c =>
      let e := cueEdges s ch c
      if isDark s ch || (chOf s ch).st == .faulted || decide ((s.now : Int) < e.1) then s
      else emit (.cue ch e.1 e.2) (modCh ch (fun x => { x with cue := modFirst (fun c => !c.cued) (fun c => { c with cued := true }) x.cue }) s)

/-- The item's burst is a terminal's, not a discovery answer. -/
def directed (c : CueItem) : Bool := c.quiet != some .discovery

/-- The working set of the next item's record goes to the shadow registers; an error of the store makes the record EMPTY
first (R88). A discovery window takes the starting point of its rate. -/
def preload (ch : Nat) (bad : Bool) (c : CueItem) (s : State) : State :=
  let s := doIf (bad && directed c) (storeError c.term) s
  modCh ch (fun x => { x with
    shadow := if directed c then some c.term else none
    cue := modFirst (fun c => !c.preloaded) (fun c => { c with preloaded := true }) x.cue }) s

def execFittingPreload (dt : Nat) (ch : Nat) (storeError : Bool) (s : State) : Host.Outcome State Fault Refusal :=
  let s := tick dt s
  .next <|
    match (chOf s ch).cue.find? fun c => !c.preloaded with
    | none => s
    | some c => if lanesReceive s ch then preload ch storeError c s else s

/-- At the start of the guard time the shadow set is swapped in and the rate set; a burst of the terminal just received skips
the swap. -/
def swapIn (ch : Nat) (c : CueItem) (s : State) : State :=
  modCh ch (fun x => { x with
    receiver := if directed c && x.receiver == some c.term then x.receiver else x.shadow
    laneRate := c.rate
    cue := modFirst (fun c => c.preloaded && !c.swapped) (fun c => { c with swapped := true }) x.cue }) s

def execBurstGuardStart (dt : Nat) (ch : Nat) (s : State) : Host.Outcome State Fault Refusal :=
  let s := tick dt s
  .next <|
    match (chOf s ch).cue.find? fun c => c.preloaded && !c.swapped with
    | none => s
    | some c => if lanesReceive s ch then swapIn ch c s else s

/-! ### Gap gating (R407) -/

/-- The exit time of a ladder state (Table 17.1). -/
def exitTime : Ladder → Time
  | .run => 0
  | .idle => Time.ns 100
  | .doze => Time.us 1
  | .nap => Time.us 10
  | .sleep => Time.us 100
  | .dormant => Time.ms 1

/-- A burst lane that enters a ladder state now has left it, and has preloaded, by the start of an item's guard time. -/
def restFits (s : State) (ch : Nat) (c : CueItem) (l : Ladder) : Bool :=
  decide (s.now + exitTime l + Time.us 1 + Time.ns (profNs (cfgOf s) ch c.rate c.short 0) ≤ c.arrival)

/-- The ladder state of a burst lane by its cue queue: the deepest of Idle, Doze and Nap that ends in time, in an upstream gap. -/
def gapState (s : State) (ch : Nat) : Ladder :=
  match (chOf s ch).cue with
  | [] => .nap
  | c :: _ => if c.swapped then .run else ([.nap, .doze, .idle].find? (restFits s ch c)).getD .run

/-- The energy that a gap of an ACTIVE or SHADOW channel saves is counted; the amount is a free value. -/
def countGap (ch : Nat) (s : State) : State :=
  if ((chOf s ch).st == .active || (chOf s ch).st == .shadow) && gapState s ch != .run then
    drawn (bump 7 ch Cn.gapEnergy (Config.random s.draw) s)
  else s

/-! ### A burst that is not accepted (R98 to R101) -/

/-- How the lane classes a granted burst (R56, R98, R106). -/
inductive BurstClass | absent | preloadFailure | foreign | accepted
  deriving DecidableEq, Repr

/-- The delimiter lies within the window: ±32 ns, or anywhere in a quiet window. -/
def delimFound (c : CueItem) (d : Option Int) : Bool :=
  match d with
  | none => false
  | some x => c.quiet.isSome || decide (x.natAbs ≤ 32000)

def classOf (c : CueItem) (o : BurstObs) : BurstClass :=
  if !o.energy then .absent
  else if !delimFound c o.delim then .preloadFailure
  else if o.onu != c.onu then .foreign
  else .accepted

def classCounter : BurstClass → Nat
  | .absent => Cn.burstsAbsent
  | .preloadFailure => Cn.burstsNoDelim
  | .foreign => Cn.wrongOnu
  | .accepted => Cn.burstsAccepted

/-- The count of R99 runs on a terminal: it is OPERATIONAL, the channel has signal and lock, and no search is on its tree. -/
def countsLoss (s : State) (ch t : Nat) : Bool :=
  (termOf s t).st == .operational && !(chOf s ch).los && !(chOf s ch).lol && !searchOn s (treeOf ch)

/-- One more burst of a terminal is lost in a row. -/
def countLost (t : Nat) (s : State) : State :=
  modTerm t (fun x => { x with lostSince := if x.lostRun = 0 then s.now else x.lostSince, lostRun := x.lostRun + 1 }) s

/-- A preload failure changes the record, unless signal or lock is lost, and is reported once per second (R98, R100, R101). -/
def failPreload (ch : Nat) (c : CueItem) (s : State) : State :=
  if (chOf s ch).los || (chOf s ch).lol then s
  else
    raiseLimited Ev.fittingPreloadFail (dieOfTerm s c.term) c.term (Time.sec 1) [.u16 c.term]
      (bump 7 ch Cn.preloadFails 1 (modFit c.term (preloadFailed s c.term c.short) s))

/-- The grant of a quiet window went unanswered: the next one falls due (R111, R125). -/
def windowMissed (c : CueItem) (s : State) : State :=
  match c.quiet with
  | some .ranging => doIf ((termOf s c.term).st == .assigned && decide ((termOf s c.term).grants < 3)) (rangingDue c.term) s
  | some .searching => doIf ((termOf s c.term).st == .searching) (searchingDue c.term) s
  | _ => s

/-- A granted unicast burst is kept for the next tally of a standby (R323). -/
def logBurst (ch : Nat) (c : CueItem) (accepted : Bool) (s : State) : State :=
  modCh ch (fun x => { x with
    burstLog := if c.quiet.isNone && s.twin.paired && !s.twin.held then x.burstLog ++ [(c.sf, c.place, accepted)] else x.burstLog }) s

/-- The frame's figures: whether a granted burst was heard, and for one outside quiet windows the counts of R100 and R119. -/
def frameCount (ch : Nat) (c : CueItem) (k : BurstClass) (s : State) : State :=
  let s := modCh ch (fun x => { x with frHeard := x.frHeard || k != .absent }) s
  if c.quiet.isSome then s
  else
    modCh ch (fun x => { x with
      frExpected := x.frExpected + 1
      frMissed := x.frMissed + bit (k != .accepted) }) s

def burstMissed (ch : Nat) (c : CueItem) (o : BurstObs) (k : BurstClass) (s : State) : State :=
  let s := bump 7 ch (classCounter k) 1 (bump 10 c.term Cn.lostBursts 1 s)
  let s := doIf (c.quiet.isNone && countsLoss s ch c.term) (countLost c.term) s
  let s := match k with
    | .preloadFailure => failPreload ch c s
    | .foreign => modCh ch (fun x => { x with
        foreign := (x.foreign.filter fun p => decide (s.now < p.2 + Time.sec 1)) ++ [(o.onu, s.now)] }) s
    | _ => s
  windowMissed c s

/-! ### An accepted burst -/

/-- The first accepted burst clears the loss of signal (R100). -/
def clearLos (ch : Nat) (s : State) : State :=
  let s := modCh ch (fun x => { x with losFrames := 0 }) s
  if (chOf s ch).los then
    raiseClear Ev.upstreamLos (dieOfChannel ch) [.u16 ch] (modCh ch (fun x => { x with los := false }) s)
  else s

/-- Codewords received, corrected and uncorrectable (R57, R58). -/
def countCodewords (ch t : Nat) (cws : List Codeword) (s : State) : State :=
  let bad := (cws.filter fun c => !c.ok).length
  let fixed := (cws.filter fun c => c.ok && c.corrected != 0).length
  let bits := (cws.map (·.corrected)).sum
  let s := modTerm t (fun x => { x with cwTotal := x.cwTotal + cws.length, cwBad := x.cwBad + bad }) s
  let s := bump 7 ch Cn.fecOk (cws.length - bad - fixed) (bump 7 ch Cn.fecCorrected fixed s)
  let s := bump 7 ch Cn.fecBits bits (bump 7 ch Cn.fecBad bad s)
  bump 10 t Cn.termCorrected fixed (bump 10 t Cn.termBits bits (bump 10 t Cn.termUncorrectable bad s))

/-- Write the adapted record back, and report a fence crossing (R95, R97). -/
def writeBack (ch : Nat) (c : CueItem) (o : BurstObs) (s : State) : State :=
  let f := fitOf s c.term
  let s' := modFit c.term (fitAfter s ch o) s
  match crossedField s ch o f with
  | some i => raise Ev.fittingFence (dieOfTerm s c.term) [.u16 c.term, .u8 i] s'
  | none => s'

/-- A codeword of the burst was correctable. -/
def cwOk (o : BurstObs) (i : Nat) : Bool := ((o.cws[i]?).map (·.ok)).getD true

/-- A report enters the inbox of the channel's home bobbin; a full inbox drops it (R57, R134). -/
def takeReport (ch : Nat) (c : CueItem) (o : BurstObs) (r : UpReport) (s : State) : State :=
  if !cwOk o r.cw then s
  else if Config.inboxMax ≤ (chOf s ch).inbox.length then bump 6 ch Cn.reportsDropped 1 s
  else modCh ch (fun x => { x with inbox := x.inbox ++ [⟨r.allocId, r.bytes, c.sf⟩] }) s

/-- The flow that an XGEM Port-ID names on a channel for a terminal. -/
def flowOfPort (s : State) (t port : Nat) : Option Nat :=
  (((cfgOf s).ofKind Kind.flow).find? fun o =>
    (cfgOf s).valN Kind.flow o.num Fld.flTerm == t && (cfgOf s).val Kind.flow o.num Fld.flPort == (port : Int)).map (·.num)

/-- A key under which upstream frames are accepted: installed, not spent; a retired one until it is cleared (R254, R265). -/
def keyAccepts (k : KeyVal) : Bool := k.st != .free && !k.spent

/-- An XGEM frame of a burst: lost with its codewords, of no flow, without a key, or handed to the upstream pipelines. -/
def takeFrame (ch : Nat) (c : CueItem) (o : BurstObs) (f : UpFrame) (s : State) : State :=
  if (List.range o.cws.length).any fun i => decide (f.firstCw ≤ i ∧ i ≤ f.lastCw) && !cwOk o i then bump 7 ch Cn.fragmentLoss 1 s
  else if f.portId == c.onu then s
  else
    match flowOfPort s c.term f.portId with
    | none => bump 7 ch Cn.unknownXgem 1 s
    | some _ =>
      let k := keyOf s (dieOfTerm s c.term) slotData c.term f.keyIndex
      if (f.keyIndex == 1 || f.keyIndex == 2) && keyAccepts k && (!(termOf s c.term).ctxLost || k.st == .loaded) then
        emit (.upFrame ch f.portId f.bytes) s
      else bump 10 c.term Cn.noKeyDrops 1 s

/-- The PLOAM message of a burst is discarded and counted when its MIC fails, its type is unknown or its ONU-ID is not the
header's (R67). -/
def takePloamUp (ch : Nat) (c : CueItem) (o : BurstObs) (s : State) : State :=
  match o.ploamMicOk with
  | none => s
  | some ok =>
    let s := doIf (!ok) (modTerm c.term (fun x => pruneMic s.now { x with micFails := x.micFails ++ [s.now] })) s
    let s := doIf (!o.ploamKnown) (bump 7 ch Cn.ploamUnknown 1) s
    if !ok || !o.ploamKnown || o.ploamOnu != o.onu then bump 10 c.term Cn.ploamBad 1 s else s

/-- The offset of an accepted burst moves the ranging of its terminal; a SHADOW channel only measures (R113 to R115, R125). -/
def useOffset (ch : Nat) (c : CueItem) (off : Int) (s : State) : State :=
  let s := doIf c.quiet.isNone (modCh ch fun x => { x with
    frOffsets := (x.frOffsets.filter fun p => p.1 != c.term) ++ [(c.term, off)] }) s
  let s := doIf c.quiet.isNone (fun s => sendRanging c.term (some off) (modTerm c.term (fun x => { x with lastOff := some off }) s)) s
  if !sendsFrames s ch then s
  else
    match (termOf s c.term).st, c.quiet with
    | .operational, none =>
      let step := decide (8000 < off.natAbs)
      if ((termOf s c.term).corr.map (·.judging)).getD false then judgeCorrection c.term off s
      else if step then s
      else useDrift c.term off s
    | .searching, some .searching =>
      if off.natAbs ≤ 32000 then foundAgain c.term s else sendCorrection c.term off s
    | _, _ => s

/-- The context that decrypts a burst: one that fails its reload is lost before the frames (R275). -/
def burstContext (ch : Nat) (c : CueItem) (o : BurstObs) (s : State) : State :=
  let lost := !ctxGood s slotData c.term o.ctx
  doIf (lost && (termOf s c.term).st == .operational) (contextLost (dieOfChannel ch) c.term) (spillCtx o.ctx s)

def burstAccepted (ch : Nat) (c : CueItem) (o : BurstObs) (s : State) : State :=
  let off := o.delim.getD 0
  let s := modTerm c.term (fun x => { x with lostRun := 0 }) (clearLos ch s)
  let s := bump 7 ch Cn.burstsAccepted 1 (bump 10 c.term Cn.termAccepted 1 s)
  let s := writeBack ch c o (countCodewords ch c.term o.cws s)
  let s := forAll o.reports (takeReport ch c o) s
  let s := forAll o.frames (takeFrame ch c o) (burstContext ch c o s)
  useOffset ch c off (takePloamUp ch c o s)

/-! ### The command -/

/-- A fitting reset that waited for the end of the burst (R87). -/
def pendingReset (t : Nat) (s : State) : State :=
  match (termOf s t).fitReset with
  | none => s
  | some e => modTerm t (fun x => { x with fitReset := none }) (resetFit t e s)

/-- One granted burst, by its cue item and what the lane heard. With the synthesiser out of lock it is counted as lost and
changes nothing else (R101). -/
def burst (ch : Nat) (c : CueItem) (o : BurstObs) (s : State) : State :=
  if (chOf s ch).lol then bump 10 c.term Cn.lostBursts 1 (logBurst ch c false s)
  else
    let k := classOf c o
    let s := logBurst ch c (k == .accepted) (frameCount ch c k s)
    pendingReset c.term (if k = .accepted then burstAccepted ch c o s else burstMissed ch c o k s)

/-- The end of a burst in a quiet window: CUE pulses again within 16 ns (R84); the instant is a free value. -/
def cueAgain (ch : Nat) (s : State) : State :=
  let rise : Int := ((s.now + Config.random s.draw % 16001 : Nat) : Int)
  emit (.cue ch rise (rise + chValN s ch Fld.chCueWidth)) (drawn s)

/-- A discovery window holds no granted terminal: answers that overlap so that no header is readable are one collision (R109). -/
def discoveryBurst (ch : Nat) (o : BurstObs) (s : State) : State :=
  doIf (o.energy && o.delim.isNone) (bump 7 ch Cn.discoveryCollisions 1) (doIf o.energy (cueAgain ch) s)

/-- A discovery window that is over leaves the front of the cue queue. -/
def leftWindow (s : State) (c : CueItem) : Bool := !directed c && decide (c.arrival + c.dur ≤ s.now)

def execBurstReceive (dt : Nat) (ch : Nat) (obs : BurstObs) (s : State) : Host.Outcome State Fault Refusal :=
  let s := tick dt s
  .next <|
    if !lanesReceive s ch then s
    else
      match (chOf s ch).cue.dropWhile (leftWindow s) with
      | [] => s
      | c :: rest =>
        if directed c then
          let s := modCh ch (fun x => { x with cue := rest }) s
          countGap ch (burst ch c obs (doIf (c.quiet.isSome && obs.energy) (cueAgain ch) s))
        else discoveryBurst ch obs (modCh ch (fun x => { x with cue := c :: rest }) s)

/-! ### Loss of signal and lock (R100, R101) -/

def execUpstreamLos (dt : Nat) (ch : Nat) (s : State) : Host.Outcome State Fault Refusal :=
  let s := tick dt s
  let x := chOf s ch
  .next <|
    if lanesReceive s ch && !x.los && decide (8 ≤ x.losFrames) then
      raise Ev.upstreamLos (dieOfChannel ch) [.u16 ch] (modCh ch (fun y => { y with los := true }) s)
    else s

def execBurstLaneLol (dt : Nat) (ch : Nat) (s : State) : Host.Outcome State Fault Refusal :=
  let s := tick dt s
  .next <|
    if (chOf s ch).lol then s
    else raise Ev.burstLaneLol (dieOfChannel ch) [.u16 ch] (modCh ch (fun x => { x with lol := true }) s)

def execBurstLaneLolClear (dt : Nat) (ch : Nat) (s : State) : Host.Outcome State Fault Refusal :=
  let s := tick dt s
  .next <|
    if (chOf s ch).lol && !s.pwr.refFault.getD (quadrantOf ch) false then
      raiseClear Ev.burstLaneLol (dieOfChannel ch) [.u16 ch] (modCh ch (fun x => { x with lol := false }) s)
    else s

/-! ### The 1 s error interval (R58) -/

/-- A threshold's alarm with its run of intervals below: above raises on the first, three below clear. -/
def berAlarm (bad total m n : Nat) (on_ : Bool) (run : Nat) : Bool × Nat :=
  if m * total < bad * 10 ^ n then (true, 0)
  else if bad * 10 ^ n < m * total then (if on_ && run == 2 then (false, 0) else (on_, if on_ then run + 1 else 0))
  else (on_, 0)

/-- Raise or clear an event when its condition changed. -/
def raiseChange (num : Nat) (die : DieId) (args : List Arg) (old new : Bool) (s : State) : State :=
  if old = new then s else if new then raise num die args s else raiseClear num die args s

def berInterval (t ch : Nat) (s : State) : State :=
  let x := termOf s t
  let s := modTerm t (fun y => { y with cwTotal := 0, cwBad := 0, berAt := s.now }) s
  if x.cwTotal = 0 then s
  else
    let d := berAlarm x.cwBad x.cwTotal (chValN s ch Fld.chDegM) (chValN s ch Fld.chDegN) x.degraded x.degRun
    let f := berAlarm x.cwBad x.cwTotal (chValN s ch Fld.chFailM) (chValN s ch Fld.chFailN) x.failed x.failRun
    let s := modTerm t (fun y => { y with degraded := d.1, degRun := d.2, failed := f.1, failRun := f.2 }) s
    raiseChange Ev.upstreamFail (dieOfTerm s t) [.u16 t] x.failed f.1
      (raiseChange Ev.upstreamDegrade (dieOfTerm s t) [.u16 t] x.degraded d.1 s)

def execUpstreamBerInterval (dt : Nat) (term : Nat) (s : State) : Host.Outcome State Fault Refusal :=
  let s := tick dt s
  .next <|
    match (termOf s term).ch with
    | none => s
    | some ch => if (termOf s term).berAt + Time.sec 1 ≤ s.now then berInterval term ch s else s

end Sys2Proof.Machine
end

