-- ==== Sys2Proof/Machine/Phases.lean ====
section
/-! DEFINITION. What the two phases of a stitch make of the configuration: revocation at B1 and opening at B2 (R40, R69, R154, R176, R182, R460). -/

namespace Sys2Proof.Machine
open Sys2Proof

/-- The fields that bind an object: changing one withdraws the object at B1 and grants it again at B2. -/
def bindingField (kind fld : Nat) : Bool :=
  match kind with
  | 7 => fld == Fld.alTerm || fld == Fld.alAllocId
  | 9 => fld == Fld.qSub
  | 10 => [Fld.flTerm, Fld.flTenant, Fld.flPort, Fld.flQueue].contains fld
  | 15 => true
  | 16 => true
  | 17 => true
  | 14 => fld == Fld.vlGroup
  | 21 => fld == Fld.spRate || fld == Fld.spEnable
  | 24 => true
  | 25 => true
  | 33 => fld == Fld.saEnabled
  | _ => false

/-- A record changes a field of an object from what it is. -/
def changes (c : Cfg) (r : StagedRec) (f : Nat) : Bool :=
  (recFields r).any fun p => p.1 == f && p.2 != c.val r.body.kind r.num f

/-- A record withdraws its object at B1. -/
def withdraws (c : Cfg) (r : StagedRec) : Bool :=
  r.body.op == 3 || (r.body.op == 2 && (recFields r).any fun p => bindingField r.body.kind p.1 && changes c r p.1)

/-- The fields of a modify that take effect at B1: those of the pipelines' bank, and lowered values. -/
def earlyFields (c : Cfg) (r : StagedRec) : List (Nat × Int) :=
  (recFields r).filter fun p =>
    match Schema.field? r.body.kind r.num p.1 with
    | none => false
    | some f => f.eff == .atB1 || (f.eff == .lowered && decide (p.2 < c.val r.body.kind r.num p.1))

/-- One record in the revoke phase. A row's create belongs to the pipelines' bank and is there from B1. -/
def revokeRec (c : Cfg) (r : StagedRec) : Cfg :=
  let o := objOr c r.body.kind r.num
  let k := objKey r.body.kind r.num
  if r.body.op = 1 then if r.body.kind = Kind.row then applyRec c r else c
  else if r.body.op = 3 && r.body.kind == Kind.row then c.del k
  else if withdraws c r then c.set k { o with closing := true }
  else if (earlyFields c r).isEmpty then c
  else c.set k { o with fields := setFields o.fields (earlyFields c r) }

def revokeCfg (c : Cfg) (p : PendStitch) : Cfg := p.recs.foldl revokeRec c

/-- One record in the open phase. -/
def openRec (c : Cfg) (r : StagedRec) : Cfg :=
  let c' := applyRec c r
  match c'.obj? r.body.kind r.num with
  | none => c'
  | some o => c'.set (objKey r.body.kind r.num) { o with closing := false }

def openCfg (c : Cfg) (p : PendStitch) : Cfg := p.recs.foldl openRec c

/-- The configuration that is in force for a frame at an instant (R136, R154). -/
def cfgAt (s : State) (t : Time) : Cfg :=
  s.stitch.pend.foldl (fun c p => if p.b2 ≤ t then openCfg c p else if p.b1 ≤ t then revokeCfg c p else c) s.stitch.cfg

end Sys2Proof.Machine
end

