-- ==== Sys2Proof/Machine/Bobbins.lean ====
section
/-! DEFINITION. Upstream allocation by the bobbins: reports, the map build, stealing, missed deadlines, the grant budget, hints and bobbin faults (R130 to R157, R461). -/

namespace Sys2Proof.Machine
open Sys2Proof

/-! ### Allocations of a build (R130, R131, R137) -/

/-- An active allocation as a build sees it. -/
structure ActiveAlloc where
  key : Nat
  alloc : Option Nat
  allocId : Nat
  term : Nat
  onu : Nat
  fixed : Nat
  assured : Nat
  max : Nat
  elig : Nat
  prio : Nat
  weight : Nat
  poll : Nat
  express : Bool
  hint : Nat
  deriving DecidableEq, Repr

/-- The hinted bytes of an allocation for a frame, under the ceiling (R152). -/
def hintFor (s : State) (c : Cfg) (a : Nat) (sf : SF) : Nat :=
  match s.pon.hints.find? fun p => p.2.alloc == a && p.2.sf == sf with
  | none => 0
  | some p => min p.2.bytes (hintCeiling c a)

/-- The default allocation of a terminal (R131). -/
def defaultAlloc (c : Cfg) (ch t onu : Nat) : ActiveAlloc :=
  let v := c.valN Kind.channel ch
  { key := defaultKey t, alloc := none, allocId := onu, term := t, onu := onu, fixed := 0, assured := v Fld.chDefAssured / 64,
    max := v Fld.chDefMax / 64, elig := v Fld.chDefElig, prio := 0, weight := 1, poll := v Fld.chDefPoll, express := false, hint := 0 }

/-- An allocation of a terminal, at the terminal's rate. -/
def activeAlloc (s : State) (c : Cfg) (sf : SF) (t onu a : Nat) (r : Rate) : ActiveAlloc :=
  let v := c.valN Kind.alloc a
  let m := c.val Kind.alloc a Fld.alMax
  { key := a, alloc := some a, allocId := v Fld.alAllocId, term := t, onu := onu, fixed := v Fld.alFixed, assured := v Fld.alAssured,
    max := if m < 0 then lineBytes r else m.toNat, elig := v Fld.alElig, prio := v Fld.alPrio, weight := v Fld.alWeight,
    poll := v Fld.alPoll, express := c.on Kind.alloc a Fld.alExpress, hint := hintFor s c a sf }

/-- The active allocations of a channel for a frame, in Alloc-ID order. -/
def activeAllocs (s : State) (c : Cfg) (ch : Nat) (sf : SF) : List ActiveAlloc :=
  sortBy (·.allocId) ((opTerms s ch).flatMap fun t =>
    let onu := (termOf s t).onu.getD 0
    defaultAlloc c ch t onu
      :: ((allocsOfTerm c t).filter fun a => c.live Kind.alloc a && ((allocOf s a).bound || !(cfgOf s).live Kind.alloc a)).map fun a =>
          activeAlloc s c sf t onu a (termOf s t).rate)

/-! ### Report ingest (R135) -/

/-- The allocation state that an Alloc-ID names on a channel. -/
def keyOfAllocId (l : List ActiveAlloc) (id : Nat) : Option Nat := (l.find? fun a => a.allocId == id).map (·.key)

/-- A superframe count lies after another. -/
def sfAfter (a b : SF) : Bool := a != b && decide ((a - b).toNat < 2 ^ 50)

/-- A report sets the backlog to the reported bytes less what later maps granted. -/
def ingestReport (l : List ActiveAlloc) (r : Report) (s : State) : State :=
  match keyOfAllocId l r.allocId with
  | none => s
  | some k =>
    modAlloc k (fun a =>
      let later := ((a.granted.filter fun g => sfAfter g.1 r.sf).map (·.2)).sum
      { a with backlog := max 0 ((r.bytes : Int) - later), noReport := 0 }) s

/-- Every build, the credits rise under their caps (R138). -/
def accrue (a : ActiveAlloc) (s : State) : State :=
  modAlloc a.key (fun x => { x with
    creditA := min (x.creditA + a.assured) (a.assured * a.poll : Nat)
    creditM := min (x.creditM + a.max) (8 * a.max : Nat)
    noReport := x.noReport + 1 }) s

/-! ### Profiles at the cut-off (R62, R92) -/

/-- The short profile is granted to a terminal: its record is FRESH and it is not on its first grant after sleep. -/
def grantsShort (s : State) (t : Nat) : Bool := (fitOf s t).st == .fresh && !(termOf s t).wokeLong

/-- The terminal is granted the incoming generation of its rate. -/
def usesIncoming (s : State) (ch t : Nat) : Bool :=
  let g := genOf s ch (termOf s t).rate
  g.incoming.isSome && g.moved.contains t

/-- The profile index of a discovery or ranging grant: the incoming long profile from 1 ms after B2 (R62). -/
def longIndex (s : State) (ch : Nat) (r : Rate) : Nat :=
  let g := genOf s ch r
  let inc := match g.incoming with
    | some b2 => decide (b2 + Time.ms 1 ≤ s.now)
    | none => false
  profIndex g inc false

/-! ### Durations (R60, R138, R141) -/

/-- The time of `ns` nanoseconds rounded up to whole bits of a rate. -/
def roundBits (r : Rate) (ns : Nat) : Time :=
  let bits := ceilDiv (ns * rateKbps r) 1000000
  ceilDiv (bits * 10 ^ 9) (rateKbps r)

/-- The overhead of a burst's profile: guard, preamble and delimiter (Table 2.3). -/
def burstOverhead (c : Cfg) (ch : Nat) (r : Rate) (short : Bool) : Time :=
  1000 * profNs c ch r short 0 + roundBits r (profNs c ch r short 1) + roundBits r (profNs c ch r short 2)

/-- The payload bytes and the parity bytes of an upstream codeword: LDPC (17280,14592) on a wide channel, RS(248,216) on a narrow
one while its profile's FEC is on (R46, R64). -/
def codeword (wide fec : Bool) : Nat × Nat := if wide then (1824, 336) else if fec then (216, 32) else (1, 0)

/-- Bytes with their parity; the last codeword is shortened. -/
def codedBytes (w : Nat × Nat) (n : Nat) : Nat := n + w.2 * ceilDiv n w.1

/-- The time of bytes on a channel at a rate, with FEC. -/
def bytesTime (c : Cfg) (ch : Nat) (r : Rate) (n : Nat) : Time :=
  ceilDiv (codedBytes (codeword (isWide ch) (profFec c ch r)) n * 8 * 10 ^ 9) (rateKbps r)

/-- The payload bytes that fit in a time at a rate, with FEC. -/
def bytesIn (c : Cfg) (ch : Nat) (r : Rate) (t : Time) : Nat :=
  let w := codeword (isWide ch) (profFec c ch r)
  let n := t * rateKbps r / (8 * 10 ^ 9)
  n / (w.1 + w.2) * w.1 + (n % (w.1 + w.2) - w.2)

/-- The bytes of a burst's header and trailer. -/
def frameBytes : Nat := (Config.burstHeaderBits + Config.burstTrailerBits) / 8

/-- The bytes of a burst on the line: header, payloads, reports, the PLOAM message and trailer. -/
def burstBytes (gs : List Grant) : Nat :=
  frameBytes + (gs.map fun g => g.bytes + Config.dbruBytes * bit g.dbru).sum + (if gs.any (·.ploamu) then Config.ploamBytes else 0)

/-! ### Quiet windows (R461) -/

def winOrder (w : WinReq) : Nat :=
  match w.kind with
  | .ranging => 0
  | .searching => 1
  | .feeder => 2
  | .discovery => 3 + rateNum w.rate

/-- Place the windows due in an upstream frame: each at the earliest time in it after every window reserved there or still
running; one that finds no time in it stays due. -/
def placeWindows (u : Time) (busy : Time) : List WinReq → List QuietWin × List WinReq
  | [] => ([], [])
  | w :: t =>
    let start := max u busy
    if start < u + Time.frame then
      let r := placeWindows u (start + w.len) t
      (⟨w.kind, w.term, w.rate, start, w.len⟩ :: r.1, r.2)
    else
      let r := placeWindows u busy t
      (r.1, w :: r.2)

/-- Place the windows due in a build in the order of their kinds; while a feeder search runs on the tree, the ranging of new
terminals stays due (R120). -/
def placeDue (s : State) (ch : Nat) (u : Time) : List QuietWin × List WinReq :=
  let running := ((chOf s ch).windows.map fun w => w.start + w.len).foldl max 0
  let due := sortBy winOrder (chOf s ch).windowsDue
  let waits : WinReq → Bool := fun w => searchOn s (treeOf ch) && w.kind == .ranging
  let r := placeWindows u running (due.filter fun w => !waits w)
  (r.1, due.filter waits ++ r.2)

/-- The parts of the upstream frame from `u` that windows cover, as offsets. -/
def windowSpans (u : Time) (l : List QuietWin) : List (Time × Time) :=
  (l.filter fun w => decide (w.start < u + Time.frame ∧ u < w.start + w.len)).map fun w =>
    (w.start - u, min (w.start + w.len - u) Time.frame)

def spanSum (l : List (Time × Time)) : Time := (l.map fun p => p.2 - p.1).sum

/-- The Alloc-ID of a discovery grant (R107). -/
def discoveryAlloc (ch : Nat) (r : Rate) : Nat := if isWide ch then 1020 + rateNum r else 1023

/-- The structures of a quiet window. -/
def windowGrants (s : State) (ch : Nat) (u : Time) (w : QuietWin) : List Grant :=
  let mk := fun (id : Nat) (t : Option Nat) (r : Rate) =>
    ({ allocId := id, term := t, ploamu := true, start := w.start - u, profile := longIndex s ch r } : Grant)
  match w.kind with
  | .discovery => [mk (discoveryAlloc ch w.rate) none w.rate]
  | .feeder => (((chOf s ch).search.map (·.terms)).getD []).map fun t => mk ((termOf s t).onu.getD 0) (some t) (termOf s t).rate
  | _ => match w.term with
    | some t => [mk ((termOf s t).onu.getD 0) (some t) (termOf s t).rate]
    | none => []

/-! ### Grant computation (R138) -/

/-- An allocation's figures in a build. -/
structure Demand where
  a : ActiveAlloc
  hinted : Nat
  gA : Nat
  /-- Fixed, hinted and assured bytes. -/
  g : Nat
  d : Nat
  poll : Bool
  surplus : Nat := 0
  deriving DecidableEq, Repr

/-- The fixed, hinted and assured grant of an allocation, and its surplus demand. In a frame that a quiet window covers whole
nothing is granted (R133). -/
def demandOf (s : State) (covered : Bool) (a : ActiveAlloc) : Demand :=
  let x := allocOf s a.key
  if covered then { a := a, hinted := 0, gA := 0, g := 0, d := 0, poll := false }
  else
    let g0 := a.fixed + a.hint
    let gA := (min (max (x.backlog - g0) 0) (max x.creditA 0)).toNat
    let g := g0 + gA
    let d := if a.elig = 0 then 0 else (max 0 (min (max (x.backlog - g) 0) (x.creditM - g))).toNat
    { a := a, hinted := a.hint, gA := gA, g := g, d := d, poll := decide (a.poll ≤ x.noReport) && g == 0 }

/-- One level's distribution: each of its allocations receives weight × d × f, rounded down, with f capped so that no demand
is exceeded. -/
def shareLevel (tier prio : Nat) (p : Nat × List Demand) : Nat × List Demand :=
  let inLevel := fun (x : Demand) => x.a.elig == tier && x.a.prio == prio && x.d != 0
  let lv := p.2.filter inLevel
  let sum := (lv.map fun x => x.a.weight * x.d).sum
  let w := (lv.map (·.a.weight)).foldl max 1
  let give := fun (x : Demand) => if p.1 * w ≤ sum then x.a.weight * x.d * p.1 / max sum 1 else x.a.weight * x.d / w
  (p.1 - (lv.map give).sum, p.2.map fun x => if inLevel x then { x with surplus := give x } else x)

/-- Both tiers, priority 7 down to 0: 1 is non-assured, 2 best effort. -/
def shareSurplus (pool : Nat) (l : List Demand) : List Demand :=
  ((([1, 2] : List Nat).flatMap fun t => (List.range 8).map fun i => (t, 7 - i)).foldl
    (fun p lv => shareLevel lv.1 lv.2 p) (pool, l)).2

/-! ### Admission (R139) -/

/-- A terminal's burst before placement. -/
structure TermBurst where
  term : Nat
  onu : Nat
  rate : Rate
  profile : Nat
  short : Bool
  express : Bool
  tier : Nat
  grants : List Grant
  dur : Time
  deriving DecidableEq, Repr

/-- The tier of an allocation's grant: 2 fixed or hinted, 3 assured, 4 poll, 5 non-assured, 6 best effort, 9 none. -/
def tierOf (x : Demand) : Nat :=
  if x.a.fixed + x.hinted != 0 && x.g != 0 then 2
  else if x.gA != 0 then 3
  else if x.poll then 4
  else if x.surplus != 0 then (if x.a.elig = 1 then 5 else 6)
  else 9

def grantOf (profile : Nat) (x : Demand) : Grant :=
  { allocId := x.a.allocId, alloc := x.a.alloc, term := some x.a.term, bytes := x.g + x.surplus, fixed := min x.a.fixed x.g,
    assured := x.gA, dbru := x.poll, profile := profile }

/-- Set PLOAMu on the first structure of a burst. -/
def flagPloam : List Grant → List Grant
  | [] => []
  | g :: t => { g with ploamu := true } :: t

/-- The configuration with the profile values that a terminal is granted under: those of the old generation until it has moved (R62). -/
def profileCfg (s : State) (c : Cfg) (ch t : Nat) : Cfg :=
  if usesIncoming s ch t then c
  else
    let k := objKey Kind.channel ch
    let o := objOr c Kind.channel ch
    let old := (genOf s ch (termOf s t).rate).old
    if old.isEmpty then c else c.set k { o with fields := setFields o.fields old }

/-- The burst of a terminal with the profile sampled at C. A report is asked for wherever one is overdue (log entry 16). -/
def termBurst (s : State) (c : Cfg) (ch : Nat) (short : Nat → Bool) (t : Nat) (l : List Demand) : TermBurst :=
  let x := termOf s t
  let c := profileCfg s c ch t
  let sh := short t
  let prof := profIndex (genOf s ch x.rate) (usesIncoming s ch t) sh
  let tier := (l.map tierOf).foldl min 9
  let overdue := fun (y : Demand) => decide (y.a.poll ≤ (allocOf s y.a.key).noReport)
  let gs := (l.filter fun y => tierOf y != 9).map fun y => { grantOf prof y with dbru := overdue y }
  let gs := if tier = 9 && x.needPloamu then
      [({ allocId := x.onu.getD 0, term := some t, ploamu := true, profile := prof } : Grant)]
    else if x.needPloamu then flagPloam gs else gs
  { term := t, onu := x.onu.getD 0, rate := x.rate, profile := prof, short := sh
    express := l.any fun y => y.a.express && y.g != 0
    tier := if tier = 9 && x.needPloamu then 1 else tier, grants := gs
    dur := burstOverhead c ch x.rate sh + bytesTime c ch x.rate (burstBytes gs) }

/-- The order of a tier: ONU-IDs from the rotation pointer. -/
def rotated (ptr : Nat) (b : TermBurst) : Nat := if ptr ≤ b.onu then b.onu - ptr else b.onu + 1024 - ptr

/-- The terminals in the order of admission. -/
def admissionOrder (ptr : Nat) (l : List TermBurst) : List TermBurst :=
  (List.range 6).flatMap fun i => sortBy (rotated ptr) (l.filter fun b => b.tier == i + 1)

/-- Admission stops at the first terminal that a limit stops: bursts, structures, free time. -/
def admitTerms : Nat → Nat → Time → List TermBurst → List TermBurst
  | _, _, _, [] => []
  | n, k, free, b :: t =>
    if n = 0 || k < b.grants.length || free < b.dur then [] else b :: admitTerms (n - 1) (k - b.grants.length) (free - b.dur) t

def burstCap (ch : Nat) : Nat := if isWide ch then 40 else 32
def structCap (ch : Nat) : Nat := if isWide ch then 512 else 256

/-! ### Placement (R141) -/

/-- A time is free for a duration in the upstream frame. -/
def fits (busy : List (Time × Time)) (start dur : Time) : Bool :=
  decide (start + dur ≤ Time.frame) && busy.all fun p => decide (start + dur ≤ p.1 ∨ p.2 ≤ start)

/-- The earliest free time from `lo` that a duration fits whole. -/
def earliest (busy : List (Time × Time)) (lo dur : Time) : Option Time :=
  ((lo :: (busy.map (·.2)).filter fun e => decide (lo ≤ e)).filter fun t => fits busy t dur).foldl
    (fun a t => match a with | none => some t | some x => some (min x t)) none

def toMapBurst (start : Time) (b : TermBurst) : MapBurst :=
  ⟨b.term, b.onu, start, b.dur, b.rate, b.profile, b.short, b.grants.map fun g => { g with start := start }⟩

/-- Place the admitted bursts: express first, each group by ONU-ID, each at the earliest free time; one that fits nowhere is
withdrawn. -/
def placeBursts : List (Time × Time) → List TermBurst → List MapBurst
  | _, [] => []
  | busy, b :: t =>
    match earliest busy 0 b.dur with
    | none => placeBursts busy t
    | some x => toMapBurst x b :: placeBursts ((x, x + b.dur) :: busy) t

def placementOrder (l : List TermBurst) : List TermBurst :=
  sortBy (·.onu) (l.filter (·.express)) ++ sortBy (·.onu) (l.filter fun b => !b.express)

/-! ### Two bursts in each half (R140) -/

/-- The rule applies: the twins are paired and the standby is ARMED. -/
def divergenceWatch (s : State) : Bool :=
  s.twin.paired && (if s.twin.held then !s.twin.yieldIn else s.twin.role == .armed)

def halfLo (second : Bool) : Time := if second then Time.frame / 2 else 0

/-- Bursts of a map that begin in a half. -/
def inHalf (second : Bool) (l : List MapBurst) : List MapBurst :=
  l.filter fun b => decide (halfLo second ≤ b.start) && decide (b.start < halfLo second + Time.frame / 2)

/-- A report-only poll of a terminal. -/
def pollBurst (s : State) (c : Cfg) (ch : Nat) (short : Nat → Bool) (t : Nat) : TermBurst :=
  let x := termOf s t
  let c := profileCfg s c ch t
  let sh := short t
  let prof := profIndex (genOf s ch x.rate) (usesIncoming s ch t) sh
  let gs : List Grant := [{ allocId := x.onu.getD 0, term := some t, dbru := true, profile := prof }]
  { term := t, onu := x.onu.getD 0, rate := x.rate, profile := prof, short := sh, express := false, tier := 4, grants := gs
    dur := burstOverhead c ch x.rate sh + bytesTime c ch x.rate (burstBytes gs) }

def spansOf (l : List MapBurst) : List (Time × Time) := l.map fun b => (b.start, b.start + b.dur)

/-- The structures of a list of bursts. -/
def structsOf (l : List MapBurst) : Nat := (l.map fun b => b.grants.length).sum

/-- Bring a half up to 2 bursts: by the next poll of `polls`, or at the burst limit by moving the last burst of the other half. The
structure limit counts as the burst limit does. The polls not yet placed come back beside the bursts. -/
def fillHalf (win : List (Time × Time)) (cap scap : Nat) (second : Bool) (p : List TermBurst × List MapBurst) :
    List TermBurst × List MapBurst :=
  let l := p.2
  match p.1 with
  | [] => p
  | b :: rest =>
    if 2 ≤ (inHalf second l).length then p
    else if l.length < cap && structsOf l + b.grants.length ≤ scap then
      match earliest (win ++ spansOf l) (halfLo second) b.dur with
      | some x => if x < halfLo second + Time.frame / 2 then (rest, l ++ [toMapBurst x b]) else p
      | none => p
    else
      match (l.filter fun y => !(inHalf second l).contains y).getLast? with
      | none => p
      | some y =>
        let others := l.erase y
        match earliest (win ++ spansOf others) (halfLo second) y.dur with
        | some x =>
          if x < halfLo second + Time.frame / 2 then
            (p.1, others ++ [{ y with start := x, grants := y.grants.map fun g => { g with start := x } }])
          else p
        | none => p

/-- Both halves, with polls of the OPERATIONAL terminals in rotation order. -/
def fillHalves (win : List (Time × Time)) (cap scap : Nat) (polls : List TermBurst) (l : List MapBurst) : List MapBurst :=
  let turn := polls ++ polls ++ polls ++ polls
  let half := fun second p => fillHalf win cap scap second (fillHalf win cap scap second p)
  (half true (half false (turn, l))).2

/-! ### The grant budget (R149 to R151) -/

/-- The rate in Mb/s of the uplink sub-ports that are up. -/
def uplinkMbps (s : State) : Nat :=
  (((cfgOf s).ofKind Kind.subport).map fun o =>
    if (subportOf s o.num).up then 1000 * (cfgOf s).valN Kind.subport o.num Fld.spRate else 0).sum

/-- What the uplinks that are up leave as the budget, with 0.1 Tb/s beside, in bytes per frame. -/
def uplinkBytes (s : State) : Nat := (uplinkMbps s + 100000) * 125 / 8

/-- The effective budget in bytes per frame. -/
def effectiveBudget (s : State) (c : Cfg) : Nat := min (budgetBytes c) (uplinkBytes s)

/-- The guaranteed bytes of a channel's OPERATIONAL terminals: fixed, assured and hint ceilings. -/
def guaranteedOf (s : State) (c : Cfg) (ch : Nat) : Nat :=
  ((activeAllocs s c ch s.pon.sf).map fun a =>
    a.fixed + a.assured + (match a.alloc with | some x => hintCeiling c x | none => 0)).sum

/-- The channels with at least one OPERATIONAL terminal. -/
def busyChannels (s : State) : List Nat :=
  (s.pon.channels.map (·.1)).filter fun c => !(opTerms s c).isEmpty

/-- What is left of the budget for surplus; before the first period has ended the budget is the effective one of the moment. -/
def surplusRoom (s : State) (c : Cfg) : Nat :=
  (if s.pon.budgetKnown then s.pon.budget else effectiveBudget s c) - ((busyChannels s).map fun ch => guaranteedOf s c ch).sum

/-- The shares of the channels: their guaranteed bytes, and surplus from their demands: all of it where it fits, with what is over
divided equally among the channels with an OPERATIONAL terminal; otherwise in proportion. -/
def setShares (s : State) : State :=
  let room := surplusRoom s (cfgOf s)
  let busy := busyChannels s
  let total := (s.pon.channels.map fun p => p.2.demand).sum
  let equal := if total ≤ room then (room - total) / max 1 busy.length else 0
  forAll (s.pon.channels.map (·.1)) (fun ch => modCh ch fun x =>
    { x with share := guaranteedOf s (cfgOf s) ch + (if total ≤ room then x.demand else room * x.demand / max 1 total)
                        + (if busy.contains ch then equal else 0) }) s

/-- A channel's share. Before the first period has ended no demand is known: every channel has its guaranteed bytes and an equal
part (R150). -/
def shareOf (s : State) (ch : Nat) : Nat :=
  if s.pon.budgetKnown then (chOf s ch).share
  else guaranteedOf s (cfgOf s) ch + surplusRoom s (cfgOf s) / max 1 (busyChannels s).length

/-- The mean surplus demand of a channel over its builds of the period. -/
def closeDemand (ch : Nat) (s : State) : State :=
  modCh ch (fun x => { x with demand := x.surplusSum / max 1 x.builds, surplusSum := 0, builds := 0 }) s

/-- The end of a budget period. -/
def periodEnd (s : State) : State :=
  let s := { s with pon := { s.pon with budget := effectiveBudget s (cfgOf s), budgetKnown := true, uplinkBudget := uplinkBytes s } }
  let s := forAll (s.pon.channels.map (·.1)) closeDemand s
  let guaranteed := ((busyChannels s).map fun ch => guaranteedOf s (cfgOf s) ch).sum
  let s := setShares (doIf (decide (s.pon.budget < guaranteed)) (raise Ev.budgetOvercommitted .east []) s)
  if s.twin.allocsWanted then
    forAll (s.pon.channels.map (·.1)) (fun ch => modCh ch fun x => { x with allocDue := true })
      { s with twin := { s.twin with allocsWanted := false } }
  else s

def execBudgetPeriodEnd (dt : Nat) (s : State) : Host.Outcome State Fault Refusal :=
  let s := tick dt s
  .next (if s.pon.gridOn && s.pon.sf.toNat % 8 == 7 then periodEnd s else s)

/-- A stitched change of the configured budget applies within the period, from the build for the frame at B1 or B2; a change of the
uplinks does not (R149). -/
def refreshBudget (c : Cfg) (s : State) : State :=
  let b := min (budgetBytes c) s.pon.uplinkBudget
  if s.pon.budgetKnown && b != s.pon.budget then setShares { s with pon := { s.pon with budget := b } } else s

/-! ### The build (R136, R138 to R142) -/

/-- The start of the next frame, and its superframe count. -/
def nextFrame (s : State) : Time := s.pon.gridAt + Time.frame
def nextSf (s : State) : SF := s.pon.sf + 1

/-- The bobbin that builds a channel's maps: its home, or the one that took over its contexts (R157). -/
def serverOf (s : State) (ch : Nat) : Option Nat :=
  if !(bobOf s ch).quarantined then some ch
  else
    (List.find? (fun p : Nat × Bobbin => !p.2.quarantined && p.2.serves.contains ch && p.2.wakeDue.isNone) s.pon.bobbins).map (·.1)

/-- What a build finds: its map, the windows that stay due, the demands, the bursts wanted and those admitted, in the order of
admission. -/
structure BuildResult where
  map : BwMap
  due : List WinReq
  demands : List Demand
  wanted : List TermBurst
  admitted : List TermBurst
  deriving DecidableEq, Repr

/-- The fixed, hinted and assured bytes that a build grants. -/
def givenBytes (l : List Demand) : Nat := (l.map (·.g)).sum

/-- The time of a burst beside its grants: its profile's overhead, header and trailer, with the reports and the PLOAM message that
it may carry (log entry 116). -/
def aroundGrants (s : State) (c : Cfg) (ch : Nat) (short : Nat → Bool) (t : Nat) (l : List Demand) : Time :=
  let r := (termOf s t).rate
  let reports := (l.filter fun y => decide (y.a.poll ≤ (allocOf s y.a.key).noReport)).length
  burstOverhead c ch r (short t)
    + bytesTime c ch r (frameBytes + Config.dbruBytes * reports + (if (termOf s t).needPloamu then Config.ploamBytes else 0))

/-- The map of a channel from what a build samples: quiet windows reserved, grants computed, terminals admitted and placed. -/
def computeMap (s : State) (c : Cfg) (ch : Nat) (t : Time) (sf : SF) (short : Nat → Bool) (share : Nat) : BuildResult :=
  let u := upStart s ch t
  let placed := placeDue s ch u
  let spans := windowSpans u ((chOf s ch).windows ++ placed.1)
  let left := Time.frame - spanSum spans
  let covered := spans.any fun p => p.1 == 0 && p.2 == Time.frame
  let ds := (activeAllocs s c ch sf).map (demandOf s covered)
  let terms := opTerms s ch
  let ofTerm := fun x => ds.filter fun (y : Demand) => y.a.term == x
  let rate := fun x => (termOf s x).rate
  let guaranteedTime := (ds.map fun y => bytesTime (profileCfg s c ch y.a.term) ch (rate y.a.term) y.g).sum
  let overheads := (terms.map fun x =>
    if (ofTerm x).any fun y => y.g != 0 || y.d != 0 then aroundGrants s (profileCfg s c ch x) ch short x (ofTerm x) else 0).sum
  let wanting := terms.filter fun x => (ofTerm x).any fun y => y.d != 0
  let low := (channelRates ch).find? fun r => wanting.any fun x => rate x == r
  let timeLeft := left - guaranteedTime - overheads
  let bytesLeft := match low with
    | none => 0
    | some r => bytesIn c ch r timeLeft
  let ds := shareSurplus (min bytesLeft (share - givenBytes ds)) ds
  let bursts := (terms.map fun x => termBurst s c ch short x (ds.filter fun y => y.a.term == x)).filter fun b => !b.grants.isEmpty
  let order := admissionOrder (chOf s ch).rotation bursts
  let wg := placed.1.flatMap (windowGrants s ch u)
  let admitted := admitTerms (burstCap ch - wg.length) (structCap ch - wg.length) left order
  let placedBursts := placeBursts spans (placementOrder admitted)
  let halves := if divergenceWatch s && !terms.isEmpty then
      fillHalves spans (burstCap ch - wg.length) (structCap ch - wg.length)
        (sortBy (rotated (chOf s ch).rotation) (terms.map (pollBurst s c ch short))) placedBursts
    else placedBursts
  ⟨{ sf := sf, bursts := halves, windows := placed.1, winGrants := wg }, placed.2, ds, order, admitted⟩

/-- The last terminal admitted among tiers 3 to 6 moves the rotation pointer past its ONU-ID. -/
def nextRotation (old : Nat) (l : List TermBurst) : Nat :=
  match (l.filter fun b => decide (3 ≤ b.tier ∧ b.tier ≤ 6)).getLast? with
  | none => old
  | some b => (b.onu + 1) % 1024

/-- The terminals that a limit stopped or that fitted nowhere are counted (R139, R141). -/
def deferred (r : BuildResult) : Nat :=
  (r.wanted.length - r.admitted.length) + (r.admitted.filter fun b => !r.map.bursts.any fun x => x.term == b.term).length

/-- The batches that a build exposes (R143). -/
def exposed (reports active ch : Nat) : Nat :=
  if 16000 < 256 + 12 * reports + 18 * active + 4 * structCap ch then ceilDiv active 64 else 0

/-- Ingest the inbox and sample the profiles at C. -/
def cutOff (ch : Nat) (c : Cfg) (s : State) : State :=
  let l := activeAllocs s c ch (nextSf s)
  let s := forAll (chOf s ch).inbox (ingestReport l) s
  let s := modCh ch (fun x => { x with inbox := [] }) s
  forAll (opTerms s ch) ageFit s

/-- Start the build of the next frame's map with a profile set and a share. -/
def startBuild (ch : Nat) (reports : Nat) (short : Nat → Bool) (share : Nat) (s : State) : State :=
  match serverOf s ch with
  | none => modCh ch (fun x => { x with nextMap := some { sf := nextSf s } }) s
  | some b =>
    let t := nextFrame s
    let c := cfgAt s t
    let l := activeAllocs s c ch (nextSf s)
    let s := forAll l accrue s
    let r := computeMap s c ch t (nextSf s) short share
    let n := exposed reports l.length ch
    let sur := (r.demands.map (·.d)).sum
    let build : Build := { ch := ch, carry := nextSf s, map := r.map, t := t, reports := reports, active := l.length, batches := n,
                           surplus := sur, withheld := sur - (share - givenBytes r.demands), deferred := deferred r
                           rotation := nextRotation (chOf s ch).rotation r.admitted }
    let s := modBob b (fun x => { x with dozing := false, exposed := n }) s
    modCh ch (fun x => { x with build := some build, windowsDue := r.due, windows := x.windows ++ r.map.windows }) s

/-- A channel's maps are built: it is ACTIVE, or QUIET and awake, or SHADOW (Table 2.5). -/
def buildsMaps (s : State) (ch : Nat) : Bool :=
  match (chOf s ch).st with
  | .active => true
  | .shadow => true
  | .quiet => (chOf s ch).awake
  | _ => false

/-- A build for the next frame has not been started. -/
def buildFree (s : State) (ch : Nat) : Bool :=
  let x := chOf s ch
  x.build.isNone && (x.nextMap.map (·.sf)) != some (nextSf s)

/-- The terminals granted the short profile, as BUILD_INPUT carries them. -/
def shortSet (s : State) (ch : Nat) : List Nat := (opTerms s ch).filter (grantsShort s)

/-- The channel is SHADOW on a unit without the token; from T_k on the unit builds as the holder (R148, R327). -/
def shadows (s : State) (ch : Nat) : Bool := (chOf s ch).st == .shadow && !s.twin.held

/-- What the standby needs to build a channel in step: rotation pointer, backlogs, credits and pending hints (Table 12.3). -/
def allocStateMsg (s : State) (ch : Nat) : SeamMsg :=
  let l := activeAllocs s (cfgOf s) ch (nextSf s)
  .allocState ch (chOf s ch).rotation
    (l.map fun a => (a.key, (allocOf s a.key).backlog, (allocOf s a.key).creditA, (allocOf s a.key).creditM))
    ((s.pon.hints.filter fun p => l.any fun a => a.key == p.2.alloc).map fun p => (p.2.alloc, p.2.sf, p.2.bytes))

/-- The holder sends a channel's ALLOC_STATE at the cut-off that it is due at (R330, R332). -/
def sendAllocState (ch : Nat) (s : State) : State :=
  if (chOf s ch).allocDue then
    toStandby (quadrantOf ch) (allocStateMsg s ch) (modCh ch (fun x => { x with allocDue := false }) s)
  else s

/-- A SHADOW channel ingests at C and waits for the holder's inputs; the others start their build, and the holder sends its
inputs (R148). -/
def buildStart (ch : Nat) (s : State) : State :=
  let n := (chOf s ch).inbox.length
  let s := modCh ch (fun x => { x with ingested := n }) (cutOff ch (cfgAt s (nextFrame s)) s)
  if shadows s ch then s
  else
    let s := sendAllocState ch (refreshBudget (cfgAt s (nextFrame s)) s)
    toStandby (quadrantOf ch) (.buildInput ch (nextSf s) (shortSet s ch) (shareOf s ch))
      (startBuild ch n (grantsShort s) (shareOf s ch) s)

def execMapBuildStart (dt : Nat) (ch : Nat) (s : State) : Host.Outcome State Fault Refusal :=
  let s := tick dt s
  .next <|
    if s.pon.gridOn && buildsMaps s ch && buildFree s ch && decide (nextFrame s ≤ s.now + Time.us 40) then buildStart ch s else s

/-! ### Work for a bobbin (R144, R155) -/

/-- The channels whose maps a bobbin builds. -/
def servedBy (s : State) (b : Nat) : List Nat :=
  (if (bobOf s b).quarantined then [] else [b]) ++ (bobOf s b).serves

/-- The channel needs no build, or its map of the next frame is complete. -/
def built (s : State) (ch : Nat) : Bool :=
  !buildsMaps s ch || ((chOf s ch).build.isNone && ((chOf s ch).nextMap.map (·.sf)) == some (nextSf s))

/-- The builds of a bobbin are all complete. -/
def allBuilt (s : State) (b : Nat) : Bool := (servedBy s b).all (built s)

/-- The batch of a bobbin that a thief prefers: its own cluster first, then the most unclaimed batches, then the lower number. -/
def preferred (s : State) (thief : Nat) : Option Nat :=
  let l := (s.pon.channels.filter fun p => p.1 != thief && dieOfBobbin p.1 = dieOfBobbin thief
    && ((p.2.build.map (·.batches)).getD 0) != 0).map fun p => (p.1, ((p.2.build.map (·.batches)).getD 0))
  let near := l.filter fun p => clusterOf p.1 == clusterOf thief
  ((if near.isEmpty then l else near).foldl (fun (a : Option (Nat × Nat)) p =>
    match a with
    | none => some p
    | some b => if b.2 < p.2 then some p else some b) none).map (·.1)

/-- A bobbin's build and its stealing are done: it dozes (R155). -/
def restsNow (s : State) (b : Nat) : Bool := allBuilt s b && (preferred s b).isNone

/-- The bobbins that are awake with nothing left to do enter Doze. -/
def settleIdle (s : State) : State :=
  let idle := ((s.pon.bobbins.filter fun p => !p.2.dozing).map (·.1)).filter (restsNow s)
  forAll idle (fun b => modBob b fun x => { x with dozing := true }) s

/-! ### Completion (R89, R138) -/

/-- The cue items of a map, by the start of its upstream frame. -/
def cueItems (c : Cfg) (ch : Nat) (u : Time) (s : State) (m : BwMap) : List CueItem :=
  let bursts := m.bursts.zipIdx.map fun (b, i) =>
    ({ term := b.term, onu := b.onu, rate := b.rate, profile := b.profile, short := b.short,
       arrival := u + b.start + 1000 * profNs (profileCfg s c ch b.term) ch b.rate b.short 0, dur := b.dur, sf := m.sf, place := i } : CueItem)
  let wins := m.windows.flatMap fun w =>
    let mk := fun (t : Nat) =>
      ({ term := t, onu := (termOf s t).onu.getD bcastOnu, rate := w.rate, profile := longIndex s ch w.rate, short := false,
         arrival := w.start, dur := w.len, quiet := some w.kind, sf := m.sf } : CueItem)
    match w.kind with
    | .feeder =>
      match ((chOf s ch).search.map (·.terms)).getD [] with
      | [] => []
      | t :: rest => mk t :: rest.map fun t => { mk t with cued := true }
    | .discovery => [{ mk 0 with onu := bcastOnu }]
    | _ => w.term.toList.map mk
  sortBy (·.arrival) (bursts ++ wins)

/-- What a map grants is taken from backlogs and credits and kept for the next reports (R135, R138). -/
def debitGrant (sf : SF) (g : Grant) (s : State) : State :=
  match g.term with
  | none => s
  | some t =>
    modAlloc (g.alloc.getD (defaultKey t)) (fun a => { a with
      backlog := max 0 (a.backlog - g.bytes), creditA := a.creditA - g.assured, creditM := a.creditM - g.bytes
      granted := ((sf, g.bytes) :: a.granted).take 64 }) s

def debitMap (m : BwMap) (s : State) : State := forAll (m.bursts.flatMap (·.grants)) (debitGrant m.sf) s

/-- The carry-over map of a completed map: its fixed-rate structures at the same starts and profiles (R146). -/
def carryOverOf (m : BwMap) : BwMap :=
  { sf := m.sf, carryOver := true
    bursts := (m.bursts.map fun b => { b with grants := (b.grants.filter fun g => g.fixed != 0).map fun g =>
      { g with bytes := g.fixed, assured := 0, dbru := false, ploamu := false } }).filter fun b => !b.grants.isEmpty }

/-- A map and its cue items are handed over. -/
def handOver (ch : Nat) (m : BwMap) (t : Time) (s : State) : State :=
  let items := cueItems (cfgAt s t) ch (upStart s ch t) s m
  modCh ch (fun x => { x with nextMap := some m, cue := (x.cue ++ items).take Config.cueQueueMax }) (debitMap m s)

/-- The length of a build that its home computes with `stolen` batches taken by thieves, in CLK_BOB cycles (Table 5.3). -/
def buildLength (b : Build) (structures : Nat) : Nat :=
  256 + 12 * b.reports + 18 * (b.active - 64 * b.stolen.length) + 4 * structures

/-- A build is complete: the map and its cue items are handed over, and bobbins with nothing left to do doze. -/
def finishBuild (ch : Nat) (b : Build) (s : State) : State :=
  let s := handOver ch b.map b.t s
  let len := buildLength b (structsOf b.map.bursts)
  let s := match serverOf s ch with
    | none => s
    | some x => modBob x (fun y => { y with lastLen := len }) s
  let s := bump 7 ch Cn.deferrals b.deferred (bump 7 ch Cn.withheld b.withheld s)
  let terms := b.map.bursts.map (·.term)
  let s := forAll terms (fun t => modTerm t fun x => { x with wokeLong := false }) s
  settleIdle (modCh ch (fun x => { x with build := none, carryMap := some (carryOverOf b.map), surplusSum := x.surplusSum + b.surplus,
                                          builds := x.builds + 1, rotation := b.rotation }) s)

/-- The deadline of a channel's build: t − 20 µs, or t − 10 µs in SHADOW. -/
def deadlineLead (s : State) (ch : Nat) : Time := if shadows s ch then Time.us 10 else Time.us 20

/-- A build is complete while its deadline has not passed; a later one is abandoned at MAP_DEADLINE (R146). -/
def execMapBuildDone (dt : Nat) (ch : Nat) (s : State) : Host.Outcome State Fault Refusal :=
  let s := tick dt s
  .next <|
    match (chOf s ch).build with
    | none => s
    | some b => if s.now + deadlineLead s ch ≤ b.t then countGap ch (finishBuild ch b s) else s

/-! ### A missed deadline (R146) -/

/-- The filtered carry-over map of a channel for a frame. -/
def filteredCarry (s : State) (ch : Nat) (t : Time) (sf : SF) : BwMap :=
  let c := cfgAt s t
  match (chOf s ch).carryMap with
  | none => { sf := sf, carryOver := true }
  | some m =>
    let keep := fun (b : MapBurst) (g : Grant) =>
      match g.alloc with
      | none => false
      | some a =>
        c.live Kind.alloc a && c.val Kind.alloc a Fld.alAllocId == (g.allocId : Int) && c.valN Kind.alloc a Fld.alTerm == b.term
          && (termOf s b.term).st == .operational && (termOf s b.term).ch == some ch
    let cut := fun (g : Grant) =>
      let f := match g.alloc with | some a => c.valN Kind.alloc a Fld.alFixed | none => 0
      { g with bytes := min g.bytes f, fixed := min g.fixed f }
    { m with sf := sf, bursts := (m.bursts.map fun b => { b with grants := (b.grants.filter (keep b)).map cut }).filter fun b =>
        !b.grants.isEmpty }

/-- The windows of an abandoned map are due again; a discovery window among them is counted as postponed. -/
def returnWindows (ch : Nat) (m : BwMap) (s : State) : State :=
  let back := m.windows.map fun w => ({ kind := w.kind, term := w.term, rate := w.rate, len := w.len } : WinReq)
  let s := modCh ch (fun x => { x with windowsDue := back ++ x.windowsDue, windows := x.windows.filter fun w => !m.windows.contains w }) s
  bump 7 ch Cn.postponedDiscovery (back.filter fun w => w.kind == .discovery).length s

/-- Abandon the build of the next frame, if any: the frame carries the filtered carry-over map. -/
def abandonBuild (ch : Nat) (s : State) : State :=
  let s := match (chOf s ch).build with
    | none => s
    | some b => returnWindows ch b.map (modCh ch (fun x => { x with build := none }) s)
  settleIdle (handOver ch (filteredCarry s ch (nextFrame s) (nextSf s)) (nextFrame s) s)

def execMapDeadline (dt : Nat) (ch : Nat) (s : State) : Host.Outcome State Fault Refusal :=
  let s := tick dt s
  .next <|
    if s.pon.gridOn && buildsMaps s ch && (chOf s ch).nextMap.isNone && decide (nextFrame s ≤ s.now + deadlineLead s ch) then
      bump 7 ch Cn.mapLate 1
        (raiseLimited Ev.mapLate (dieOfChannel ch) ch (Time.sec 1) [.u16 ch] (abandonBuild ch s))
    else s

/-! ### The standby's late inputs (R148, R321) -/

/-- A channel becomes protected or unprotected; the standby reports it (R321). -/
def setProtected (ch : Nat) (on_ : Bool) (s : State) : State :=
  if (chOf s ch).isProtected = on_ then s
  else
    let s := modCh ch (fun x => { x with isProtected := on_, digestRun := if on_ then x.digestRun else 0 }) s
    if s.twin.held then s
    else if on_ then raiseClear Ev.twinChannel (dieOfChannel ch) [.u16 ch] s
    else raise Ev.twinChannel (dieOfChannel ch) [.u16 ch] s

def execBuildInputLate (dt : Nat) (ch : Nat) (s : State) : Host.Outcome State Fault Refusal :=
  let s := tick dt s
  .next <|
    if s.pon.gridOn && shadows s ch && buildFree s ch && decide (nextFrame s ≤ s.now + Time.us 30) then
      let s := raise Ev.buildInputLate (dieOfChannel ch) [.u16 ch] (setProtected ch false s)
      startBuild ch (chOf s ch).ingested (grantsShort s) (chOf s ch).share s
    else s

/-! ### Stealing (R143, R144) -/

/-- The bobbin is awake with its own builds complete, on a channel that runs. -/
def stealsNow (s : State) (b : Nat) : Bool :=
  !(bobOf s b).quarantined && !(bobOf s b).dozing && buildsMaps s b && allBuilt s b

/-- A batch claimed by a thief. -/
def steal (thief home : Nat) (s : State) : State :=
  let s := modCh home (fun x => { x with build := x.build.map fun b => { b with batches := b.batches - 1, stolen := b.stolen ++ [thief] } }) s
  let s := modBob thief (fun x => { x with stole := x.stole + 1 }) s
  settleIdle (bump 6 thief Cn.steals 1 (bump 6 home Cn.stolenBatches 1 s))

def execBatchSteal (dt : Nat) (thief home : Nat) (s : State) : Host.Outcome State Fault Refusal :=
  let s := tick dt s
  .next (if stealsNow s thief && preferred s thief == some home then steal thief home s else s)

/-- A bobbin leaves Doze at C − 1 µs, when a channel it serves builds maps (R155). -/
def execBobbinWake (dt : Nat) (bob : Nat) (s : State) : Host.Outcome State Fault Refusal :=
  let s := tick dt s
  let works := (bob :: (bobOf s bob).serves).any (buildsMaps s)
  .next <|
    if s.pon.gridOn && !(bobOf s bob).quarantined && works && decide (nextFrame s ≤ s.now + Time.us 41) then
      modBob bob (fun x => { x with dozing := false, exposed := 0, stole := 0 }) s
    else s

/-! ### Bobbin faults (R156, R157) -/

/-- A bobbin is Dormant: its channel is DARK, or QUIET and asleep, and it serves no other (R157, R409). -/
def bobDormant (s : State) (b : Nat) : Bool :=
  (isDark s b || ((chOf s b).st == .quiet && !(chOf s b).awake)) && (bobOf s b).serves.isEmpty

/-- The bobbins of a cluster that are not quarantined. -/
def clusterBobs (s : State) (k : Nat) : List Nat := ((List.range 32).map (· + 32 * k)).filter fun b => !(bobOf s b).quarantined

/-- The serviceable bobbin of a cluster with the shortest last build, the lower number on a tie. -/
def serviceable (s : State) (k : Nat) : Option Nat :=
  ((clusterBobs s k).filter fun b => !bobDormant s b).foldl (fun (a : Option Nat) b =>
    match a with
    | none => some b
    | some x => if (bobOf s b).lastLen < (bobOf s x).lastLen then some b else some x) none

/-- Move the terminal contexts of a bobbin's channels to another bobbin; a pin of one is broken (R22, R25). -/
def moveContexts (from_ dst : Nat) (chans : List Nat) (s : State) : State :=
  let s := modBob from_ (fun x => { x with serves := [] }) s
  let s := modBob dst (fun x => { x with serves := x.serves ++ chans.filter fun c => c != dst && !x.serves.contains c }) s
  let hit := s.stitch.places.filter fun p => p.kind == Kind.terminal && p.loc == locBobbin from_
  forAll hit (fun p s => startMove p (locBobbin dst) true (breakPin p.kind p.num p.loc (locBobbin dst) s)) s

/-- A build in progress is abandoned under R146, without MAP_LATE; a batch that the bobbin stole returns. -/
def dropBuilds (b : Nat) (s : State) : State :=
  let s := forAll ((servedBy s b).filter fun c => (chOf s c).build.isSome) abandonBuild s
  forAll (s.pon.channels.map (·.1)) (fun c => modCh c fun x => { x with build := x.build.map fun y =>
    { y with batches := y.batches + (y.stolen.filter (· == b)).length, stolen := y.stolen.filter (· != b) } }) s

/-- Quarantine a bobbin: its contexts move to a serviceable one, or to a Dormant one that is woken, or nowhere. -/
def bobbinFault (b : Nat) (yieldIn : Bool) (s : State) : State :=
  let chans := servedBy s b
  let k := clusterOf b
  let s := raise Ev.bobbinFault (dieOfBobbin b) [.u16 b] (modBob b (fun x => { x with quarantined := true }) (dropBuilds b s))
  match serviceable s k, (clusterBobs s k).head? with
  | some dst, _ => policyFinding Fld.devYieldBobbin Cause.bobbinQuarantine yieldIn (moveContexts b dst chans s)
  | none, some dst =>
    policyFinding Fld.devYieldBobbin Cause.bobbinQuarantine yieldIn
      (modBob dst (fun x => { x with wakeDue := some (s.now + Time.ms 1) }) (moveContexts b dst chans s))
  | none, none =>
    policyFinding Fld.devYieldPool Cause.bobbinPool yieldIn
      (raise Ev.bobbinPoolExhausted (dieOfBobbin b) [.u8 k] s)

def execBobbinFault (dt : Nat) (bob : Nat) (yieldIn : Bool) (s : State) : Host.Outcome State Fault Refusal :=
  let s := tick dt s
  .next (if (bobOf s bob).quarantined then s else bobbinFault bob yieldIn s)

/-! ### Cooperative hints (R152, R153) -/

/-- The start of the frame that carries a superframe count, if it has not begun. -/
def frameAt (s : State) (f : SF) : Time := s.pon.gridAt + Time.frame * (f - s.pon.sf).toNat

/-- The channel that an allocation is granted on: its terminal's, or the first its record allows. -/
def allocChannel (s : State) (a : Nat) : Nat :=
  let t := (cfgOf s).valN Kind.alloc a Fld.alTerm
  (termOf s t).ch.getD ((allowedChannels (cfgOf s) t).headD 0)

/-- Store a hint, in place of an earlier one for the same allocation and frame. -/
def storeHint (die : Nat) (r : HintRec) (s : State) : State :=
  { s with pon := { s.pon with hints := (s.pon.hints.filter fun p => !(p.2.alloc == r.alloc && p.2.sf == r.sf)) ++ [(die, r)] } }

/-- Hints whose frame has been built are forgotten. -/
def pruneHints (s : State) : State :=
  { s with pon := { s.pon with hints := s.pon.hints.filter fun p => sfAfter p.2.sf s.pon.sf } }

/-- A stitch revokes the allocation at a B1 at or before the frame. -/
def hintRevoked (s : State) (a : Nat) (f : SF) : Bool := !(cfgAt s (frameAt s f)).live Kind.alloc a

def lateHint (ch : Nat) (s : State) : State :=
  raiseLimited Ev.hintLate (dieOfChannel ch) ch (Time.sec 1) [.u16 ch] (bump 6 ch Cn.hintsLate 1 s)

def hintBody (alloc : Nat) (sf : SF) (bytes : Nat) (s : State) : Served :=
  let s := pruneHints s
  let ch := allocChannel s alloc
  let d := dieNum (dieOfChannel ch)
  let ahead := (sf - s.pon.sf).toNat
  let again := s.pon.hints.any fun p => p.2.alloc == alloc && p.2.sf == sf
  if !(cfgOf s).has Kind.alloc alloc then fail St.handle s
  else if !(cfgOf s).on Kind.alloc alloc Fld.alExpress then fail St.state s
  else if decide (64 < ahead) && decide (ahead < 2 ^ 50) then fail St.parameter s
  else if decide (2 ^ 50 ≤ ahead) || decide (frameAt s sf < s.now + Time.us 45) then .done { status := St.late } (lateHint ch s)
  else if hintRevoked s alloc sf then okay s
  else if !again && Config.hintMax ≤ (s.pon.hints.filter fun p => p.1 == d).length then
    .done { status := St.busy } (bump 6 ch Cn.hintsDropped 1 s)
  else
    let n := min bytes (hintCeiling (cfgOf s) alloc)
    okay (toStandby (quadrantOf ch) (.hostEvent (.hint alloc sf n)) (storeHint d ⟨alloc, sf, n⟩ s))

def execHint (dt : Nat) (h : Hdr) (alloc : Nat) (sf : SF) (bytes : Nat) (s : State) : Host.Outcome State Fault Refusal :=
  .next <| hostCmd dt Op.hint h (hintBody alloc sf bytes) s

end Sys2Proof.Machine
end

