-- ==== Sys2Proof/Machine/Events.lean ====
section
/-! DEFINITION. Delivery of events to the hosts, interrupt vectors and pins, and the Rake's counter snapshots (R379 to R396). -/

namespace Sys2Proof.Machine
open Sys2Proof

/-! ### Event rings (R383 to R386) -/

/-- A ring's group mask takes the group of an event. -/
def maskTakes (mask num : Nat) : Bool := bitsOf mask (evGroup num) (evGroup num) == 1

/-- The ring has room for one more record. -/
def evRoom (e : EventRing) : Bool := decide (e.prod - e.cons < e.entries)

/-- Write a record under the ring's next SEQUENCE. -/
def evWrite (r : EvRec) (e : EventRing) : EventRing :=
  { e with recs := e.recs ++ [(e.nextSeq, r)], nextSeq := e.nextSeq + 1, prod := e.prod + 1 }

/-- The record that reports a ring's losses (R385). -/
def overflowRec (e : EventRing) (s : State) : EvRec :=
  evRec Ev.eventRingOverflow false .east 0 [.u32 e.lostPending, .u32 e.firstLost] s

/-- When room has returned, EVENT_RING_OVERFLOW is written first (R385). -/
def evReport (s : State) (e : EventRing) : EventRing :=
  if e.lostPending != 0 && evRoom e then { evWrite (overflowRec e s) e with lostPending := 0 } else e

/-- Deliver a record to a ring: a record of a group the ring does not take is not meant for it; one that finds the ring full
takes its SEQUENCE and is lost (R383, R385). -/
def evDeliver (s : State) (r : EvRec) (e : EventRing) : EventRing :=
  if !maskTakes e.mask r.num then e
  else
    let e := evReport s e
    if evRoom e then evWrite r e
    else { e with nextSeq := e.nextSeq + 1, lost := e.lost + 1, lostPending := e.lostPending + 1,
                  firstLost := if e.lostPending = 0 then e.nextSeq else e.firstLost }

/-- An event of a group has been raised: the group is latched in the status of each pin whose mask has it (R389). -/
def latchGroup (num : Nat) (s : State) : State :=
  let b := groupBit num
  { s with ev := { s.ev with status0 := s.ev.status0 ||| (s.ev.mask0 &&& b), status1 := s.ev.status1 ||| (s.ev.mask1 &&& b) } }

/-- EVENT_RING_OVERFLOW has been written: the losses that were pending have been reported (R385). -/
def reportedLoss (e e' : EventRing) : Bool := e.lostPending != 0 && (e'.lostPending == 0 || e'.firstLost != e.firstLost)

/-- Change the event ring of the session on a command ring; its vector fires when its index advances (R388), and a report of losses
latches its group. -/
def modEvRing (p : PortId) (r : Nat) (f : EventRing → EventRing) (s : State) : State :=
  match (ringOf s p r).session with
  | none => s
  | some se =>
    match se.eventRing with
    | none => s
    | some e =>
      doIf (reportedLoss e (f e)) (latchGroup Ev.eventRingOverflow) (doIf ((f e).prod != e.prod) (fireVector p (16 + r))
        (modRing p r (fun x => { x with session := some { se with eventRing := some (f e) } }) s))

def keptKey (p : PortId) (d : DieId) : Nat := 2 * portNum p + dieNum d

/-- Keep a record for a port without an event ring: at most 1,024 of each die, the oldest discarded first (R386). -/
def keepEv (p : PortId) (r : EvRec) (s : State) : State :=
  let l := s.ev.kept.getD (keptKey p r.die) [] ++ [r]
  { s with ev := { s.ev with
      kept := s.ev.kept.set (keptKey p r.die) (lastN Config.keptMax l)
      keptLost := s.ev.keptLost.set (portNum p) (s.ev.keptLost.getD (portNum p) 0 + (l.length - Config.keptMax)) } }

/-- Deliver a record to one port: to every session's ring, or among the kept records (R383, R386). -/
def deliverTo (p : PortId) (r : EvRec) (s : State) : State :=
  let rings := ringsWith s p .event
  if rings.isEmpty then keepEv p r s
  else forAll rings (fun n s => modEvRing p n (evDeliver s r) s) s

/-- A record comes before another: by TIME, East before West when TIME is equal (R384). -/
def evBefore (a b : EvRec) : Bool := a.time < b.time || (a.time == b.time && dieNum a.die ≤ dieNum b.die)

def insertEv (r : EvRec) : List EvRec → List EvRec
  | [] => [r]
  | x :: t => if evBefore x r then x :: insertEv r t else r :: x :: t

/-- The records in the order of delivery. -/
def sortEv (l : List EvRec) : List EvRec := l.foldl (fun a r => insertEv r a) []

/-- The first event ring of a port takes the records kept for the port, which are then discarded (R386). -/
def drainKept (p : PortId) (e : EventRing) (s : State) : EventRing :=
  let l := sortEv (s.ev.kept.getD (keptKey p .east) [] ++ s.ev.kept.getD (keptKey p .west) [])
  let lost := s.ev.keptLost.getD (portNum p) 0
  let e := { e with nextSeq := 1 + lost, lost := lost, lostPending := lost, firstLost := 1 }
  l.foldl (fun e r => evDeliver s r e) e

def clearKept (p : PortId) (s : State) : State :=
  { s with ev := { s.ev with kept := (s.ev.kept.del (keptKey p .east)).del (keptKey p .west),
                             keptLost := s.ev.keptLost.del (portNum p) } }

/-- The host returns entries of an event ring, and a loss is reported when room has returned (R383, R385). -/
def evConsume (n : Nat) (s : State) (e : EventRing) : EventRing :=
  let n := min n (e.prod - e.cons)
  evReport s { e with cons := e.cons + n, recs := e.recs.drop n }

/-- Take `n` records from the front of East's list and then of West's, each only where its ring is delivered to the port. -/
def dropTwo {α : Type} (n : Nat) (takeE takeW : Bool) (e w : List α) : List α × List α :=
  let ne := if takeE then min n e.length else 0
  (e.drop ne, if takeW then w.drop (n - ne) else w)

/-- The die's setting `fld` names a port. -/
def destIs (s : State) (fld : Nat) (p : PortId) (d : DieId) : Bool :=
  (cfgOf s).valN Kind.die (dieNum d) fld == portNum p

/-- The host returns entries of a delivery ring: event records, notices, OMCI records or launch records (R363). -/
def consume (c : PortId × Nat × RingKind × Nat) (s : State) : State :=
  let p := c.1
  let n := c.2.2.2
  match c.2.2.1 with
  | .event => modEvRing p c.2.1 (evConsume n s) s
  | .notice =>
    let r := dropTwo n (destIs s Fld.dieNoticeDest p .east) (destIs s Fld.dieNoticeDest p .west) s.tab.noticeE s.tab.noticeW
    { s with tab := { s.tab with noticeE := r.1, noticeW := r.2 } }
  | .omci =>
    let r := dropTwo n (destIs s Fld.dieOmciDest p .east) (destIs s Fld.dieOmciDest p .west) s.svc.omciE s.svc.omciW
    { s with svc := { s.svc with omciE := r.1, omciW := r.2 } }
  | .launch =>
    let r := dropTwo n (destIs s Fld.dieLaunchDest p .east) (destIs s Fld.dieLaunchDest p .west)
      s.q.launchRingE s.q.launchRingW
    { s with q := { s.q with launchRingE := r.1, launchRingW := r.2 } }
  | .punt => s

/-- The held records are delivered to both ports in their order, after what the hosts have returned. -/
def execEventDelivery (dt : Nat) (consumed : List (PortId × Nat × RingKind × Nat)) (s : State) :
    Host.Outcome State Fault Refusal :=
  let s := forAll consumed consume (tick dt s)
  let l := sortEv s.ev.held
  let s := { s with ev := { s.ev with held := [] } }
  .next (forAll l (fun r s => deliverTo .b r (deliverTo .a r s)) s)

/-- The host returns entries of a full ring: EVENT_RING_OVERFLOW is written first (R385). -/
def execEventRingOverflow (dt : Nat) (port : PortId) (ring consumed : Nat) (s : State) : Host.Outcome State Fault Refusal :=
  let s := tick dt s
  .next (modEvRing port ring (evConsume consumed s) s)

/-- A vector's holdoff ends: it fires again if the index advanced during it (R388). -/
def execVectorHoldoffEnd (dt : Nat) (port : PortId) (vector : Nat) (s : State) : Host.Outcome State Fault Refusal :=
  let s := tick dt s
  let x := s.ev.vectors.getD (vecKey port vector) {}
  .next (if x.holdEnd ≤ s.now && x.advanced then fireVector port vector s else s)

/-- A write to EVT_PIN_STATUS clears the bits written as 1 (R389, R455). -/
def clearPins (pin : Nat) (v : Word) (s : State) : State :=
  let b := BitVec.ofNat 16 v.toNat
  if pin = 0 then { s with ev := { s.ev with status0 := s.ev.status0 &&& ~~~b } }
  else { s with ev := { s.ev with status1 := s.ev.status1 &&& ~~~b } }

def execEvtPinStatus (dt : Nat) (writer : PortId) (pin : Nat) (v : Word) (s : State) : Host.Outcome State Fault Refusal :=
  let s := tick dt s
  .next (if linkOf s writer then clearPins pin v s else s)

/-- The JTAG port leaves its reset state (R380). -/
def execDebugAccess (dt : Nat) (s : State) : Host.Outcome State Fault Refusal :=
  .next (raise Ev.debugAccess .east [] (tick dt s))

/-! ### The Rake (R393 to R395) -/

/-- A gather is due at a boundary whose superframe count is a multiple of 8; one that is still running makes the next one
late (R393). -/
def execRakeGather (dt : Nat) (s : State) : Host.Outcome State Fault Refusal :=
  let s := tick dt s
  .next <|
    if !s.pon.gridOn || s.pon.sf.toNat % 8 != 0 then s
    else
      match s.ctr.latched with
      | some l => if l.sf = s.pon.sf then s else raise Ev.rakeLate .east [] s
      | none =>
        if s.ctr.snapshot.number != 0 && s.ctr.snapshot.sf == s.pon.sf then s
        else { s with ctr := { s.ctr with
          latched := some ⟨s.ctr.snapshot.number + 1, baseNs s 0, s.pon.sf, s.ctr.counters⟩ } }

/-- The gather in progress is complete: its values are the snapshot of every group (R393, R394). -/
def execRakeGatherDone (dt : Nat) (s : State) : Host.Outcome State Fault Refusal :=
  let s := tick dt s
  .next <|
    match s.ctr.latched with
    | none => s
    | some l => { s with ctr := { s.ctr with latched := none, snapshot := l } }

/-- The slot of a counter in BAR4: value in [47:0], WRAP in [63]; a closed group reads as 0 (R394, R396). -/
def bar4Slot (s : State) (group obj j : Nat) : Nat :=
  if s.ctr.openGroups.contains group then
    let c := s.ctr.snapshot.counters.getD (ctrKey group obj j) {}
    c.value.toNat + 2 ^ 63 * bit c.wrap
  else 0

/-! ### Counter commands (R390 to R392, R396) -/

/-- The number of counter groups (Table 15.3). -/
def ctrGroups : Nat := 12

/-- A counter lies in a range of objects of a group. -/
def inCtrRange (g : CtrRange) (key : Nat) : Bool :=
  key / 2 ^ 40 == g.group && decide (g.first ≤ key % 2 ^ 40 / 2 ^ 8) && decide (key % 2 ^ 40 / 2 ^ 8 < g.first + g.count)

/-- How many statistics one object has: a flow and a counter set 2, a policer 6 (R390). -/
def statsPer (kind : Nat) : Nat := if kind = 1 then 6 else 2

def ctrRangeOk (g : CtrRange) : Bool :=
  if g.flowStats then decide (g.group < 3) && decide (g.count * statsPer g.group ≤ 65536) else decide (g.group < ctrGroups)

/-- The counters of a range as a reply lists them: object, index, value, WRAP. -/
def ctrList (g : CtrRange) (t : Tab Counter) : List Nat :=
  (t.filter fun p => inCtrRange g p.1).flatMap fun p =>
    [p.1 % 2 ^ 40 / 2 ^ 8, p.1 % 2 ^ 8, p.2.value.toNat, bit p.2.wrap]
def statList (g : CtrRange) (t : Tab FlowStat) : List Nat :=
  (t.filter fun p => inCtrRange g p.1).flatMap fun p =>
    [p.1 % 2 ^ 40 / 2 ^ 8, p.1 % 2 ^ 8, p.2.value.toNat, bit p.2.wrap]

/-- Clear WRAP in the counters of a range. -/
def clearWraps (g : CtrRange) (s : State) : State :=
  if g.flowStats then
    { s with ctr := { s.ctr with stats := s.ctr.stats.mapVals fun k c => if inCtrRange g k then { c with wrap := false } else c } }
  else
    { s with ctr := { s.ctr with
        counters := s.ctr.counters.mapVals fun k c => if inCtrRange g k then { c with wrap := false } else c } }

def execCounterRead (dt : Nat) (h : Hdr) (range : CtrRange) (clearWrap : Bool) (s : State) :
    Host.Outcome State Fault Refusal :=
  .next <| hostCmd dt Op.counterRead h (fun s =>
    if !ctrRangeOk range then fail St.parameter s
    else
      let l := if range.flowStats then statList range s.ctr.stats
        else s.ctr.snapshot.number.toNat :: ctrList range s.ctr.snapshot.counters
      .done { result := l } (doIf clearWrap (clearWraps range) s)) s

/-- Zero the counters of a range with their WRAP bits (R391). -/
def clearCounters (g : CtrRange) (s : State) : State :=
  if g.flowStats then { s with ctr := { s.ctr with stats := s.ctr.stats.filter fun p => !inCtrRange g p.1 } }
  else { s with ctr := { s.ctr with counters := s.ctr.counters.filter fun p => !inCtrRange g p.1 } }

/-- The number of the first snapshot that holds only counts made from now on (R391). -/
def firstClean (s : State) : Nat := s.ctr.snapshot.number.toNat + (if s.ctr.latched.isSome then 2 else 1)

def execCounterClear (dt : Nat) (h : Hdr) (range : CtrRange) (s : State) : Host.Outcome State Fault Refusal :=
  .next <| hostCmd dt Op.counterClear h (fun s =>
    if !ctrRangeOk range then fail St.parameter s
    else .done { result := [firstClean s] } (clearCounters range s)) s

def execUserReadGrant (dt : Nat) (h : Hdr) (group : Nat) (grant : Bool) (s : State) : Host.Outcome State Fault Refusal :=
  .next <| hostCmd dt Op.userReadGrant h (fun s =>
    if ctrGroups ≤ group then fail St.parameter s
    else
      let l := s.ctr.openGroups.filter fun g => g != group
      okay { s with ctr := { s.ctr with openGroups := if grant then group :: l else l } }) s

end Sys2Proof.Machine
end

