-- ==== Sys2Proof/Machine/Host.lean ====
section
/-! DEFINITION. The host ports: sessions, delivery rings, Thimbles, command-ring registers, punted frames, the image windows and the register space (R354 to R368, R445 to R457). -/

namespace Sys2Proof.Machine
open Sys2Proof

/-! ### Sessions (R367, R368) -/

/-- The Galub versions of this firmware. -/
def galubLow : Nat := 0x0100
def galubHigh : Nat := 0x0102

/-- A non-zero session identifier. -/
def newSession (s : State) : Word :=
  let v := BitVec.ofNat 32 (Config.sessionId s.draw)
  if v = 0 then 1 else v

def execSessionOpen (dt : Nat) (h : Hdr) (lowest highest agent : Nat) (s : State) : Host.Outcome State Fault Refusal :=
  .next <| hostCmd dt Op.sessionOpen h (fun s =>
    if 64 ≤ agent then fail St.parameter s
    else
      let v := min highest galubHigh
      if v < max lowest galubLow then fail St.version s
      else
        let id := newSession s
        .done { result := [v, id.toNat, galubLow, galubHigh, Config.firmwareVersion.toNat, Config.unitSerial.toNat] }
          (drawn (modRing h.port h.ring (fun r => { r with session := some { id := id, agent := agent, version := v } }) s))) s

/-- Detach a port's punt pool: its items and buffers are discarded (R454). -/
def detachPunt (p : PortId) (s : State) : State :=
  modPunt p (fun x => { x with pool := none, fifo := [], out := [] }) s

/-- The Thimbles that an owner test picks out. -/
def thimblesOf (s : State) (f : PortId × Nat → Bool) : List Nat :=
  (List.range 64).filter fun n => ((thimbleOf s n).owner.map f).getD false
/-- The bank locks that an owner test picks out. -/
def locksOf (s : State) (f : PortId × Nat → Bool) : List (DieId × Nat) :=
  ([DieId.east, .west].flatMap fun d => (List.range 16).map fun b => (d, b)).filter fun x =>
    ((lockOf s x.1 x.2).owner.map f).getD false

/-- Free a Thimble. -/
def freeThimble (n : Nat) (s : State) : State := modThimble n (fun t => { t with owner := none, waits := 0 }) s

/-- Release the Thimbles and locks that an owner test picks out, and how many they are. -/
def releaseOwned (f : PortId × Nat → Bool) (s : State) : Nat × State :=
  let ts := thimblesOf s f
  let ls := locksOf s f
  (ts.length + ls.length, forAll ls (fun x s => releaseLock x.1 x.2 s) (forAll ts freeThimble s))

/-- End the session of a ring: its delivery rings are detached, and what its agent owns on its port is released (R368). -/
def closeSession (p : PortId) (r : Nat) (s : State) : Nat × State :=
  match (ringOf s p r).session with
  | none => (0, s)
  | some se =>
    let s := doIf se.punt (detachPunt p) s
    releaseOwned (fun o => o == (p, se.agent)) (modRing p r (fun x => { x with session := none }) s)

def execSessionClose (dt : Nat) (h : Hdr) (s : State) : Host.Outcome State Fault Refusal :=
  .next <| hostCmd dt Op.sessionClose h (fun s =>
    let r := closeSession h.port h.ring s
    .done { result := [r.1] } r.2) s

/-! ### Delivery rings (R363, R383, R386) -/

/-- A power of two in a range. -/
def pow2In (n lo hi : Nat) : Bool := decide (lo ≤ n ∧ n ≤ hi) && (List.range 17).any fun k => 2 ^ k == n

/-- Change the session of a ring. -/
def modSession (p : PortId) (r : Nat) (f : Session → Session) (s : State) : State :=
  modRing p r (fun x => { x with session := x.session.map f }) s

def deliveryOf (addr entries : Nat) : Option DeliveryRing := if entries = 0 then none else some ⟨addr, entries⟩

/-- Attach an event ring: the first of its port receives the records kept for the port (R386). -/
def attachEvents (h : Hdr) (addr entries mask : Nat) (s : State) : State :=
  let e : EventRing := { addr := addr, entries := entries, mask := mask }
  if (ringsWith s h.port .event).isEmpty then
    let e' := drainKept h.port e s
    let lost := s.ev.keptLost.getD (portNum h.port) 0 != 0
    doIf (lost && e'.prod != 0) (latchGroup Ev.eventRingOverflow) (doIf (e'.prod != 0) (fireVector h.port (16 + h.ring))
      (clearKept h.port (modSession h.port h.ring (fun x => { x with eventRing := some e' }) s)))
  else modSession h.port h.ring (fun x => { x with eventRing := some e }) s

/-- Attach the port's punt pool; a second session's pool on one port is turned away (log entry 13). -/
def attachPunt (h : Hdr) (addr entries : Nat) (s : State) : Served :=
  let mine := ((ringOf s h.port h.ring).session.map (·.punt)).getD false
  if (puntOf s h.port).pool.isSome && !mine then fail St.state s
  else if entries = 0 then okay (modSession h.port h.ring (fun x => { x with punt := false }) (detachPunt h.port s))
  else if 65535 < entries then fail St.parameter s
  else
    okay (modSession h.port h.ring (fun x => { x with punt := true })
      (modPunt h.port (fun x => { x with pool := some (addr, entries), ring := h.ring, fifo := [], out := [] }) s))

def execHostRings (dt : Nat) (h : Hdr) (kind : RingKind) (addr entries mask : Nat) (s : State) :
    Host.Outcome State Fault Refusal :=
  .next <| hostCmd dt Op.hostRings h (fun s =>
    match kind with
    | .event =>
      if entries = 0 then okay (modSession h.port h.ring (fun x => { x with eventRing := none }) s)
      else if !pow2In entries 64 65536 || 65535 < mask then fail St.parameter s
      else okay (attachEvents h addr entries mask s)
    | .notice => okay (modSession h.port h.ring (fun x => { x with notice := deliveryOf addr entries }) s)
    | .omci => okay (modSession h.port h.ring (fun x => { x with omci := deliveryOf addr entries }) s)
    | .launch => okay (modSession h.port h.ring (fun x => { x with launch := deliveryOf addr entries }) s)
    | .punt => attachPunt h addr entries s) s

/-! ### Thimbles (R359, R360) -/

/-- A read of a claim address is a claim by agent `a` of the reading port. -/
def claimThimble (p : PortId) (n a : Nat) (s : State) : State :=
  let t := thimbleOf s n
  match t.owner with
  | none =>
    emit (.read (thimbleWord true false (some (p, a)) 0))
      (modThimble n (fun t => { t with owner := some (p, a), waits := 0, since := s.now, inForce := t.timeout.toNat }) s)
  | some o =>
    if o = (p, a) then emit (.read (thimbleWord true true (some o) t.waits)) s
    else emit (.read (thimbleWord false false (some o) (t.waits + 1))) (modThimble n (fun t => { t with waits := t.waits + 1 }) s)

/-- A write to a claim address releases the Thimble for its owner; any other write is ignored and counted. -/
def releaseThimble (p : PortId) (n a : Nat) (s : State) : State :=
  if (thimbleOf s n).owner == some (p, a) then freeThimble n s else ignoreWrite s

def execThimbleClaim (dt : Nat) (port : PortId) (n agent : Nat) (s : State) : Host.Outcome State Fault Refusal :=
  let s := tick dt s
  .next (if linkOf s port then claimThimble port n agent s else s)

def execThimbleRelease (dt : Nat) (port : PortId) (n agent : Nat) (s : State) : Host.Outcome State Fault Refusal :=
  let s := tick dt s
  .next (if linkOf s port then releaseThimble port n agent s else s)

def thimbleExpired (t : Thimble) (now : Time) : Bool :=
  t.owner.isSome && t.inForce != 0 && decide (t.since + Time.us (100 * t.inForce) < now)

def execThimbleTimeout (dt : Nat) (n : Nat) (s : State) : Host.Outcome State Fault Refusal :=
  let s := tick dt s
  let t := thimbleOf s n
  .next <|
    if thimbleExpired t s.now then
      raise Ev.thimbleTimeout .east ([.u8 n] ++ ownerArgs t.owner) (freeThimble n s)
    else s

/-! ### Command-ring registers (R361, R451 to R453) -/

/-- The ring's three addresses are aligned. -/
def ringAligned (r : Ring) : Bool :=
  r.cmdBaseLo.toNat % 128 == 0 && r.rplBaseLo.toNat % 64 == 0 && r.idxLo.toNat % 4 == 0

/-- RING_ERROR names the port and the ring. -/
def raiseRingError (p : PortId) (r : Nat) (s : State) : State :=
  raise Ev.ringError (if p = .a then .east else .west) [.u8 (portNum p), .u8 r] s

/-- The device disables a ring: ERROR is set and RING_ERROR raised (R453). -/
def ringFails (p : PortId) (r : Nat) (s : State) : State :=
  raiseRingError p r (modRing p r (fun x => { x with enable := false, error := true }) s)

/-- The LOG2_ENTRIES field of a write is taken: the ring is neither enabled nor busy, and the value is 4 to 12 (R452). -/
def takesLog2 (x : Ring) (log2 : Nat) : Bool := !x.enable && x.running.isNone && decide (4 ≤ log2 ∧ log2 ≤ 12)

/-- A write of 1 to ENABLE (R452). -/
def enableRing (p : PortId) (r : Nat) (s : State) : State :=
  if ringAligned (ringOf s p r) then
    modRing p r (fun x => { x with enable := true, cmdProd := 0, cmdCons := 0, rplProd := 0, rplCons := 0, replies := [],
                                   abortsDone := [] }) s
  else raiseRingError p r (modRing p r (fun x => { x with error := true, enable := false }) s)

/-- A write of 0 to ENABLE stops the ring and closes its session (R452). -/
def disableRing (p : PortId) (r : Nat) (s : State) : State :=
  (closeSession p r (modRing p r (fun x => { x with enable := false }) s)).2

/-- A write to RING_CTRL (Table 19.4, R452). -/
def writeRingCtrl (p : PortId) (r : Nat) (enable clearError : Bool) (log2 : Nat) (s : State) : State :=
  let x := ringOf s p r
  let s := doIf clearError (modRing p r fun x => { x with error := false }) s
  let s :=
    if takesLog2 x log2 then modRing p r (fun x => { x with log2 := log2 }) s
    else doIf (log2 != x.log2) ignoreWrite s
  if enable then enableRing p r s else disableRing p r s

/-- A write to RING_CMD_PROD: ignored and counted until the device is command-ready; an index that overruns disables the ring
(R367, R447, R453). -/
def writeCmdProd (p : PortId) (r : Nat) (v : Word) (s : State) : State :=
  let x := ringOf s p r
  let i : RingIdx := BitVec.ofNat 16 v.toNat
  if !s.pwr.ready then ignoreWrite s
  else if x.enable && decide (ringEntries x < (i - x.rplCons).toNat) then ringFails p r s
  else modRing p r (fun x => { x with cmdProd := i }) s

/-- A write to RING_RPL_CONS returns reply entries; an index past the producer disables the ring (R453). -/
def writeRplCons (p : PortId) (r : Nat) (v : Word) (s : State) : State :=
  let x := ringOf s p r
  let i : RingIdx := BitVec.ofNat 16 v.toNat
  if x.enable && (decide (ringEntries x < (x.rplProd - i).toNat) || decide ((x.rplProd - x.rplCons).toNat < (i - x.rplCons).toNat)) then
    ringFails p r s
  else modRing p r (fun x => { x with rplCons := i, replies := x.replies.drop (i - x.rplCons).toNat }) s

/-- A write to a block of one port: the link is up, and the other port's writes are ignored and counted (R355, R448). -/
def ownWrite (writer p : PortId) (f : State → State) (s : State) : State :=
  if !linkOf s writer then s else if writer = p then f s else ignoreWrite s

def execRingEnable (dt : Nat) (writer port : PortId) (ring log2 : Nat) (s : State) : Host.Outcome State Fault Refusal :=
  .next <| ownWrite writer port (writeRingCtrl port ring true false log2) (tick dt s)

def execRingDisable (dt : Nat) (writer port : PortId) (ring : Nat) (s : State) : Host.Outcome State Fault Refusal :=
  let s := tick dt s
  .next <| ownWrite writer port (writeRingCtrl port ring false false (ringOf s port ring).log2) s

def execRingCmdProd (dt : Nat) (writer port : PortId) (ring : Nat) (v : Word) (s : State) :
    Host.Outcome State Fault Refusal :=
  .next <| ownWrite writer port (writeCmdProd port ring v) (tick dt s)

def execRingRplCons (dt : Nat) (writer port : PortId) (ring : Nat) (v : Word) (s : State) :
    Host.Outcome State Fault Refusal :=
  .next <| ownWrite writer port (writeRplCons port ring v) (tick dt s)

/-! ### Punted frames (R187, R454) -/

/-- The buffer index of a descriptor item. -/
def itemBuffer (w : Word) : Nat := bitsOf w.toNat 31 16

/-- A read of PUNT_FIFO by the block's own port removes and returns the head item; the other port's read returns the idle
item (R448). -/
def readPuntFifo (reader p : PortId) (s : State) : State :=
  if reader != p then emit (.read idleItem) s
  else
    match (puntOf s p).fifo with
    | [] => emit (.read idleItem) s
    | w :: t => emit (.read w) (modPunt p (fun x => { x with fifo := t, out := x.out ++ [itemBuffer w] }) s)

def execPuntFifo (dt : Nat) (reader port : PortId) (s : State) : Host.Outcome State Fault Refusal :=
  let s := tick dt s
  .next <|
    if !linkOf s reader then s
    else if !s.pwr.ready then emit (.read 0) s
    else readPuntFifo reader port s

/-- A write to PUNT_RETURN gives a buffer back; of a buffer not handed out, or without a pool, it is ignored. -/
def returnPunt (p : PortId) (i : Nat) (s : State) : State :=
  if s.pwr.ready && (puntOf s p).pool.isSome && (puntOf s p).out.contains i then
    modPunt p (fun x => { x with out := x.out.erase i }) s
  else ignoreWrite s

def execPuntReturn (dt : Nat) (writer port : PortId) (index : BitVec 16) (s : State) : Host.Outcome State Fault Refusal :=
  .next <| ownWrite writer port (returnPunt port index.toNat) (tick dt s)

/-! ### The register space (R445 to R457) -/

/-- Milliseconds since the release of PORST_N, saturating. -/
def elapsedMs (s : State) : Nat := min ((s.now - s.pwr.releasedAt) / 1000000000) 0xFFFF

def hostStatus (s : State) (reader : PortId) : Word :=
  BitVec.ofNat 32 (bit s.pwr.ready + 2 * (s.pwr.stage % 8) + 16 * (s.pwr.fail % 16) + 256 * bit s.twin.held
    + 512 * bit s.pwr.side + 1024 * portNum reader + 65536 * elapsedMs s)

/-- RING_CTRL as it reads. -/
def ringCtrlWord (r : Ring) : Word :=
  BitVec.ofNat 32 (bit r.enable + 2 * r.log2 + 256 * bit r.error + 512 * bit r.running.isSome)

/-- A register of a ring, by its offset in the ring's registers (Table 19.4). -/
def readRingReg (r : Ring) (off : Nat) : Word :=
  match off with
  | 0x00 => r.cmdBaseLo
  | 0x04 => r.cmdBaseHi
  | 0x08 => r.rplBaseLo
  | 0x0C => r.rplBaseHi
  | 0x10 => r.idxLo
  | 0x14 => r.idxHi
  | 0x18 => ringCtrlWord r
  | 0x1C => BitVec.ofNat 32 r.cmdProd.toNat
  | 0x20 => BitVec.ofNat 32 r.cmdCons.toNat
  | 0x24 => BitVec.ofNat 32 r.rplProd.toNat
  | 0x28 => BitVec.ofNat 32 r.rplCons.toNat
  | _ => 0

def readPuntReg (s : State) (reader p : PortId) (off : Nat) : Word :=
  if !s.pwr.ready then 0
  else
    match off with
    | 0x0000 => if reader = p then (puntOf s p).fifo.headD idleItem else idleItem
    | 0x0008 => BitVec.ofNat 32 (puntOf s p).fifo.length
    | _ => 0

def readHostReg (s : State) (reader : PortId) (off : Nat) : Word :=
  match off with
  | 0x0000 => hostStatus s reader
  | 0x0008 => BitVec.ofNat 32 Config.unitSerial.toNat
  | 0x000C => BitVec.ofNat 32 (Config.unitSerial.toNat / 2 ^ 32)
  | 0x0010 => if 2 ≤ s.pwr.stage then Config.firmwareVersion else 0
  | 0x0014 => if 4 ≤ s.pwr.stage then BitVec.ofNat 32 (galubLow + 65536 * galubHigh) else 0
  | _ => 0

def readEvtReg (s : State) (off : Nat) : Word :=
  match off with
  | 0x0000 => BitVec.ofNat 32 s.ev.holdoffA
  | 0x0004 => BitVec.ofNat 32 s.ev.holdoffB
  | 0x0010 => BitVec.ofNat 32 s.ev.mask0.toNat
  | 0x0014 => BitVec.ofNat 32 s.ev.mask1.toNat
  | 0x0018 => BitVec.ofNat 32 s.ev.status0.toNat
  | 0x001C => BitVec.ofNat 32 s.ev.status1.toNat
  | _ => 0

def readThimbleReg (s : State) (off : Nat) : Word :=
  if 0x4000 ≤ off ∧ off < 0x4100 ∧ off % 4 = 0 then
    let t := thimbleOf s ((off - 0x4000) / 4)
    thimbleWord false false t.owner t.waits
  else if 0x4100 ≤ off ∧ off < 0x4200 ∧ off % 4 = 0 then BitVec.ofNat 32 (thimbleOf s ((off - 0x4100) / 4)).timeout.toNat
  else 0

def readLockReg (s : State) (d : DieId) (off : Nat) : Word :=
  if s.pwr.ready && decide (off < 64 ∧ off % 4 = 0) then fmtLockWord (lockOf s d (off / 4)) else 0

/-- What a register of blocks 0 to 8 reads as, without the side effects that a read of PUNT_FIFO or of a claim address has. -/
def readReg (s : State) (reader : PortId) (offset : Nat) : Word :=
  let off := offset % 0x80000
  match offset / 0x80000 with
  | 0 => readHostReg s reader off
  | 1 => readThimbleReg s off
  | 2 => readRingReg (ringOf s .a (off / 0x40)) (off % 0x40)
  | 3 => readRingReg (ringOf s .b (off / 0x40)) (off % 0x40)
  | 4 => readPuntReg s reader .a off
  | 5 => readPuntReg s reader .b off
  | 6 => readEvtReg s off
  | 7 => readLockReg s .east off
  | 8 => readLockReg s .west off
  | _ => 0

/-- A write to an address register of a ring: ignored while the ring is enabled or busy (R452). -/
def writeRingAddr (p : PortId) (r : Nat) (f : Ring → Ring) (s : State) : State :=
  let x := ringOf s p r
  if x.enable || x.running.isSome then ignoreWrite s else modRing p r f s

def writeRingReg (p : PortId) (r off : Nat) (v : Word) (s : State) : State :=
  match off with
  | 0x00 => writeRingAddr p r (fun x => { x with cmdBaseLo := v }) s
  | 0x04 => writeRingAddr p r (fun x => { x with cmdBaseHi := v }) s
  | 0x08 => writeRingAddr p r (fun x => { x with rplBaseLo := v }) s
  | 0x0C => writeRingAddr p r (fun x => { x with rplBaseHi := v }) s
  | 0x10 => writeRingAddr p r (fun x => { x with idxLo := v }) s
  | 0x14 => writeRingAddr p r (fun x => { x with idxHi := v }) s
  | 0x18 => writeRingCtrl p r (bitsOf v.toNat 0 0 == 1) (bitsOf v.toNat 8 8 == 1) (bitsOf v.toNat 4 1) s
  | 0x1C => writeCmdProd p r v s
  | 0x28 => writeRplCons p r v s
  | _ => ignoreWrite s

/-- A write to a port's ring block (block 2 or 3). -/
def writeRingBlock (writer p : PortId) (off : Nat) (v : Word) (s : State) : State :=
  if off / 0x40 < 16 then ownWrite writer p (writeRingReg p (off / 0x40) (off % 0x40) v) s else ignoreWrite s

def writePuntBlock (writer p : PortId) (off : Nat) (v : Word) (s : State) : State :=
  if off = 0x0004 then ownWrite writer p (returnPunt p (bitsOf v.toNat 15 0)) s else ignoreWrite s

/-- A write to the Thimble block: a claim address releases, THIMBLE_CFG takes a timeout for the next claim (R359, R360, R450). -/
def writeThimbleBlock (writer : PortId) (off : Nat) (v : Word) (s : State) : State :=
  if off < 0x4000 then
    if off % 256 / 4 < 64 then releaseThimble writer (off / 256) (off % 256 / 4) s else ignoreWrite s
  else if 0x4100 ≤ off ∧ off < 0x4200 then
    modThimble ((off - 0x4100) / 4) (fun t => { t with timeout := BitVec.ofNat 16 v.toNat }) s
  else ignoreWrite s

def writeHoldoff (writer p : PortId) (v : Word) (s : State) : State :=
  let us := bitsOf v.toNat 9 0
  if writer != p || 1000 < us then ignoreWrite s
  else
    match p with
    | .a => { s with ev := { s.ev with holdoffA := us } }
    | .b => { s with ev := { s.ev with holdoffB := us } }

def writeEvtBlock (writer : PortId) (off : Nat) (v : Word) (s : State) : State :=
  match off with
  | 0x0000 => writeHoldoff writer .a v s
  | 0x0004 => writeHoldoff writer .b v s
  | 0x0010 => { s with ev := { s.ev with mask0 := BitVec.ofNat 16 v.toNat } }
  | 0x0014 => { s with ev := { s.ev with mask1 := BitVec.ofNat 16 v.toNat } }
  | 0x0018 => clearPins 0 v s
  | 0x001C => clearPins 1 v s
  | _ => ignoreWrite s

def writeLockBlock (writer : PortId) (d : DieId) (off : Nat) (v : Word) (s : State) : State :=
  if off < 64 then lockWrite writer d (off / 4) v s else ignoreWrite s

/-- A write to the register space: one aligned word to a register that takes it; any other write is ignored and counted
(R446 to R448). -/
def writeReg (writer : PortId) (offset bytes : Nat) (v : Word) (s : State) : State :=
  let off := offset % 0x80000
  if bytes != 4 || offset % 4 != 0 then ignoreWrite s
  else
    match offset / 0x80000 with
    | 1 => writeThimbleBlock writer off v s
    | 2 => writeRingBlock writer .a off v s
    | 3 => writeRingBlock writer .b off v s
    | 4 => writePuntBlock writer .a off v s
    | 5 => writePuntBlock writer .b off v s
    | 6 => writeEvtBlock writer off v s
    | 7 => writeLockBlock writer .east off v s
    | 8 => writeLockBlock writer .west off v s
    | _ => ignoreWrite s

def execRegisterWrite (dt : Nat) (writer : PortId) (offset bytes : Nat) (v : Word) (s : State) :
    Host.Outcome State Fault Refusal :=
  let s := tick dt s
  .next (if linkOf s writer then writeReg writer offset bytes v s else s)

/-! ### Images (R239, R357, R358) -/

def mib (n : Nat) : Nat := n * 2 ^ 20

/-- The bytes of images in a die's store. -/
def storeBytes (x : ImageStore) : Nat := (x.images.map fun p => p.2.1).sum

/-- A download of a terminal of the die uses an image. -/
def imageInUse (s : State) (d : DieId) (image : Nat) : Bool :=
  s.pon.terms.any fun p => dieOfTerm s p.1 == d && (p.2.download.map fun x => x.image == image).getD false

/-- The address of a byte of an image in the die's store. -/
def imageAddr (image off : Nat) : Nat := image * 2 ^ 28 + off

/-- Remove the bytes of an image. -/
def wipeImage (image : Nat) (mem : List Host.Cell) : List Host.Cell := mem.filter fun c => c.1 / 2 ^ 28 != image

/-- Read a byte of the store; a byte that nothing has written reads as 0 (log entry 8). -/
def imageByte (mem : List Host.Cell) (a : Nat) : Byte := Tab.getD mem a 0

/-- Write a byte of the store, keeping the canonical form. -/
def writeByte (a : Nat) (b : Byte) (mem : List Host.Cell) : List Host.Cell := Tab.put 0 a b mem

/-- The canonical form of a store: addresses strictly rising, no entry equal to what an unlisted byte reads as. -/
def memWf (mem : List Host.Cell) : Bool := Tab.sorted mem && mem.all fun c => c.2 != 0

def execImageOpen (dt : Nat) (h : Hdr) (die : DieId) (image length : Nat) (s : State) : Host.Outcome State Fault Refusal :=
  .next <| hostCmd dt Op.imageOpen h (fun s =>
    let x := imagesOf s die
    if 32 ≤ image || mib 256 < length then fail St.parameter s
    else if x.opened.isSome || imageInUse s die image then fail St.busy s
    else if mib 1024 < storeBytes { x with images := x.images.del image } + length then fail St.capacity s
    else
      okay (modImages die (fun x => { x with images := x.images.del image, opened := some (image, length, h.port),
                                             offset := 0, mem := wipeImage image x.mem }) s)) s

def execImageWindow (dt : Nat) (h : Hdr) (die : DieId) (offset : Nat) (s : State) : Host.Outcome State Fault Refusal :=
  .next <| hostCmd dt Op.imageWindow h (fun s =>
    if offset % mib 64 != 0 || mib 192 < offset then fail St.parameter s
    else if (imagesOf s die).opened.isNone then fail St.state s
    else okay (modImages die (fun x => { x with offset := offset }) s)) s

/-- The CRC-32 of an image's bytes. -/
def imageCrc (mem : List Host.Cell) (image length : Nat) : Word :=
  crc32 ((List.range length).map fun i => imageByte mem (imageAddr image i))

def execImageClose (dt : Nat) (h : Hdr) (die : DieId) (crc : Word) (s : State) : Host.Outcome State Fault Refusal :=
  .next <| hostCmd dt Op.imageClose h (fun s =>
    match (imagesOf s die).opened with
    | none => fail St.state s
    | some (image, length, _) =>
      if imageCrc (imagesOf s die).mem image length = crc then
        okay (modImages die (fun x => { x with opened := none, images := x.images.set image (length, crc) }) s)
      else fail St.parameter (modImages die (fun x => { x with opened := none, mem := wipeImage image x.mem }) s)) s

def execImageDelete (dt : Nat) (h : Hdr) (die : DieId) (image : Nat) (s : State) : Host.Outcome State Fault Refusal :=
  .next <| hostCmd dt Op.imageDelete h (fun s =>
    if ((imagesOf s die).images.find? image).isNone then fail St.handle s
    else if imageInUse s die image then fail St.busy s
    else okay (modImages die (fun x => { x with images := x.images.del image, mem := wipeImage image x.mem }) s)) s

/-- The image window of a BAR2 address: its die and the byte offset in the window (Table 14.2). -/
def imageWindow? (addr : Nat) : Option (DieId × Nat) :=
  if 0x4000000 ≤ addr ∧ addr < 0x8000000 then some (.east, addr - 0x4000000)
  else if 0xC000000 ≤ addr ∧ addr < 0x10000000 then some (.west, addr - 0xC000000)
  else none

/-- Write the bytes of an image from a position on; those at or beyond its length are discarded. -/
def putBytes (image length : Nat) : Nat → List Byte → List Host.Cell → List Host.Cell
  | _, [], mem => mem
  | pos, b :: t, mem => putBytes image length (pos + 1) t (if pos < length then writeByte (imageAddr image pos) b mem else mem)

/-- A write through an image window, in aligned words; beyond the image, or with none open, it is discarded and counted (R358). -/
def imageWrite (addr : Nat) (data : List Byte) (s : State) : State :=
  match imageWindow? addr with
  | none => strayWrite s
  | some (die, off) =>
    let lost := bump 0 (dieNum die) Cn.imageWrites 1
    match (imagesOf s die).opened with
    | none => lost s
    | some (image, length, _) =>
      let pos := (imagesOf s die).offset + off
      if addr % 4 != 0 || data.length % 4 != 0 || mib 64 < off + data.length then lost s
      else
        doIf (decide (ceilDiv length 4 * 4 < pos + data.length)) lost
          (modImages die (fun x => { x with mem := putBytes image length pos data x.mem }) s)

def execImageWindowWrite (dt : Nat) (port : PortId) (addr : Nat) (data : List Byte) (s : State) :
    Host.Outcome State Fault Refusal :=
  let s := tick dt s
  .next (if linkOf s port then imageWrite addr data s else s)

def execBar2StrayWrite (dt : Nat) (port : PortId) (addr : Nat) (s : State) : Host.Outcome State Fault Refusal :=
  let s := tick dt s
  .next <|
    if linkOf s port && (fmtWindow? addr).isNone && (imageWindow? addr).isNone then strayWrite s else s

/-! ### The links (R356, R417) -/

/-- A port's rings lose their waiting commands, and the replies of those that run (R356). -/
def dropCommands (p : PortId) (s : State) : State :=
  forAll (List.range 16) (fun r s =>
    if (ringOf s p r) = {} then s
    else modRing p r (fun x => { x with cmdCons := x.cmdProd, abortsDone := [],
                                        running := x.running.map fun c => { c with discard := true } }) s) s

/-- An image that the port had open is deleted (R358). -/
def dropOpenImage (p : PortId) (d : DieId) (s : State) : State :=
  match (imagesOf s d).opened with
  | some (image, _, q) =>
    if q = p then modImages d (fun x => { x with opened := none, mem := wipeImage image x.mem }) s else s
  | none => s

/-- What the loss of a port's link does besides the event. -/
def linkLoss (p : PortId) (s : State) : State :=
  let s := forAll (List.range 16) (fun r s => (closeSession p r s).2) s
  let s := (releaseOwned (fun o => o.1 == p) s).2
  dropOpenImage p .west (dropOpenImage p .east (dropCommands p (setLink p false s)))

def execHostPortDown (dt : Nat) (port : PortId) (s : State) : Host.Outcome State Fault Refusal :=
  let s := tick dt s
  .next <|
    if linkOf s port then
      raise Ev.hostPortDown (if port = .a then .east else .west) [.u8 (portNum port)] (linkLoss port s)
    else s

/-- A port's link comes up: from the boot ROM on, which enables the PCIe ports (Table 17.3). -/
def execHostPortLinkUp (dt : Nat) (port : PortId) (s : State) : Host.Outcome State Fault Refusal :=
  let s := tick dt s
  .next (if s.pwr.inReset then s else setLink port true s)

end Sys2Proof.Machine
end

