-- ==== Sys2Proof/Machine/Queues.lean ====
section
/-! DEFINITION. Admission from the pipelines, the channel scheduler, shapers and policers, express cut-through, timed launch, the uplink ports and the flow-control pins (R158 to R187, R279, R302 to R304). -/

namespace Sys2Proof.Machine
open Sys2Proof

/-! ### The stitch of a frame (R41, R42) -/

/-- The configuration that the bank in use goes by: within a window, the one that its stitch leaves (R41, R221). -/
def bankCfg (s : State) : Cfg :=
  match openStitch? s with
  | some p => openCfg s.stitch.cfg p
  | none => s.stitch.cfg

/-- The object is held closed after a quarantine (R44). -/
def heldClosed (s : State) (kind num : Nat) : Bool := s.stitch.heldObjs.contains (kind, num)

/-- Whether a frame may enter its destination: now, once its stitch has opened it, or not at all. -/
inductive Ready | open_ | held | revoked
  deriving DecidableEq, Repr

/-- The state of one object for a frame of a stitch. -/
def readyObj (s : State) (st : StitchNo) (kind num : Nat) : Ready :=
  if (cfgOf s).live kind num then if heldClosed s kind num then .held else .open_
  else if st = bankStitch s && (bankCfg s).live kind num then .held
  else .revoked

/-- A queue: privileged ones stay for good; one that is only re-parented goes on taking frames (R176). -/
def readyQueue (s : State) (st : StitchNo) (q : Nat) : Ready :=
  if privileged s q then .open_
  else if (cfgOf s).has Kind.queue q && (bankCfg s).live Kind.queue q && !heldClosed s Kind.queue q then .open_
  else readyObj s st Kind.queue q

/-- The worse of two. -/
def Ready.and : Ready → Ready → Ready
  | .revoked, _ => .revoked
  | _, .revoked => .revoked
  | .held, _ => .held
  | _, .held => .held
  | .open_, .open_ => .open_

def readyFlow (s : State) (f : Frame) : Ready :=
  match f.kind with
  | .flow n => readyObj s f.stitch Kind.flow n
  | _ => .open_

def readyTransit (s : State) (t : Transit) : Ready :=
  match t.dest with
  | .queue q => (readyFlow s t.frame).and (readyQueue s t.frame.stitch q)
  | .port p => readyObj s t.frame.stitch Kind.subport p

/-- Discard an old-stitch frame whose queue, flow or binding is revoked (R42). -/
def stitchDiscard (die : DieId) (s : State) : State := bump 0 (dieNum die) Cn.stitchDiscards 1 s

/-! ### Launch records (R304) -/

/-- The key of a launch list: a channel's, or a port's. -/
def launchKey (isPort : Bool) (dest : Nat) : Nat := if isPort then 512 + dest else dest

def launchDie (isPort : Bool) (dest : Nat) : DieId := if isPort then dieOfPort dest else dieOfChannel dest

def launchRing (s : State) : DieId → List LaunchRec
  | .east => s.q.launchRingE
  | .west => s.q.launchRingW

def pushLaunch (d : DieId) (r : LaunchRec) (s : State) : State :=
  match d with
  | .east => { s with q := { s.q with launchRingE := s.q.launchRingE ++ [r] } }
  | .west => { s with q := { s.q with launchRingW := s.q.launchRingW ++ [r] } }

/-- Write a launch record when the descriptor asks for one; it is delivered and overflows as a notice does. -/
def launchRecord (e : Launch) (isPort : Bool) (dest status time : Nat) (s : State) : State :=
  let d := launchDie isPort dest
  let r : LaunchRec := ⟨e.tag, status, e.base, isPort, dest, time⟩
  let full := decide (Config.launchRingMax ≤ (launchRing s d).length)
  if !e.report then s
  else
    match destPort ((cfgOf s).valN Kind.die (dieNum d) Fld.dieLaunchDest) with
    | some p =>
      if !hasSession s p then bump 0 (dieNum d) Cn.launchNoSession 1 s
      else if full then bump 0 (dieNum d) Cn.launchRingFull 1 s
      else fireDelivery p .launch (pushLaunch d r s)
    | none => if full then bump 0 (dieNum d) Cn.launchRingFull 1 s else pushLaunch d r s

/-- Drop a timed frame: it is counted, and LAUNCH_MISSED is raised at most once per second per destination (R177). -/
def launchDrop (e : Launch) (isPort : Bool) (dest status : Nat) (s : State) : State :=
  let s := if isPort then bump 8 dest Cn.portLaunchMiss 1 s else bump 7 dest Cn.launchMiss 1 s
  launchRecord e isPort dest status 0
    (raiseLimited Ev.launchMissed (launchDie isPort dest) (launchKey isPort dest) (Time.sec 1)
      [.u16 (dest + 2 ^ 15 * bit isPort)] s)

/-! ### Launch times (R177, R303) -/

/-- The 32-bit words of a downstream frame. -/
def frameWords (ch : Nat) : Nat := if isWide ch then 194400 else 38880

/-- The instant of a word of the frame with a superframe count; none when the count lies behind the present one. -/
def wordInstant (s : State) (ch : Nat) (sf : SF) (word : Nat) : Option Time :=
  let d := (sf - s.pon.sf).toNat
  if 2 ^ 50 ≤ d then none else some (s.pon.gridAt + d * Time.frame + word * Time.frame / frameWords ch)

/-- Mode 0b11: the frame whose T(N) is the latest at or before the time, and the offset in it. T(N) is the stamped boundary
plus the module's transmit delay (R299). -/
def wordOfTime (s : State) (ch base time : Nat) : SF × Nat :=
  let t0 := baseVal (baseOf s base) s.pon.gridAt + (chValN s ch Fld.chModTx * 65536 / 1000 : Nat)
  let fr : Int := 125000 * 65536
  let d := (time : Int) - t0
  (s.pon.sf + BitVec.ofInt 51 (d / fr), ((d % fr) * frameWords ch / fr).toNat)

/-- A time of a descriptor in units of 2⁻¹⁶ ns. -/
def descTime (d : BitVec 144) : Nat := (lnSeconds d * 10 ^ 9 + lnNs d) * 65536

/-- Rounded up to the next 1.25 ns step. -/
def roundStep (t : Nat) : Nat := ceilDiv t 81920 * 81920

/-- The launch entry of a timed frame for a channel. -/
def channelLaunch (s : State) (q ch : Nat) (f : Frame) (d : BitVec 144) : Launch :=
  let w := if lnMode d = 2 then (lnSf d, lnWord d) else wordOfTime s ch (lnBase d) (descTime d)
  { frame := f, sf := w.1, word := w.2, base := if lnMode d = 2 then 0 else lnBase d, queue := q, tag := lnTag d,
    report := lnReport d, mode := lnMode d }

/-- The launch entry of a timed frame for a port. -/
def portLaunch (f : Frame) (d : BitVec 144) : Launch :=
  { frame := f, base := lnBase d, time := roundStep (descTime d), tag := lnTag d, report := lnReport d, mode := 1 }

/-- Why a timed frame is dropped at enqueue, as a launch status: 1 passed, 2 more than 1 s ahead, 3 list full. -/
def launchStatus (s : State) (isPort : Bool) (dest : Nat) (e : Launch) : Nat :=
  let full := decide ((if isPort then 64 else 32) ≤ (s.q.launches.getD (launchKey isPort dest) []).length)
  if isPort then
    let v := baseVal (baseOf s e.base) s.now
    if (e.time : Int) < v then 1 else if v + 10 ^ 9 * 65536 < (e.time : Int) then 2 else if full then 3 else 0
  else
    match wordInstant s dest e.sf e.word with
    | none => 1
    | some t => if t < s.now then 1 else if s.now + Time.sec 1 < t then 2 else if full then 3 else 0

/-- Insert a launch entry in order of its instant. -/
def insertLaunch (key : Launch → Int) (e : Launch) : List Launch → List Launch
  | [] => [e]
  | x :: t => if key x ≤ key e then x :: insertLaunch key e t else e :: x :: t

def launchOrder (s : State) (isPort : Bool) (dest : Nat) (e : Launch) : Int :=
  if isPort then (e.time : Int) else (((wordInstant s dest e.sf e.word).getD 0 : Nat) : Int)

/-- A timed frame enters the launch list of its destination, and is counted in its queue, or is dropped (R177, R178). -/
def admitLaunch (isPort : Bool) (dest : Nat) (deep : Bool) (e : Launch) (s : State) : State :=
  let st := launchStatus s isPort dest e
  let k := launchKey isPort dest
  if st != 0 then launchDrop e isPort dest st s
  else if !panRoom s (launchDie isPort dest) deep e.frame then panDrop (launchDie isPort dest) deep s
  else
    let s := doIf (!isPort) (fun s => bump 11 e.queue Cn.qEnqBytes e.frame.len (bump 11 e.queue Cn.qEnqFrames 1 s)) s
    settlePans { s with q := { s.q with
      launches := s.q.launches.set k (insertLaunch (launchOrder s isPort dest) e (s.q.launches.getD k [])) } }

/-! ### QUEUE_ENQUEUE (R161, R166, R172, R177) -/

/-- The launch descriptor of a frame, when it asks for a launch time. -/
def timed? (f : Frame) : Option (BitVec 144) := f.launch.bind fun d => if lnMode d = 0 then none else some d

/-- A frame reaches a queue. -/
def enqueueAt (q : Nat) (f : Frame) (s : State) : State :=
  match timed? f, queueChan? s q with
  | some d, some ch =>
    if shadowDrop s ch then bump 7 ch Cn.shadowDiscards 1 s
    else if chValN s ch Fld.chMaxFrame < f.len then bump 7 ch Cn.oversize 1 s
    else
      admitLaunch false ch (queueOf s q).deep (channelLaunch s q ch f d) s
  | _, _ => admitQueue q f s

/-- A frame reaches a port's class on a die. -/
def enqueuePort (die : DieId) (p : Nat) (f : Frame) (s : State) : State :=
  match timed? f with
  | some d => admitLaunch true p false (portLaunch f d) s
  | none => admitClass die p f s

def enqueueTransit (t : Transit) (s : State) : State :=
  match readyTransit s t with
  | .revoked => stitchDiscard t.die s
  | _ =>
    match t.dest with
    | .queue q => enqueueAt q t.frame s
    | .port p => enqueuePort t.die p t.frame s

/-- The first frame on its way on a die whose destination does not keep it waiting for B2 (R221). -/
def nextTransit (s : State) (die : DieId) : Option Transit :=
  s.q.transit.find? fun t => t.die == die && readyTransit s t != .held

def execQueueEnqueue (dt : Nat) (die : DieId) (s : State) : Host.Outcome State Fault Refusal :=
  let s := tick dt s
  .next <|
    match nextTransit s die with
    | none => s
    | some t => enqueueTransit t { s with q := { s.q with transit := s.q.transit.erase t } }

/-! ### Keys of downstream frames (R254, R267, R269) -/

/-- The owner number of a broadcast slot: a tenant on a channel. -/
def bcastOwner (ch tenant : Nat) : Nat := 64 * ch + tenant

/-- The index CURRENT in a slot, unless its key is spent. -/
def usableIndex (s : State) (die : DieId) (kind owner : Nat) : Option Nat :=
  (currentIndex s die kind owner).bind fun i => if (keyOf s die kind owner i).spent then none else some i

def flowTerm (s : State) (f : Nat) : Nat := (cfgOf s).valN Kind.flow f Fld.flTerm

/-- The key index that a frame is sent under on a channel: none while no key may be used. OMCI goes in clear (R254); a frame of
a queue that no flow names has no key of its own. -/
def sendIndex (s : State) (ch : Nat) (f : Frame) : Option Nat :=
  match f.kind with
  | .flow n => if (termOf s (flowTerm s n)).ctxLost then none else usableIndex s (dieOfChannel ch) slotData (flowTerm s n)
  | .omci _ _ => some 0
  | .mcast => usableIndex s (dieOfChannel ch) slotBroadcast (bcastOwner ch f.tenant)
  | .other => some 0

/-- The XGEM Port-ID of a frame on a channel. -/
def xgemPort (s : State) (ch q : Nat) (f : Frame) : Nat :=
  match f.kind with
  | .flow n => (cfgOf s).valN Kind.flow n Fld.flPort
  | .omci t _ => (termOf s t).onu.getD 0
  | .mcast => Config.mcastPort ch f.tenant
  | .other => Config.hostPortId q

/-- Hand a frame to the cipher lane and the framer: an XGEM frame, and its counts. -/
def handOn (ch q : Nat) (f : Frame) (len : Nat) (badFcs : Bool) (s : State) : State :=
  let s := emit (.xgem ch (xgemPort s ch q f) ((sendIndex s ch f).getD 0) len badFcs) s
  let s := bump 7 ch Cn.sentBytes len s
  match f.kind with
  | .flow n => bumpPair 0 n 2 len s
  | .omci t x => emit (.sendOmci t x f.bytes) s
  | _ => s

/-! ### The scheduler (R162 to R168) -/

/-- The frame that a queue sends next: a move's old instance is drained first (R21). -/
def headFrame (x : Queue) : Option Frame :=
  match x.oldFrames with
  | f :: _ => some f
  | [] => x.frames.head?

/-- A queue without its next frame. -/
def dropHead (x : Queue) : Queue :=
  match x.oldFrames with
  | _ :: t => { x with oldFrames := t }
  | [] => { x with frames := x.frames.drop 1 }

/-- A queue is a candidate: it holds a frame that a key is there for, and its peak level is above 0. -/
def queueCand (s : State) (ch q : Nat) : Bool :=
  ((headFrame (queueOf s q)).map fun f => (sendIndex s ch f).isSome).getD false && decide (0 < (shaperOf s Kind.queue q).peak)

/-- The ordinary queues of a channel that are candidates: attached, live, of a terminal that is on the channel. -/
def queueCands (s : State) (ch : Nat) : List Nat :=
  (((cfgOf s).liveOf Kind.queue).map (·.num)).filter fun q =>
    let n := (cfgOf s).valN Kind.queue q Fld.qSub
    (queueOf s q).attached && !heldClosed s Kind.queue q && !privileged s q && (cfgOf s).live Kind.subscriber n
      && (termOf s (n / 64)).ch == some ch && queueCand s ch q

def nodeOf (s : State) (q : Nat) : Nat := (cfgOf s).valN Kind.queue q Fld.qSub

/-- The subscriber nodes that are candidates through some queues. -/
def subCands (s : State) (qs : List Nat) : List Nat :=
  ((qs.map (nodeOf s)).eraseDups).filter fun n => decide (0 < (shaperOf s Kind.subscriber n).peak)

def svcNodeOf (ch sub : Nat) : Nat := 64 * ch + sub % 64

/-- The service nodes that are candidates through some subscriber nodes. -/
def svcCands (s : State) (ch : Nat) (subs : List Nat) : List Nat :=
  ((subs.map (svcNodeOf ch)).eraseDups).filter fun n => decide (0 < (shaperOf s Kind.svcNode n).peak)

/-- The next child after one, in the order of their numbers, round. -/
def nextAfter (l : List Nat) (cur : Nat) : Nat :=
  let after := l.filter fun x => decide (cur < x)
  (if after.isEmpty then l else after).foldl (fun a x => min a x) ((if after.isEmpty then l else after).headD 0)

/-- Deficit round robin: the child whose turn it is goes on while its deficit is above 0; then the turn passes to the next
child, which gets its quantum. Answers the child and the deficits. -/
def drr (quantum : Nat → Int) (l : List Nat) : Nat → Nat → Tab Int → Nat × Tab Int
  | 0, cur, d => (cur, d)
  | n + 1, cur, d =>
    if l.contains cur && decide (0 < d.getD cur 0) then (cur, d)
    else
      let x := nextAfter l cur
      drr quantum l n x (d.set x (d.getD x 0 + quantum x))

/-- Enough turns for every child to come above 0. -/
def drrFuel (l : List Nat) : Nat := 32 * l.length + 1

/-- The children of the first pass and band that has any (R164): whether the pass was the committed one, and the children. -/
def firstClass (s : State) (kind : Nat) (l : List Nat) : Bool × List Nat :=
  let inBand : Nat → List Nat := fun b => l.filter fun n => (cfgOf s).valN kind n Fld.shBand == b
  let bands := (List.range 8).reverse.map inBand
  match (bands.map fun c => c.filter fun n => decide (0 < (shaperOf s kind n).committed)).find? fun c => !c.isEmpty with
  | some c => (true, c)
  | none => (false, (bands.find? fun c => !c.isEmpty).getD [])

/-- Choose a child of a parent. -/
def chooseChild (parent kind : Nat) (l : List Nat) (s : State) : Bool × Nat × State :=
  let c := firstClass s kind l
  let d : Tab Int := c.2.foldl (fun t n => t.set n (shaperOf s kind n).deficit) []
  let r := drr (fun n => 1024 * (cfgOf s).val kind n Fld.shWeight) c.2 (drrFuel c.2) (s.q.turns.getD parent 0) d
  let s := c.2.foldl (fun s n => modShaper kind n (fun x => { x with deficit := r.2.getD n 0 }) s) s
  (c.1, r.1, { s with q := { s.q with turns := s.q.turns.set parent r.1 } })

/-- Level units of a number of bytes (log entry 11). -/
def levelOf (bytes : Nat) : Int := 46875 * (bytes : Int)

/-- Debit a dequeued frame: the peak bucket, the committed bucket where it was chosen in that pass, and the deficit (R165). -/
def debit (kind num : Nat) (committed : Bool) (n : Nat) (s : State) : State :=
  modShaper kind num (fun x => { peak := x.peak - levelOf n, deficit := x.deficit - n,
                                 committed := if committed then x.committed - levelOf n else x.committed }) s

/-- The contenders of the channel stage that have a candidate: 0 express, 1 management, 2 hierarchy (R168). -/
def contenders (s : State) (ch : Nat) : List Nat :=
  let priv : Option Nat → Bool := fun q? => (q?.map (queueCand s ch)).getD false
  (if priv (chOf s ch).expressQ then [0] else []) ++ (if priv (chOf s ch).mgmtQ then [1] else [])
    ++ if (svcCands s ch (subCands s (queueCands s ch))).isEmpty then [] else [2]

def stageQuantum (s : State) (ch i : Nat) : Int :=
  chVal s ch (if i = 0 then Fld.chExpQuantum else if i = 1 then Fld.chMgmtQuantum else Fld.chHierQuantum)

def stageDeficits (x : Channel) : Tab Int := [(0, x.defE), (1, x.defM), (2, x.defH)]

/-- The deficit of a child that is no candidate is 0. -/
def resetDeficits (ch : Nat) (s : State) : State :=
  let qs := queueCands s ch
  let subs := subCands s qs
  let svcs := svcCands s ch subs
  let con := contenders s ch
  let drop : Nat → List Nat → Nat → Bool := fun kind l k =>
    k / 2 ^ 40 == kind && !l.contains (k % 2 ^ 40)
      && (if kind = Kind.queue then queueChan? s (k % 2 ^ 40) == some ch
          else if kind = Kind.subscriber then (termOf s (k % 2 ^ 40 / 64)).ch == some ch
          else k % 2 ^ 40 / 64 == ch)
  let clear : Nat → Shaper → Shaper := fun k x =>
    if drop Kind.queue qs k || drop Kind.subscriber subs k || drop Kind.svcNode svcs k then { x with deficit := 0 } else x
  let s := { s with q := { s.q with shapers := s.q.shapers.mapVals clear } }
  modCh ch (fun x => { x with defE := if con.contains 0 then x.defE else 0, defM := if con.contains 1 then x.defM else 0,
                              defH := if con.contains 2 then x.defH else 0 }) s

/-- The channel stage's choice, with its deficits as they then stand. -/
def chooseStage (ch : Nat) (s : State) : Nat × State :=
  let l := contenders s ch
  let r := drr (stageQuantum s ch) l (drrFuel l) (s.q.turns.getD (objKey 0 ch) 2) (stageDeficits (chOf s ch))
  let s := modCh ch (fun x => { x with defE := r.2.getD 0 0, defM := r.2.getD 1 0, defH := r.2.getD 2 0 }) s
  (r.1, { s with q := { s.q with turns := s.q.turns.set (objKey 0 ch) r.1 } })

/-- Take the length of a frame from a contender's deficit. -/
def debitStage (ch i n : Nat) (s : State) : State :=
  modCh ch (fun x => { x with defE := if i = 0 then x.defE - n else x.defE, defM := if i = 1 then x.defM - n else x.defM,
                              defH := if i = 2 then x.defH - n else x.defH }) s

/-- The queue of a privileged contender. -/
def stageQueue (s : State) (ch i : Nat) : Nat := ((if i = 0 then (chOf s ch).expressQ else (chOf s ch).mgmtQ).getD 0)

/-- Choose through the hierarchy: the queue, and the debits of the path. -/
def chooseHier (ch : Nat) (s : State) : Nat × (Nat → State → State) × State :=
  let qs := queueCands s ch
  let subs := subCands s qs
  let a := chooseChild (objKey Kind.channel ch) Kind.svcNode (svcCands s ch subs) s
  let b := chooseChild (objKey Kind.svcNode a.2.1) Kind.subscriber (subs.filter fun n => svcNodeOf ch n == a.2.1) a.2.2
  let c := chooseChild (objKey Kind.subscriber b.2.1) Kind.queue (qs.filter fun q => nodeOf s q == b.2.1) b.2.2
  (c.2.1, fun n s => debit Kind.queue c.2.1 c.1 n (debit Kind.subscriber b.2.1 b.1 n (debit Kind.svcNode a.2.1 a.1 n s)), c.2.2)

/-- The bytes per second that a channel passes downstream (Table 2.1). -/
def channelKbps (ch : Nat) : Nat := if isWide ch then 42000000 else 8670000

/-- The time that bytes take at a rate in kb/s. -/
def sendTime (kbps bytes : Nat) : Time := bytes * 8 * 10 ^ 9 / kbps

/-- The instant of a channel's first timed frame, when the present frame is the one it names (R178). -/
def channelLimit (s : State) (ch : Nat) : Option Time :=
  match s.q.launches.getD (launchKey false ch) [] with
  | [] => none
  | e :: _ => if e.sf = s.pon.sf then wordInstant s ch e.sf e.word else none

/-- A frame would still be in transmission at a timed frame's offset. -/
def collides (s : State) (ch : Nat) (f : Frame) : Bool :=
  match channelLimit s ch with
  | none => false
  | some t => decide (t < s.now + sendTime (channelKbps ch) f.counted)

/-- Dequeue the head of a chosen queue. -/
def dequeue (ch i q : Nat) (debits : Nat → State → State) (s : State) : State :=
  match headFrame (queueOf s q) with
  | none => s
  | some f =>
    let s := debitStage ch i f.counted (debits f.counted (modQueue q dropHead s))
    settlePans (resetDeficits ch (handOn ch q f f.len false s))

/-- The channel's choice: the contender, its queue, the debits of its path and the state after the choice. -/
def chooseFrame (ch : Nat) (s : State) : Nat × Nat × (Nat → State → State) × State :=
  let a := chooseStage ch (resetDeficits ch s)
  if a.1 = 2 then
    let r := chooseHier ch a.2
    (2, r.1, r.2.1, r.2.2)
  else (a.1, stageQueue s ch a.1, fun n s => debit Kind.queue (stageQueue s ch a.1) false n s, a.2)

/-! ### Shapers and policers (R170, R181) -/

/-- The 64-cycle periods of CLK_CORE, at 1.5 GHz, up to an instant. -/
def corePeriods (t : Time) : Nat := t * 3 / 128000

/-- A bucket rises by its rate in kb/s over a number of periods, up to its burst in bytes. -/
def refill (level : Int) (kbps burst n : Nat) : Int :=
  let v := level + (n * kbps / 4 : Nat)
  if levelOf burst ≤ level then level else if levelOf burst < v then levelOf burst else v

/-- The peak rate and burst of a shaper: a privileged queue's is its channel's cap (Tables 6.3, 6.4). -/
def peakOf (s : State) (kind num : Nat) : Nat × Nat :=
  if kind = Kind.queue then
    match privChannel? s num with
    | some ch =>
      (chValN s ch (if (chOf s ch).expressQ == some num then Fld.chExpCap else Fld.chMgmtCap), 65536)
    | none => ((cfgOf s).valN kind num Fld.shPir, (cfgOf s).valN kind num Fld.shPbs)
  else ((cfgOf s).valN kind num Fld.shPir, (cfgOf s).valN kind num Fld.shPbs)

/-- One shaper's refill over a number of periods. -/
def refillShaper (s : State) (n k : Nat) (x : Shaper) : Shaper :=
  let kind := k / 2 ^ 40
  let num := k % 2 ^ 40
  let p := peakOf s kind num
  { x with committed := refill x.committed ((cfgOf s).valN kind num Fld.shCir) ((cfgOf s).valN kind num Fld.shCbs) n
           peak := refill x.peak p.1 p.2 n }

/-- The service nodes above the subscriber nodes of terminals that are on a channel. -/
def usedSvcNodes (s : State) : List Nat :=
  ((cfgOf s).ofKind Kind.subscriber).filterMap fun o => (termOf s (o.num / 64)).ch.map fun ch => svcNodeOf ch o.num

/-- Every shaper has its entry: those of nodes come into use with their first subscriber node. -/
def withSvcNodes (s : State) : Tab Shaper :=
  (usedSvcNodes s).foldl (fun t n => if (t.find? (objKey Kind.svcNode n)).isSome then t else t.set (objKey Kind.svcNode n) {})
    s.q.shapers

/-- Bring every shaper's levels up to the present. -/
def refillShapers (s : State) : State :=
  let n := corePeriods s.now - s.q.shaperTicks
  { s with q := { s.q with shapers := (withSvcNodes s).mapVals (refillShaper s n), shaperTicks := corePeriods s.now } }

def execShaperRefill (dt : Nat) (s : State) : Host.Outcome State Fault Refusal :=
  let s := tick dt s
  .next (if s.q.shaperTicks < corePeriods s.now then refillShapers s else s)

def refillPolicer (s : State) (n k : Nat) (x : PolicerSt) : PolicerSt :=
  let v := (cfgOf s).valN Kind.policer k
  { tc := refill x.tc (v Fld.poCir) (v Fld.poCbs) n, tp := refill x.tp (v Fld.poPir) (v Fld.poPbs) n }

/-- Bring every policer's levels up to the present. -/
def refillPolicers (s : State) : State :=
  let n := corePeriods s.now - s.q.policerTicks
  { s with q := { s.q with policers := s.q.policers.mapVals (refillPolicer s n), policerTicks := corePeriods s.now } }

def execPolicerRefill (dt : Nat) (s : State) : Host.Outcome State Fault Refusal :=
  let s := tick dt s
  .next (if s.q.policerTicks < corePeriods s.now then refillPolicers s else s)

/-! ### MACsec associations (R278 to R280) -/

/-- The number of an association: channel 0 transmit, 1 to 8 receive (Table 15.3). -/
def assocNum (port chan an : Nat) : Nat := 36 * port + 4 * chan + an

def assocOf (s : State) (a : Nat) : SecAssoc := s.ciph.assocs.getD a {}
def modAssoc (a : Nat) (f : SecAssoc → SecAssoc) (s : State) : State :=
  { s with ciph := { s.ciph with assocs := Tab.upd {} a f s.ciph.assocs } }

/-- An association can be used: enabled and open, with its key loaded, not stopped. -/
def assocUsable (s : State) (port a : Nat) : Bool :=
  (cfgOf s).on Kind.sa a Fld.saEnabled && (cfgOf s).live Kind.sa a && (slotFor? s (dieOfPort port) slotSak a).isSome
    && !(assocOf s a).stopped

/-- The first usable association of a secure channel. -/
def assocFor (s : State) (port chan : Nat) : Option Nat :=
  ((List.range 4).map (assocNum port chan)).find? (assocUsable s port)

/-- The suite of a port numbers packets in 64 bits. -/
def isXpn (s : State) (port : Nat) : Bool := decide (2 ≤ (cfgOf s).valN Kind.subport port Fld.spSuite)
def pnMax (s : State) (port : Nat) : Nat := if isXpn s port then 2 ^ 64 - 1 else 2 ^ 32 - 1
def pnThreshold (s : State) (port a : Nat) : Nat :=
  let v := (cfgOf s).val Kind.sa a Fld.saThreshold
  if v < 0 then if isXpn s port then 0xC000000000000000 else 0xC0000000 else v.toNat

/-- An association stops (R279). -/
def stopAssoc (port a : Nat) (s : State) : State :=
  if (assocOf s a).stopped then s
  else raise Ev.macsecSaStopped (dieOfPort port) [.u8 port, .u8 (a % 36)] (modAssoc a (fun x => { x with stopped := true }) s)

/-- A frame uses a packet number of an association: the threshold is reported once, and the association stops at its ceiling. -/
def usePn (port a : Nat) (s : State) : State :=
  let n := (assocOf s a).pn.toNat
  let warn := !(assocOf s a).warned && decide (pnThreshold s port a ≤ n)
  let s := modAssoc a (fun x => { x with pn := if n < pnMax s port then x.pn + 1 else x.pn, warned := x.warned || warn }) s
  let s := doIf warn (raise Ev.macsecPnThreshold (dieOfPort port) [.u8 port, .u8 (a % 36)]) s
  doIf (decide (pnMax s port ≤ n)) (stopAssoc port a) s

def macsecOn (s : State) (port : Nat) : Bool := (cfgOf s).on Kind.subport port Fld.spMacsec

/-- A frame that is not valid counts on its association (R280). -/
def countIcv (a : Nat) (s : State) : State := bump 9 (192 + a) Cn.icvFail 1 s

/-- A packet number lies below the replay window of a receive association (Table 10.5). -/
def replayed (s : State) (port a pn : Nat) : Bool :=
  (cfgOf s).on Kind.subport port Fld.spReplay
    && decide (pn + (cfgOf s).valN Kind.subport port Fld.spWindow < (assocOf s a).pn.toNat)

/-- A receive association accepts a packet number: the next one it expects is above the highest accepted. -/
def takePn (port a pn : Nat) (s : State) : State :=
  if pn < (assocOf s a).pn.toNat then s
  else usePn port a (modAssoc a (fun x => { x with pn := BitVec.ofNat 64 pn }) s)

/-! ### Express cut-through (R173, R174) -/

/-- The head of the express queue may be handed on before it has arrived. -/
def cutReady (s : State) (ch present : Nat) : Option (Nat × Frame × Nat) :=
  match (chOf s ch).expressQ with
  | none => none
  | some q =>
    match headFrame (queueOf s q) with
    | none => none
    | some f =>
      match f.parsedLen with
      | none => none
      | some n =>
        if 256 ≤ present && decide (present < f.len) && (chooseFrame ch s).1 = 0 && !collides s ch f then some (q, f, n) else none

def execCutThroughStart (dt : Nat) (ch present : Nat) (s : State) : Host.Outcome State Fault Refusal :=
  let s := tick dt s
  .next <|
    if !sendsFrames s ch || (chOf s ch).cut.isSome || (contenders s ch).isEmpty then s
    else
      match cutReady s ch present with
      | none => s
      | some (q, f, n) =>
        let s := (chooseFrame ch s).2.2.2
        let s := debitStage ch 0 (n + 8) (debit Kind.queue q false (n + 8) (modQueue q dropHead s))
        settlePans (resetDeficits ch (modCh ch (fun x => { x with cut := some (f, n) }) s))

/-- A cut-through frame is completed at its parsed length; with a bad FCS it is counted, and CUT_THROUGH_ABORT is raised at
most once per second per channel. -/
def finishCut (ch : Nat) (bad icv : Bool) (s : State) : State :=
  match (chOf s ch).cut with
  | none => s
  | some (f, n) =>
    let q := (chOf s ch).expressQ.getD 0
    let s := handOn ch q f n bad (modCh ch (fun x => { x with cut := none }) s)
    let s := doIf bad (fun s => raiseLimited Ev.cutThroughAbort (dieOfChannel ch) ch (Time.sec 1) [.u16 ch]
      (bump 11 q Cn.cutAborts 1 s)) s
    match f.assoc with
    | some a => doIf icv (countIcv a) s
    | none => s

def execCutThroughFrameEnd (dt : Nat) (ch arrived : Nat) (icvOk : Bool) (s : State) : Host.Outcome State Fault Refusal :=
  let s := tick dt s
  .next <|
    match (chOf s ch).cut with
    | none => s
    | some (_, n) => finishCut ch (arrived != n || !icvOk) (!icvOk) s

/-! ### Uplink ports (R161, R178, R186, R279) -/

/-- A port is paused by an active FC_IN pin that targets it. -/
def portPaused (s : State) (port : Nat) : Bool :=
  (List.range 8).any fun i =>
    (s.q.fcIn.getD i {}).active && bitsOf ((cfgOf s).valN Kind.fcIn i Fld.fiTargets) port port == 1

def portUp (s : State) (port : Nat) : Bool := (subportOf s port).up

def portKbps (s : State) (port : Nat) : Nat := (cfgOf s).valN Kind.subport port Fld.spRate * 10 ^ 6

/-- A key agreement frame: EtherType 0x888E, which MACsec leaves as it is (Table 10.5, log entry 111). -/
def isMka (b : List Byte) : Bool := beNat ((b.drop 12).take 2) == 0x888E

/-- A port sends a frame: under MACsec it uses a packet number of its transmit association, and without a usable one the frame
is dropped and counted. -/
def transmit (port : Nat) (f : Frame) (s : State) : State :=
  let send : State → State := fun s =>
    bump 8 port Cn.txBytes f.len (bump 8 port Cn.txFrames 1 (emit (.uplinkFrame port f.bytes) s))
  if !macsecOn s port || isMka f.bytes then send s
  else
    match assocFor s port 0 with
    | none => bump 9 (192 + assocNum port 0 0) Cn.noSa 1 s
    | some a => send (usePn port a (bump 9 (192 + a) Cn.macsecSent 1 s))

/-- The die that a class draws on next: they alternate frame by frame (R161). -/
def classDie (s : State) (port cls : Nat) : Option DieId :=
  let has : DieId → Bool := fun d => !(s.q.ports.getD (classKey d port cls) []).isEmpty
  let last := s.q.lastDie.getD (8 * port + cls) true
  match has .east, has .west with
  | true, true => some (if last then .east else .west)
  | true, false => some .east
  | false, true => some .west
  | false, false => none

/-- The highest class of a port with a frame, and the die to draw on. -/
def portNext (s : State) (port : Nat) : Option (Nat × DieId) :=
  (List.range 8).reverse.findSome? fun c => (classDie s port c).map fun d => (c, d)

/-- A frame would still be in transmission at the port's first launch time. -/
def portCollides (s : State) (port : Nat) (f : Frame) : Bool :=
  match s.q.launches.getD (launchKey true port) [] with
  | [] => false
  | e :: _ => decide ((e.time : Int) < baseVal (baseOf s e.base) s.now
      + ((sendTime (portKbps s port) f.len) * 65536 / 1000 : Nat))

def execUplinkTransmit (dt : Nat) (port : Nat) (s : State) : Host.Outcome State Fault Refusal :=
  let s := tick dt s
  .next <|
    if !portUp s port || portPaused s port then s
    else
      match portNext s port with
      | none => s
      | some (c, d) =>
        match s.q.ports.getD (classKey d port c) [] with
        | [] => s
        | f :: rest =>
          if portCollides s port f then s
          else
            settlePans (transmit port f { s with q := { s.q with
              ports := s.q.ports.put [] (classKey d port c) rest
              lastDie := s.q.lastDie.set (8 * port + c) (d == .west) } })

/-! ### Timed launch (R178, R304) -/

/-- A timed frame's instant has come. -/
def launchDue (s : State) (isPort : Bool) (dest : Nat) (e : Launch) : Bool :=
  if isPort then decide ((e.time : Int) ≤ baseVal (baseOf s e.base) s.now)
  else
    match wordInstant s dest e.sf e.word with
    | none => true
    | some t => decide (t ≤ s.now)

/-- The destination can send the frame: its channel is ACTIVE and a key is there for it, or its port is up and not paused. -/
def launchOpen (s : State) (isPort : Bool) (dest : Nat) (e : Launch) : Bool :=
  if isPort then portUp s dest && !portPaused s dest
  else (chOf s dest).st == .active && (sendIndex s dest e.frame).isSome

/-- The actual launch: the first symbol at the ball of a port, the first bit at the module output of a channel. -/
def launchTime (s : State) (isPort : Bool) (dest : Nat) (e : Launch) : Nat :=
  (baseVal (baseOf s e.base) (s.now + if isPort then 0 else chValN s dest Fld.chModTx)).toNat

def launchNow (isPort : Bool) (dest : Nat) (e : Launch) (s : State) : State :=
  let s := launchRecord e isPort dest 0 (launchTime s isPort dest e) s
  if isPort then transmit dest e.frame s else handOn dest e.queue e.frame e.frame.len false s

def execTimedLaunch (dt : Nat) (isPort : Bool) (dest : Nat) (s : State) : Host.Outcome State Fault Refusal :=
  let s := tick dt s
  let k := launchKey isPort dest
  .next <|
    match s.q.launches.getD k [] with
    | [] => s
    | e :: rest =>
      if !launchDue s isPort dest e then s
      else
        let open_ := launchOpen s isPort dest e
        let s := { s with q := { s.q with launches := s.q.launches.put [] k rest } }
        settlePans (if open_ then launchNow isPort dest e s else launchDrop e isPort dest 4 s)

/-! ### Flow-control pins (R185, R186) -/

def setFcIn (pin : Nat) (x : FcIn) (s : State) : State := { s with q := { s.q with fcIn := s.q.fcIn.set pin x } }

def execFcInAssert (dt : Nat) (pin : Nat) (s : State) : Host.Outcome State Fault Refusal :=
  let s := tick dt s
  .next <|
    if (s.q.fcIn.getD pin {}).active then s
    else bump 0 0 (Cn.fcInAsserts pin) 1 (setFcIn pin ⟨true, s.now, false⟩ s)

def execFcInDeassert (dt : Nat) (pin : Nat) (s : State) : Host.Outcome State Fault Refusal :=
  let s := tick dt s
  .next (if (s.q.fcIn.getD pin {}).active then setFcIn pin {} s else s)

/-- A pin has stayed active for longer than its stuck limit: FC_IN_STUCK once; the pin goes on being obeyed. -/
def execFcInStuck (dt : Nat) (pin : Nat) (s : State) : Host.Outcome State Fault Refusal :=
  let s := tick dt s
  let x := s.q.fcIn.getD pin {}
  let limit := Time.ms ((cfgOf s).valN Kind.fcIn pin Fld.fiStuckMs)
  .next <|
    if x.active && !x.stuck && decide (x.since + limit < s.now) then
      raise Ev.fcInStuck .east [.u8 pin] (setFcIn pin { x with stuck := true } s)
    else s

def execFcOutHoldEnd (dt : Nat) (pin : Nat) (s : State) : Host.Outcome State Fault Refusal :=
  .next (fcPin pin (tick dt s))

/-! ### FLUSH and PORT_SEND (R161, R175, R302, R303) -/

/-- Drop the launch entries of a queue, with their records. -/
def flushLaunches (q : Nat) (s : State) : State :=
  let hit : List (Nat × Launch) := s.q.launches.flatMap fun p =>
    if p.1 < 512 then (p.2.filter (fun e => e.queue == q)).map (fun e => (p.1, e)) else []
  let keep : Nat → List Launch → List Launch := fun k l => if k < 512 then l.filter (fun e => e.queue != q) else l
  let s := { s with q := { s.q with launches := s.q.launches.mapVals keep } }
  forAll hit (fun p s => launchRecord p.2 false p.1 5 0 s) s

/-- The frames that a flush of a queue discards: both instances, and its launch entries. -/
def flushCount (s : State) (q : Nat) : Nat :=
  (queueOf s q).frames.length + (queueOf s q).oldFrames.length
    + (s.q.launches.flatMap fun p => if p.1 < 512 then p.2.filter (fun e => e.queue == q) else []).length

def flushQueue (q : Nat) (s : State) : State :=
  let n := flushCount s q
  settlePans (bump 11 q Cn.qFlushed n (flushLaunches q (modQueue q (fun x => { x with frames := [], oldFrames := [] }) s)))

def queueExists (s : State) (q : Nat) : Bool := (cfgOf s).has Kind.queue q || privileged s q

def execFlush (dt : Nat) (h : Hdr) (queue : Nat) (s : State) : Host.Outcome State Fault Refusal :=
  .next <| hostCmd dt Op.flush h (fun s =>
    if !queueExists s queue then fail St.handle s
    else .done { result := [flushCount s queue] } (toStandby (((queueChan? s queue).map quadrantOf).getD 0) (.hostEvent (.flush queue)) (flushQueue queue s))) s

/-- The lowest flow that names a queue. -/
def flowOfQueue (s : State) (q : Nat) : Option Nat :=
  (((cfgOf s).ofKind Kind.flow).find? fun o => (cfgOf s).val Kind.flow o.num Fld.flQueue == (q : Int)).map (·.num)

/-- The mode of a launch descriptor suits a port, or a queue of a channel with the offset inside its frame (Table 11.5). -/
def descOk (isPort : Bool) (ch : Nat) (d : BitVec 144) : Bool :=
  match lnMode d with
  | 0 => true
  | 1 => isPort
  | 2 => !isPort && decide (lnWord d < frameWords ch)
  | _ => !isPort

def execPortSend (dt : Nat) (h : Hdr) (dest : SendDest) (frame : List Byte) (launch : BitVec 144) (cls : Nat) (s : State) :
    Host.Outcome State Fault Refusal :=
  .next <| hostCmd dt Op.portSend h (fun s =>
    let f : Frame := { bytes := frame, stitch := bankStitch s, arrival := baseNs s 0, launch := some launch }
    let add : Transit → State := fun t => { s with q := { s.q with transit := s.q.transit ++ [t] } }
    match dest with
    | .port i =>
      if !(cfgOf s).has Kind.subport i then fail St.handle s
      else if 7 < cls || !descOk true 0 launch then fail St.parameter s
      else okay (add ⟨{ f with dir := .up, cls := cls }, .port i, dieOfPort i⟩)
    | .queue q =>
      if !queueExists s q then fail St.handle s
      else if !descOk false ((queueChan? s q).getD 0) launch then fail St.parameter s
      else
        let kind := match flowOfQueue s q with
          | some n => FrameKind.flow n
          | none => .other
        okay (add ⟨{ f with kind := kind }, .queue q, queueDie s q⟩)) s

end Sys2Proof.Machine
end

