-- ==== Sys2Proof/Machine/Parse.lean ====
section
/-! DEFINITION. Parsing a frame and building its search key (R189, R190, R192 to R195). -/

namespace Sys2Proof.Machine
open Sys2Proof

/-- A number of `n` bytes of a frame, most significant first; bytes beyond its end read as 0. -/
def rd (b : List Byte) (off n : Nat) : Nat := beNat (sliceBytes b off n)

/-- The headers of Table 7.1. -/
inductive HdrKind
  | eth
  | vlan
  | mpls
  | pppoe
  | ip4
  | ip6
  | ext (nh : Nat)
  | l4 (proto : Nat)
  deriving DecidableEq, Repr

/-- What a parse has found. -/
structure Parse where
  /-- The end of the last header stepped over, and how many those were. -/
  off : Nat := 0
  n : Nat := 0
  /-- Tag control information of the VLAN tags, outermost first. -/
  tags : List Nat := []
  /-- MPLS labels as label, TC and S in 24 bits, and the end of their stack. -/
  labels : List Nat := []
  stackEnd : Nat := 0
  etype : Nat := 0
  nExt : Nat := 0
  l3 : Nat := 0
  l4 : Nat := 0
  frag : Bool := false
  pppoe : Option Nat := none
  ip : Option Nat := none
  v6 : Bool := false
  /-- The IP length of R192. -/
  ipLen : Nat := 0
  l4At : Option Nat := none
  payAt : Option Nat := none
  proto : Nat := 0
  /-- The exception that ended the parse, and the header at which it stopped. -/
  exc : Option Nat := none
  stop : Nat := 0
  deriving DecidableEq, Repr

/-- The TPIDs of a die (Table 7.1). -/
def isTpid (c : Cfg) (die : DieId) (et : Nat) : Bool :=
  et == 0x8100 || et == 0x88A8 || et == 0x9100 || c.val Kind.die (dieNum die) Fld.dieTpid == (et : Int)

/-- The header that an EtherType names. -/
def ofEtype (c : Cfg) (die : DieId) (et : Nat) : Option HdrKind :=
  if isTpid c die et then some .vlan
  else
    match et with
    | 0x8847 => some .mpls
    | 0x8848 => some .mpls
    | 0x8864 => some .pppoe
    | 0x0800 => some .ip4
    | 0x86DD => some .ip6
    | _ => none

/-- The header that a protocol or next-header number names. -/
def ofProto (v6 : Bool) (p : Nat) : Option HdrKind :=
  if v6 && [0, 43, 44, 51, 60].contains p then some (.ext p)
  else if [6, 17, 1, 58, 2].contains p then some (.l4 p)
  else none

/-- The header after an MPLS stack, by the first nibble. -/
def ofNibble (b : List Byte) (off : Nat) : Option HdrKind :=
  match rd b off 1 / 16 with
  | 4 => some .ip4
  | 6 => some .ip6
  | _ => none

/-- The length of a header that begins at `off`. -/
def hdrLen (b : List Byte) (off : Nat) : HdrKind → Nat
  | .eth => 14
  | .vlan => 4
  | .mpls => 4
  | .pppoe => 8
  | .ip4 => max 20 (4 * (rd b off 1 % 16))
  | .ip6 => 40
  | .ext 44 => 8
  | .ext 51 => 4 * (rd b (off + 1) 1 + 2)
  | .ext _ => 8 * (rd b (off + 1) 1 + 1)
  | .l4 6 => max 20 (4 * (rd b (off + 12) 1 / 16))
  | .l4 58 => 4
  | .l4 _ => 8

/-- The code of L4 (Table 7.3). -/
def l4Code (proto : Nat) : Nat :=
  match proto with
  | 6 => 1
  | 17 => 2
  | 1 => 3
  | 58 => 3
  | 2 => 4
  | _ => 5

/-- The header would pass a limit of R190. -/
def tooDeep (p : Parse) (len : Nat) (k : HdrKind) : Bool :=
  p.n == 12 || decide (384 < p.off + len)
    || match k with
       | .vlan => p.tags.length == 4
       | .ext _ => p.nExt == 4
       | _ => false

/-- The sum of the 16-bit words of a header, folded: 0xFFFF when its checksum is right. -/
def onesSum (b : List Byte) (off len : Nat) : Nat :=
  let n := ((List.range (len / 2)).map fun i => rd b (off + 2 * i) 2).sum
  let n := n % 65536 + n / 65536
  n % 65536 + n / 65536

/-- The L3 code of a parse that no IP header was found for: 3 when a header outside the table follows, 0 when an EtherType field
is a length. -/
def otherL3 (et : Nat) : Nat := if et < 0x600 then 0 else 3

/-- The parse with the protocol of an IP header or extension header, and what follows it. -/
def afterIp (p : Parse) (proto : Nat) (frag : Bool) : Parse × Option HdrKind :=
  let next := ofProto p.v6 proto
  if frag then ({ p with proto := proto, frag := true }, none)
  else
    match next with
    | some k => ({ p with proto := proto }, some k)
    | none => ({ p with proto := proto, l4 := 5 }, none)

/-- Step over one header: the parse after it, and the header that follows. -/
def stepHdr (c : Cfg) (die : DieId) (b : List Byte) (p : Parse) (k : HdrKind) : Parse × Option HdrKind :=
  let at_ := p.off
  let len := hdrLen b at_ k
  let q := { p with off := at_ + len, n := p.n + 1 }
  if tooDeep p len k then ({ p with exc := some 1, stop := p.n + 1 }, none)
  else
    match k with
    | .eth =>
      let et := rd b (at_ + 12) 2
      ({ q with etype := et, l3 := otherL3 et }, ofEtype c die et)
    | .vlan =>
      let et := rd b (at_ + 2) 2
      ({ q with tags := q.tags ++ [rd b at_ 2], etype := et, l3 := otherL3 et }, ofEtype c die et)
    | .mpls =>
      let l := rd b at_ 3
      if l % 2 = 0 && p.labels.length == 2 then ({ p with exc := some 1, stop := p.n + 1 }, none)
      else
        ({ q with labels := q.labels ++ [l], stackEnd := q.off }, if l % 2 = 0 then some .mpls else ofNibble b q.off)
    | .pppoe =>
      let pr := rd b (at_ + 6) 2
      ({ q with pppoe := some (rd b (at_ + 2) 2) }, if pr = 0x21 then some .ip4 else if pr = 0x57 then some .ip6 else none)
    | .ip4 =>
      let ihl := rd b at_ 1 % 16
      let total := rd b (at_ + 2) 2
      if ihl < 5 || onesSum b at_ len != 0xFFFF || decide (total < 4 * ihl) then
        ({ p with exc := some 4, stop := p.n + 1, l3 := 1 }, none)
      else afterIp { q with l3 := 1, ip := some at_, ipLen := total } (rd b (at_ + 9) 1) (rd b (at_ + 6) 2 % 0x2000 != 0)
    | .ip6 => afterIp { q with l3 := 2, ip := some at_, v6 := true, ipLen := rd b (at_ + 4) 2 + 40 } (rd b (at_ + 6) 1) false
    | .ext nh =>
      afterIp { q with nExt := q.nExt + 1 } (rd b at_ 1) (nh == 44 && rd b (at_ + 2) 2 / 8 != 0)
    | .l4 proto => ({ q with l4 := l4Code proto, l4At := some at_, payAt := some q.off }, none)

/-- Follow the next-header fields, at most 13 headers. -/
def parseFrom (c : Cfg) (die : DieId) (b : List Byte) : Nat → Parse → Option HdrKind → Parse
  | 0, p, _ => p
  | _, p, none => p
  | n + 1, p, some k =>
    let r := stepHdr c die b p k
    parseFrom c die b n r.1 r.2

/-- Parse a frame from its Ethernet header, or, in a second pass, from the end of its outermost label stack (R212). -/
def parseFrame (c : Cfg) (die : DieId) (b : List Byte) (skip : Nat) : Parse :=
  let p := if skip = 0 then parseFrom c die b 14 {} (some .eth) else parseFrom c die b 14 { off := skip, l3 := 3 } (ofNibble b skip)
  if p.stop = 0 then { p with stop := p.n } else p

/-! ### Lengths (R192) -/

/-- The bytes from the start of the outermost IP header to the end of the frame, less the FCS. -/
def ipPresent (b : List Byte) (p : Parse) : Nat :=
  match p.ip with
  | none => 0
  | some i => b.length - 4 - i

/-- The length exception of a frame, if any. -/
def lenExc (b : List Byte) (p : Parse) : Option Nat :=
  if p.ip.isNone then none
  else if ipPresent b p < p.ipLen then some 2
  else if p.ipLen + 64 < ipPresent b p then some 3
  else none

def hasPad (b : List Byte) (p : Parse) : Bool := p.ip.isSome && (lenExc b p).isNone && decide (p.ipLen < ipPresent b p)

/-- The end of what parsing, windows and the L4 length see: before the FCS and the padding. -/
def visibleEnd (b : List Byte) (p : Parse) : Nat :=
  match p.ip with
  | some i => if hasPad b p then i + p.ipLen else b.length - 4
  | none => b.length - 4

/-- The parsed length of a frame for cut-through: none with a length exception (R173, R192). -/
def parsedLen (b : List Byte) (p : Parse) : Option Nat :=
  match p.ip with
  | none => none
  | some i => if (lenExc b p).isNone && p.exc.isNone then some (i + p.ipLen + 4) else none

/-! ### Keys (R193 to R195) -/

/-- Place fields of given widths one after another from a bit upward. -/
def packFields : Nat → List (Nat × Nat) → Nat
  | _, [] => 0
  | at_, (w, v) :: t => v % 2 ^ w * 2 ^ at_ + packFields (at_ + w) t

/-- A payload window with its short flag on top (R195). -/
def windowBits (b : List Byte) (p : Parse) (code : Nat) : Nat :=
  let n := code % 100
  let off := code % 100000 / 100
  let anchor := match code % 100000000 / 100000 with
    | 0 => p.ip
    | 1 => p.l4At
    | _ => p.payAt
  match anchor with
  | none => 2 ^ (8 * n)
  | some a =>
    let beyond : Nat → Bool := fun i => decide (visibleEnd b p ≤ i) || decide (511 < i)
    let bytes := (List.range n).map fun i => if beyond (a + off + i) then (0 : Byte) else b.getD (a + off + i) 0
    beNat bytes + 2 ^ (8 * n) * bit ((List.range n).any fun i => beyond (a + off + i))

/-- A field of Table 7.4. -/
def keyField (b : List Byte) (skip : Nat) (flow : Nat) (p : Parse) (code : Nat) : Nat :=
  let v := b.take (visibleEnd b p)
  let ip := p.ip.getD 0
  let l4 := p.l4At.getD 0
  let is4 := p.ip.isSome && !p.v6
  let is6 := p.ip.isSome && p.v6
  let ports := p.l4 == 1 || p.l4 == 2
  if 100000000 ≤ code then windowBits b p code
  else
    match code with
    | 1 => if skip = 0 then rd b 0 6 else 0
    | 2 => if skip = 0 then rd b 6 6 else 0
    | 3 => p.labels.getD 0 0
    | 4 => p.labels.getD 1 0
    | 5 => p.labels.getD 2 0
    | 6 => p.pppoe.getD 0
    | 7 => if is4 then rd v (ip + 12) 4 else 0
    | 8 => if is4 then rd v (ip + 16) 4 else 0
    | 9 => if is4 then rd v (ip + 1) 1 else if is6 then rd v ip 2 / 16 % 256 else 0
    | 10 => p.proto
    | 11 => if is6 then rd v (ip + 8) 16 else 0
    | 12 => if is6 then rd v (ip + 24) 16 else 0
    | 13 => if is6 then rd v ip 4 % 2 ^ 20 else 0
    | 14 => if ports then rd v l4 2 else 0
    | 15 => if ports then rd v (l4 + 2) 2 else 0
    | 16 => if p.l4 = 1 then rd v (l4 + 13) 1 else 0
    | 17 => if p.l4 = 3 then rd v l4 2 else 0
    | 18 => flow
    | _ => 0

/-- The base of a key (Table 7.3). -/
def keyBase (b : List Byte) (p : Parse) (tenant : Nat) (dir : Dir) (profile ingress : Nat) : List (Nat × Nat) :=
  [(6, tenant), (1, dirNum dir), (4, profile), (16, ingress), (16, p.tags.getD 0 0), (16, p.tags.getD 1 0), (16, p.etype),
   (3, p.tags.length), (2, p.labels.length), (3, p.nExt), (2, p.l3), (3, p.l4), (1, bit p.frag), (1, bit p.pppoe.isSome),
   (1, bit (hasPad b p))]

/-- The search key of a frame under a key profile of its die. -/
def searchKey (c : Cfg) (die : DieId) (b : List Byte) (skip : Nat) (p : Parse) (tenant : Nat) (dir : Dir)
    (profile ingress flow : Nat) : Nat :=
  packFields 0 (keyBase b p tenant dir profile ingress
    ++ (profileCodes c (16 * dieNum die + profile)).map fun code => (keyFieldWidth code, keyField b skip flow p code))

end Sys2Proof.Machine
end

