-- ==== Sys2Proof/Machine/Pipeline.lean ====
section
/-! DEFINITION. The packet pipelines: tenant, exceptions, service traps, classifier rows and their banks, policing, punting, the forwarding lookups and recirculation (R188 to R233). -/

namespace Sys2Proof.Machine
open Sys2Proof

/-! ### The pass of a frame -/

/-- What a pass knows of its frame. -/
structure Pass where
  die : DieId
  dir : Dir
  /-- The configuration and the stitch number of the frame's bank (R211). -/
  cfg : Cfg
  stitch : StitchNo
  frame : Frame
  /-- The key profile and parse offset of a second pass. -/
  second : Option (Nat × Nat) := none
  parity : ParityErr := .none
  pipe : Nat := 0

def Pass.bytes (p : Pass) : List Byte := p.frame.bytes
def Pass.tenant (p : Pass) : Nat := p.frame.tenant

/-- The parse of the whole frame: its tags and addresses. -/
def Pass.outer (p : Pass) : Parse := parseFrame p.cfg p.die p.bytes 0
/-- The parse of this pass. -/
def Pass.parse (p : Pass) : Parse := parseFrame p.cfg p.die p.bytes ((p.second.map (·.2)).getD 0)

def Pass.flow (p : Pass) : Nat :=
  match p.dir with
  | .up => p.frame.ingress
  | .down => 0

/-- INGRESS of a key: the port index downstream, the terminal handle upstream (Table 7.3). -/
def Pass.ingress (p : Pass) : Nat :=
  match p.dir with
  | .up => p.cfg.valN Kind.flow p.frame.ingress Fld.flTerm
  | .down => p.frame.ingress

/-- The outer tag, and its VID and PCP; 0 when untagged. -/
def Pass.tci (p : Pass) : Nat := p.outer.tags.getD 0 0
def Pass.vid (p : Pass) : Nat := p.tci % 4096
def Pass.pcp (p : Pass) : Nat := p.tci / 2 ^ 13

/-- The key profile: the second pass's, or the tenant's selector for the frame's L3 (R194). -/
def Pass.profile (p : Pass) : Nat :=
  match p.second with
  | some x => x.1
  | none => p.cfg.valN Kind.tenant p.tenant (Fld.tnSelector (dirNum p.dir) p.parse.l3)

def Pass.wide (p : Pass) : Bool := p.cfg.on Kind.keyProfile (16 * dieNum p.die + p.profile) Fld.kpWide

def Pass.key (p : Pass) : Nat :=
  searchKey p.cfg p.die p.bytes ((p.second.map (·.2)).getD 0) p.parse p.tenant p.dir p.profile p.ingress p.flow

/-- The pass belongs to the bank that the pipelines use now. -/
def Pass.newBank (s : State) (p : Pass) : Bool := p.stitch == bankStitch s

/-! ### Classifier rows (R196, R197) -/

/-- The key of a row's running state; the incoming version of a changed row has a key of its own (R202). -/
def rowKey (num : Nat) (incoming : Bool) : Nat := num + 2 ^ 20 * bit incoming

/-- The key of a row's version in a bank. -/
def rowVersion (s : State) (num : Nat) (newBank : Bool) : Nat :=
  if newBank && (s.tab.rows.find? (rowKey num true)).isSome then rowKey num true else rowKey num false

def modRow (k : Nat) (f : RowSt → RowSt) (s : State) : State :=
  match s.tab.rows.find? k with
  | none => s
  | some x => { s with tab := { s.tab with rows := s.tab.rows.set k (f x) } }

/-- A row is wide when its profile is. -/
def rowWide (c : Cfg) (num : Nat) : Bool :=
  c.on Kind.keyProfile (16 * c.valN Kind.row num Fld.rwDie + c.valN Kind.row num Fld.rwProfile) Fld.kpWide

/-- A row's value and mask match a key: TENANT, DIR and PROFILE always count, and TENANT is the owner's (R196). -/
def rowMatches (c : Cfg) (num key : Nat) (wide : Bool) : Bool :=
  let v := c.valN Kind.row num
  let w := if wide then 640 else 320
  rowWide c num == wide && bitsOf key 5 0 == v Fld.rwTenant && bitsOf key 6 6 == v Fld.rwDir
    && bitsOf key 10 7 == v Fld.rwProfile
    && Nat.land (Nat.xor key (v Fld.rwValue)) (v Fld.rwMask) % 2 ^ w / 2 ^ 11 * 2 ^ 11 == 0

/-- A matching row: its number, the key of its version, its physical row and priority. -/
structure Hit where
  num : Nat
  key : Nat
  phys : Nat
  priority : Nat
  deriving DecidableEq, Repr

/-- One row before another: priority falling, then physical row rising. -/
def hitBefore (a b : Hit) : Bool := decide (b.priority < a.priority) || (a.priority == b.priority && decide (a.phys ≤ b.phys))

def insertHit (x : Hit) : List Hit → List Hit
  | [] => [x]
  | y :: t => if hitBefore x y then x :: y :: t else y :: insertHit x t

/-- The rows of a bank that match a key, in winning order. A row with a parity error does not match (R204). -/
def searchRows (s : State) (c : Cfg) (die : DieId) (newBank : Bool) (key : Nat) (wide : Bool) : List Hit :=
  let l := (c.ofKind Kind.row).filterMap fun o =>
    if c.valN Kind.row o.num Fld.rwDie == dieNum die && rowMatches c o.num key wide then
      (s.tab.rows.find? (rowVersion s o.num newBank)).bind fun x =>
        if x.bad then none else some ⟨o.num, rowVersion s o.num newBank, x.phys, c.valN Kind.row o.num Fld.rwPriority⟩
    else none
  l.foldl (fun a x => insertHit x a) []

/-- Several matching rows share the highest priority. -/
def multiHit : List Hit → Bool
  | a :: b :: _ => a.priority == b.priority
  | _ => false

/-! ### Exceptions (R191, R223) -/

def objTenant (die : DieId) (tenant : Nat) : Nat := 64 * dieNum die + tenant

/-- Count an exception for its code, tenant and direction. -/
def countExc (p : Pass) (code : Nat) (s : State) : State :=
  bump 1 (objTenant p.die p.tenant)
    (match p.dir with
     | .down => Cn.exception code
     | .up => Cn.exceptionUp code) 1 s

/-- The tenant's action for a code: 0 drop, 1 punt, 2 continue. -/
def excAction (p : Pass) (code : Nat) : Nat := p.cfg.valN Kind.tenant p.tenant (Fld.tnPolicy (dirNum p.dir) code)

/-! ### Punting (R18, R208 to R210, R235) -/

def svcQueue (s : State) : DieId → List SvcFrame
  | .east => s.svc.inE
  | .west => s.svc.inW

/-- A frame enters the Atelier's input queue, or is dropped and counted (R235). -/
def toAtelier (die : DieId) (cls : Nat) (f : Frame) (s : State) : State :=
  if Config.serviceQueueMax ≤ (svcQueue s die).length then
    raiseLimited Ev.serviceQueueFull die (dieNum die) (Time.sec 1) [.u8 (dieNum die)]
      (bump 2 (objTenant die cls) Cn.svcFull 1 s)
  else
    match die with
    | .east => { s with svc := { s.svc with inE := s.svc.inE ++ [⟨cls, f⟩] } }
    | .west => { s with svc := { s.svc with inW := s.svc.inW ++ [⟨cls, f⟩] } }

/-- A punt class's bucket at the present time, in packets × 10¹². -/
def puntLevel (s : State) (c : Cfg) (die : DieId) (cls : Nat) : Nat :=
  let k := objTenant die cls
  let b := s.tab.punt.getD k ⟨0, 0⟩
  min (c.valN Kind.puntClass k Fld.pcBurst * 10 ^ 12) (b.level + (s.now - b.at_) * c.valN Kind.puntClass k Fld.pcRate)

/-- The free buffers of a port's punt pool. -/
def freeBuffers (s : State) (p : PortId) : List Nat :=
  match (puntOf s p).pool with
  | none => []
  | some (_, n) => (List.range n).filter fun i => !(puntOf s p).out.contains i

/-- Deliver a punted frame to a host port: a buffer, a descriptor item and the header with the frame. -/
def puntTo (port : PortId) (die : DieId) (cls : Nat) (hdr : List Byte) (f : Frame) (s : State) : State :=
  let k := objTenant die cls
  if !hasSession s port then bump 2 k Cn.puntNoSession 1 s
  else
    match pick (freeBuffers s port) s with
    | none => bump 2 k Cn.puntNoBuffer 1 s
    | some i =>
      let item := puntItem i (32 + f.len)
      let s := modPunt port (fun x => { x with fifo := x.fifo ++ [item], out := i :: x.out }) (drawn s)
      fireDelivery port .punt (emit (.punt port item (hdr ++ f.bytes)) (bump 2 k Cn.puntSent 1 s))

/-- Punt a frame to a class: through its token bucket to its destination. -/
def punt (p : Pass) (cls code : Nat) (hit : Option Hit) (multi : Bool) (s : State) : State :=
  let k := objTenant p.die cls
  let level := puntLevel s p.cfg p.die cls
  let set : Nat → State → State := fun v s => { s with tab := { s.tab with punt := s.tab.punt.set k ⟨v, s.now⟩ } }
  if level < 10 ^ 12 || p.cfg.valN Kind.puntClass k Fld.pcRate = 0 then
    raiseLimited Ev.puntDrop p.die k (Time.sec 1) [.u8 (dieNum p.die), .u8 cls] (bump 2 k Cn.puntPoliced 1 (set level s))
  else
    let s := set (level - 10 ^ 12) s
    match p.cfg.valN Kind.puntClass k Fld.pcDest with
    | 2 => toAtelier p.die cls p.frame s
    | d =>
      let up := p.dir == .up
      let hdr := puntHeader code cls p.second.isSome multi p.tenant p.dir p.profile p.parse.stop p.stitch p.ingress
        (if up then some p.flow else none) (hit.map (·.phys)) p.frame.arrival
        (if up then (termOf s p.ingress).ch else none) p.frame.len
      puntTo (if d = 0 then .a else .b) p.die cls hdr p.frame s

/-- An exception ends the handling of its frame: it is dropped or punted. -/
def except (p : Pass) (code : Nat) (hit : Option Hit) (multi : Bool) (s : State) : State :=
  doIf (excAction p code == 1) (punt p code code hit multi) (countExc p code s)

/-! ### Service traps (R208, Table 7.6) -/

/-- The service whose recogniser takes a frame: 0 DHCPv4, 1 DHCPv6, 2 PPPoE, 3 IGMP, 4 MLD, 5 CFM, 6 PTP, 7 loop detection. -/
def trapOf (c : Cfg) (b : List Byte) (p : Parse) : Option Nat :=
  let l4 := p.l4At.getD 0
  let udp : List Nat → Bool := fun l => p.l4 == 2 && (l.contains (rd b l4 2) || l.contains (rd b (l4 + 2) 2))
  if !p.v6 && udp [67, 68] then some 0
  else if p.v6 && udp [546, 547] then some 1
  else if p.etype = 0x8863 then some 2
  else if p.l4 = 4 then some 3
  else if p.v6 && p.proto == 58 && p.l4At.isSome && [130, 131, 132, 143].contains (rd b l4 1) then some 4
  else if p.etype = 0x8902 then some 5
  else if p.etype = 0x88F7 || udp [319, 320] then some 6
  else if p.etype = c.valN Kind.device 0 Fld.devLoopEtherType then some 7
  else none

/-- The punt class of a trap that is enabled for the frame's tenant and direction. -/
def Pass.trap (p : Pass) : Option Nat :=
  (trapOf p.cfg p.bytes p.parse).bind fun v =>
    if p.cfg.on Kind.tenant p.tenant (Fld.tnService v (dirNum p.dir)) then some (16 + v) else none

/-! ### Rewriting a frame -/

/-- The bytes of a frame with its FCS computed afresh. -/
def refcs (b : List Byte) : List Byte :=
  let body := b.take (b.length - 4)
  body ++ leBytes 4 (crc32 body).toNat

/-- Write bytes into a frame at an offset. -/
def spliceBytes (b : List Byte) (off : Nat) (v : List Byte) : List Byte := b.take off ++ v ++ b.drop (off + v.length)

/-- Set DEI in the outer tag. -/
def setDei (b : List Byte) (tci : Nat) : List Byte :=
  refcs (spliceBytes b 14 (beBytes 2 (if tci / 2 ^ 12 % 2 = 1 then tci else tci + 2 ^ 12)))

/-- The checksum of an IPv4 header written with its field at 0. -/
def ipSum (b : List Byte) (off len : Nat) : Nat := 0xFFFF - onesSum (spliceBytes b (off + 10) (beBytes 2 0)) off len

/-- TTL or hop limit less 1, with the IPv4 header checksum. -/
def lessTtl (b : List Byte) (p : Parse) : List Byte :=
  let ip := p.ip.getD 0
  if p.v6 then spliceBytes b (ip + 7) (beBytes 1 (rd b (ip + 7) 1 - 1))
  else
    let b := spliceBytes b (ip + 8) (beBytes 1 (rd b (ip + 8) 1 - 1))
    spliceBytes b (ip + 10) (beBytes 2 (ipSum b ip (4 * (rd b ip 1 % 16))))

/-! ### Policing (R179 to R183) -/

/-- The tenant's colour of a frame's PCP and DEI; untagged frames are green (R180). -/
def Pass.tableColour (p : Pass) : Nat :=
  if p.outer.tags.isEmpty then 0 else p.cfg.valN Kind.tenant p.tenant (Fld.tnColour (p.tci / 2 ^ 12))

/-- One frame at a policer: the colour and the buckets after it (R181). -/
def police (s : State) (c : Cfg) (pol bytes colour : Nat) : Nat × PolicerSt :=
  let x := policerOf s pol
  let b := levelOf bytes
  let col := if c.on Kind.policer pol Fld.poAware then colour else 0
  if c.valN Kind.policer pol Fld.poMode = 0 then
    if col = 2 || decide (x.tp < b) then (2, x)
    else if col = 1 || decide (x.tc < b) then (1, { x with tp := x.tp - b })
    else (0, { tp := x.tp - b, tc := x.tc - b })
  else
    if col = 0 && decide (b ≤ x.tc) then (0, { x with tc := x.tc - b })
    else if col != 2 && decide (b ≤ x.tp) then (1, { x with tp := x.tp - b })
    else (2, x)

/-- The action on a colour: 0 pass, 1 pass and set DEI, 2 drop. -/
def policeAction (c : Cfg) (pol colour : Nat) : Nat :=
  match colour with
  | 0 => 0
  | 1 => c.valN Kind.policer pol Fld.poYellow
  | _ => if c.valN Kind.policer pol Fld.poRed = 0 then 2 else 1

/-- The frame passes its policer, counted by its colour; none when it is dropped. -/
def applyPolicer (pol : Nat) (p : Pass) (s : State) : Option Pass × State :=
  let r := police s p.cfg pol p.frame.len p.frame.colour
  let s := bumpPair 1 pol (2 * r.1) p.frame.len (modPolicer pol (fun _ => r.2) s)
  let f := { p.frame with colour := r.1 }
  match policeAction p.cfg pol r.1 with
  | 2 => (none, bumpStat 1 pol 6 1 s)
  | 1 => (some { p with frame := if p.outer.tags.isEmpty then f else { f with bytes := setDei f.bytes p.tci } }, s)
  | _ => (some { p with frame := f }, s)

/-! ### Delivery -/

/-- A destination of a forwarded frame as an entry names it. -/
structure Target where
  dtype : Nat
  dvalue : Nat
  deriving DecidableEq, Repr

/-- The queue that a flow names. -/
def flowQueue (c : Cfg) (f : Nat) : Option Nat :=
  let q := c.val Kind.flow f Fld.flQueue
  if c.has Kind.flow f && decide (0 ≤ q) then some q.toNat else none

/-- A flow's terminal is OPERATIONAL on a channel that is ACTIVE, and the flow names a queue (R223). -/
def flowUp (s : State) (c : Cfg) (f : Nat) : Bool :=
  let x := termOf s (c.valN Kind.flow f Fld.flTerm)
  (flowQueue c f).isSome && x.st == .operational && (x.ch.map fun ch => (chOf s ch).st == .active).getD false

/-- The destination is up. -/
def targetUp (s : State) (c : Cfg) (t : Target) : Bool :=
  match t.dtype with
  | 0 => flowUp s c t.dvalue
  | 1 => portUp s t.dvalue
  | _ => true

/-- Two frames belong to one flow on their way through a pipeline. -/
def sameFlow (a b : Frame) : Bool :=
  a.dir == b.dir && a.ingress == b.ingress && (a.dir == .up || a.bytes.take 6 == b.bytes.take 6)

def pipeKey (die : DieId) (dir : Dir) (pipe : Nat) : Nat := 8 * dieNum die + 4 * dirNum dir + pipe

/-- A frame leaves its pipeline, or waits at its exit for an earlier frame of its flow (R214). -/
def leavePipe (p : Pass) (t : Transit) (s : State) : State :=
  let k := pipeKey p.die p.dir p.pipe
  let waits := p.second.isNone
    && ((s.tab.recirc.getD k []).any (fun r => sameFlow r.frame p.frame) || (s.tab.exits.getD k []).any fun x => sameFlow x.frame p.frame)
  if waits then { s with tab := { s.tab with exits := s.tab.exits.set k (s.tab.exits.getD k [] ++ [t]) } }
  else { s with q := { s.q with transit := s.q.transit ++ [t] } }

/-- Send a frame to a flow's queue. -/
def toFlow (p : Pass) (f : Nat) (s : State) : State :=
  match flowQueue p.cfg f with
  | none => s
  | some q => leavePipe p ⟨{ p.frame with kind := .flow f }, .queue q, dieOfTree (p.cfg.valN Kind.terminal
      (p.cfg.valN Kind.flow f Fld.flTerm) Fld.trmTree)⟩ s

/-- Send a frame to a port: it waits in the near pan of the pipeline's die (R161). -/
def toPort (p : Pass) (i : Nat) (s : State) : State := leavePipe p ⟨p.frame, .port i, p.die⟩ s

/-- Send a frame once to a tenant's terminals on a channel (R245). -/
def toChannel (p : Pass) (ch : Nat) (s : State) : State :=
  match (chOf s ch).mgmtQ with
  | none => s
  | some q => leavePipe p ⟨{ p.frame with kind := .mcast }, .queue q, dieOfChannel ch⟩ s

/-- The channel legs that snooping has given a group. -/
def snoopedLegs (s : State) (g : Nat) (die : DieId) : List (Nat × Nat) :=
  (s.svc.groups.filter fun x => x.num == g && x.die == die).flatMap fun x => x.legs.map fun ch => (0, ch)

/-- The legs of a replication group: kind 0 channel, 1 flow, 2 port, and value (R245). -/
def legsOf (s : State) (c : Cfg) (g : Nat) (die : DieId) : List (Nat × Nat) :=
  (((c.ofKind Kind.leg).filter fun o => c.valN Kind.leg o.num Fld.lgGroup == g).map fun o =>
    (c.valN Kind.leg o.num Fld.lgKind, c.valN Kind.leg o.num Fld.lgValue)) ++ snoopedLegs s g die

/-- A leg is the frame's own source. -/
def ownLeg (p : Pass) (l : Nat × Nat) : Bool :=
  match p.dir with
  | .up => l == (1, p.frame.ingress)
  | .down => l == (2, p.frame.ingress)

/-- A leg can take the frame. -/
def legUp (s : State) (c : Cfg) (l : Nat × Nat) : Bool :=
  match l.1 with
  | 0 => (chOf s l.2).st == .active
  | 1 => flowUp s c l.2
  | _ => portUp s l.2

def toLeg (p : Pass) (l : Nat × Nat) (s : State) : State :=
  match l.1 with
  | 0 => toChannel p l.2 s
  | 1 => toFlow p l.2 s
  | _ => toPort p l.2 s

/-- Send a frame to the legs of a group; a flood never goes to the frame's own source (R222). -/
def toGroup (p : Pass) (g : Nat) (flood : Bool) (s : State) : State :=
  forAll ((legsOf s p.cfg g p.die).filter fun l => legUp s p.cfg l && !(flood && ownLeg p l)) (toLeg p) s

/-! ### Lookups (R218 to R227) -/

/-- The flow/MAC entry that a frame's bank sees for a key. -/
def fmtLookup (s : State) (p : Pass) (mac : Nat) : Option FmtEntry :=
  (fmtOf s p.die).find? fun e =>
    sameKey e p.tenant p.vid mac && !e.bad && !(if p.newBank s then e.closing else e.opening)

/-- A prefix matches an address in its leading bits. -/
def prefixMatches (addr plen bits a : Nat) : Bool := addr / 2 ^ (bits - plen) == a / 2 ^ (bits - plen)

/-- The longest prefix of the frame's tenant that matches its destination address (R227): its next hop. -/
def longestPrefix (p : Pass) : Option Nat :=
  let q := p.outer
  let ip := q.ip.getD 0
  let bits := if q.v6 then 128 else 32
  let a := if q.v6 then rd p.bytes (ip + 24) 16 else rd p.bytes (ip + 16) 4
  let v := fun (o : Obj) f => p.cfg.valN Kind.prefix_ o.num f
  let l := (p.cfg.ofKind Kind.prefix_).filter fun o =>
    v o Fld.pxDie == dieNum p.die && v o Fld.pxTenant == p.tenant && v o Fld.pxV6 == bit q.v6
      && prefixMatches (v o Fld.pxAddr) (v o Fld.pxLen) bits a
  (l.foldl (fun (b : Option Obj) o => match b with
    | none => some o
    | some x => if v x Fld.pxLen < v o Fld.pxLen then some o else b) none).map fun o => v o Fld.pxHop

/-- The frame rewritten for a next hop: DA, SA, VID of the outer tag, TTL or hop limit less 1. -/
def routed (p : Pass) (hop sa : Nat) : Pass :=
  let v := p.cfg.valN Kind.nextHop hop
  let b := lessTtl p.bytes p.outer
  let b := spliceBytes b 0 (beBytes 6 (v Fld.nhMac) ++ beBytes 6 sa)
  let b := if p.outer.tags.isEmpty then b else spliceBytes b 14 (beBytes 2 (p.tci / 4096 * 4096 + v Fld.nhVid))
  { p with frame := { p.frame with bytes := refcs b } }

/-- A lookup met a structure with a parity error: TABLE_PARITY (R233). -/
def tableParity (die : DieId) (bank index : Nat) (s : State) : State :=
  raise Ev.tableParity die [.u8 (dieNum die), .u8 bank, .u16 index] (bump 3 (objTenant die 0) Cn.tableParity 1 s)

/-- A flow/MAC entry with a parity error: a dynamic one is gone, a static one is rewritten within 100 µs (R22, R233). -/
def loseEntry (die : DieId) (bank index : Nat) (s : State) : State :=
  match (fmtOf s die).find? fun e => e.bank == bank && e.index == index && !e.bad with
  | none => s
  | some e =>
    tableParity die bank index
      (modFmt die (fun l => if e.isStatic then l.map (fun x => if x = e then { e with bad := true } else x) else l.erase e) s)

/-- Deliver a frame to its destination, or take DEST_DOWN. -/
def deliver (p : Pass) (t : Target) (hit : Option Hit) (multi : Bool) (s : State) : State :=
  if !targetUp s p.cfg t then except p 0x0C hit multi s
  else
    match t.dtype with
    | 0 => toFlow p t.dvalue s
    | 1 => toPort p t.dvalue s
    | _ => toGroup p t.dvalue false s

/-- A frame that hits a ROUTE entry. -/
def route (p : Pass) (e : FmtEntry) (hit : Option Hit) (multi : Bool) (s : State) : State :=
  let q := p.outer
  let ip := q.ip.getD 0
  let ttl := rd p.bytes (ip + if q.v6 then 7 else 8) 1
  if q.ip.isNone then except p 0x09 hit multi s
  else if ttl ≤ 1 then except p 0x0A hit multi s
  else if p.parity = .prefix_ then except p 0x09 hit multi (tableParity p.die 0 0 s)
  else
    match longestPrefix p with
    | none => except p 0x09 hit multi s
    | some h =>
      let hop := 16384 * dieNum p.die + h
      if p.parity = .nextHop then except p 0x0C hit multi (tableParity p.die 0 h s)
      else
        deliver (routed p hop e.mac) ⟨p.cfg.valN Kind.nextHop hop Fld.nhDtype, p.cfg.valN Kind.nextHop hop Fld.nhDvalue⟩ hit multi s

/-- The destination lookup of a frame (R222). -/
def lookupDest (p : Pass) (vl : Nat) (hit : Option Hit) (multi : Bool) (s : State) : State :=
  let obj := objTenant p.die p.tenant
  match fmtLookup s p (rd p.bytes 0 6) with
  | none =>
    let g := p.cfg.val Kind.vlan vl Fld.vlGroup
    if p.cfg.on Kind.vlan vl Fld.vlFlood && decide (0 ≤ g) then toGroup p g.toNat true s
    else bump 1 obj Cn.unknownDest 1 s
  | some e =>
    if e.dtype = 0 && p.dir == .up && !p.cfg.on Kind.vlan vl Fld.vlLocal then bump 1 obj Cn.localSwitchDrops 1 s
    else if e.dtype = 4 then bump 1 obj Cn.discardDrops 1 s
    else if e.dtype = 3 then route p e hit multi s
    else deliver p ⟨e.dtype, e.dvalue⟩ hit multi s

/-- Forward a frame by the tables (R222, R225). -/
def forward (p : Pass) (hit : Option Hit) (multi : Bool) (s : State) : State :=
  let vl := 2 ^ 18 * dieNum p.die + 4096 * p.tenant + p.vid
  let s := match p.parity with
    | .fmt bank index => loseEntry p.die bank index s
    | _ => s
  if !p.cfg.has Kind.vlan vl then except p 0x08 hit multi s
  else
    let sa := rd p.bytes 6 6
    let check := p.cfg.on Kind.vlan vl Fld.vlLearn && rd p.bytes 6 1 % 2 == 0
    let r := if check then sourceCheck p.die p.tenant p.dir p.vid sa p.frame.ingress (fmtLookup s p sa) s else (SourceRes.fine, s)
    match r.1 with
    | .fine => lookupDest p vl hit multi r.2
    | .staticMove =>
      if excAction p 0x0B = 2 then lookupDest p vl hit multi (countExc p 0x0B r.2) else except p 0x0B hit multi r.2

/-! ### A pass after the search (R206) -/

/-- The winning row's hit counter, and the counter set of its action (R207). -/
def countHit (p : Pass) (h : Hit) (s : State) : State :=
  let s := bump 1 (objTenant p.die p.tenant) Cn.rowHits 1 (modRow h.key (fun x => { x with hits := x.hits + 1 }) s)
  let n := p.cfg.val Kind.row h.num Fld.rwCounter
  if n < 0 then s else bumpPair 2 (2 ^ 18 * dieNum p.die + n.toNat) 0 p.frame.len s

/-- Colour and class of an action, and of no action (Table 7.5). -/
def coloured (p : Pass) (h : Option Hit) (pol : Option Nat) : Pass :=
  let keep : Nat := match p.dir with
    | .down => 0
    | .up => if (pol.map fun n => p.cfg.on Kind.policer n Fld.poAware).getD false then p.tableColour else 0
  let colour := match h.map fun h => p.cfg.valN Kind.row h.num Fld.rwColour with
    | some 1 => 0
    | some 2 => 1
    | some 3 => 2
    | some 4 => p.tableColour
    | _ => keep
  let cls := match h.map fun h => p.cfg.val Kind.row h.num Fld.rwClass with
    | some v => if v < 0 then p.pcp else v.toNat
    | none => p.pcp
  { p with frame := { p.frame with colour := colour, cls := cls } }

/-- The policer of a frame: the row's, otherwise the flow's own. -/
def policerFor (p : Pass) (h : Option Hit) : Option Nat :=
  let own := match p.dir with
    | .down => (-1 : Int)
    | .up => p.cfg.val Kind.flow p.frame.ingress Fld.flPolicer
  let v := match h.map fun h => p.cfg.val Kind.row h.num Fld.rwPolicer with
    | some x => if x < 0 then own else x
    | none => own
  if v < 0 then none else some v.toNat

/-- The disposition: a trap goes to the Atelier whatever the row says. -/
def dispose (p : Pass) (h : Option Hit) (multi : Bool) (s : State) : State :=
  let cls := (h.map fun h => p.cfg.valN Kind.row h.num Fld.rwPunt).getD 32
  match p.trap with
  | some n => punt p n 0 h multi s
  | none =>
    match (h.map fun h => p.cfg.valN Kind.row h.num Fld.rwDisposition).getD 0 with
    | 1 => bump 1 (objTenant p.die p.tenant) Cn.policyDrops 1 s
    | 2 => punt p cls 0 h multi s
    | 3 => forward p h multi (punt p cls 0 h multi s)
    | _ => forward p h multi s

/-- Steps 7 to 10: colour and class, policer, counters, disposition. -/
def finishPass (p : Pass) (h : Option Hit) (multi : Bool) (s : State) : State :=
  let pol := policerFor p h
  let p := coloured p h pol
  let r := match pol with
    | some n => applyPolicer n p s
    | none => (some p, s)
  let s := match h with
    | some x => countHit p x r.2
    | none => r.2
  match r.1 with
  | none => s
  | some p => dispose p h multi s

/-- A frame waits for its second pass, unless 256 do (R212). -/
def toSecond (p : Pass) (profile : Nat) (s : State) : State :=
  let k := pipeKey p.die p.dir p.pipe
  let l := s.tab.recirc.getD k []
  if Config.recircMax ≤ l.length then bump 1 (objTenant p.die p.tenant) Cn.recircDrops 1 s
  else
    let f := { p.frame with stitch := p.stitch }
    { s with tab := { s.tab with recirc := s.tab.recirc.set k (l ++ [⟨f, profile, p.parse.stackEnd⟩]) } }

/-- A row with a parity error stops matching until it is rewritten by relocation (R204). -/
def loseRow (p : Pass) (entry : Nat) (s : State) : State :=
  let num := 65536 * dieNum p.die + entry
  let k := rowVersion s num (p.newBank s)
  match s.tab.rows.find? k with
  | none => s
  | some x =>
    if x.bad then s
    else
      let s := raise Ev.classifierParity p.die [.u8 (dieNum p.die), .u16 x.phys, .u16 entry] (modRow k (fun x => { x with bad := true }) s)
      let s := bump 1 (objTenant p.die p.tenant) Cn.bankParity 1 s
      match placeOf? s Kind.row num with
      | none => s
      | some pl => startMove pl pl.loc true s

/-- Steps 4 to 6: the search, NO_MATCH, recirculation. A frame that a trap has recognised before the search goes on to the Atelier
where no row matches (R206, R208). -/
def searchPass (p : Pass) (s : State) : State :=
  let s := match p.parity with
    | .row e => loseRow p e s
    | _ => s
  let l := searchRows s p.cfg p.die (p.newBank s) p.key p.wide
  let multi := multiHit l
  match l with
  | [] =>
    if excAction p 0x06 = 2 || p.trap.isSome then finishPass p none false (countExc p 0x06 s) else except p 0x06 none false s
  | h :: _ =>
    let s := doIf multi (fun s => bump 1 (objTenant p.die p.tenant) Cn.multiMatch 1
      (modRow h.key (fun x => { x with multi := true }) s)) s
    let again := p.cfg.val Kind.row h.num Fld.rwRecirc
    if again < 0 then finishPass p (some h) multi s
    else if p.second.isSome then except p 0x07 (some h) multi (countHit p h s)
    else toSecond p again.toNat (countHit p h s)

/-- Step 2: parsing, lengths and the exception policy. -/
def parsePass (p : Pass) (s : State) : State :=
  let q := p.parse
  match q.exc with
  | some code => except p code none false s
  | none =>
    let p := { p with frame := { p.frame with parsedLen := if p.second.isSome then p.frame.parsedLen else parsedLen p.bytes q } }
    match lenExc p.bytes q with
    | some 3 => if excAction p 3 = 2 then searchPass p (countExc p 3 s) else except p 3 none false s
    | some code => except p code none false s
    | none => searchPass p s

/-! ### PIPELINE_PASS -/

/-- The tenant of a downstream frame: its port's map entry for the VID of the outer tag, or for untagged and priority-tagged
frames (R188). -/
def portTenant (c : Cfg) (die : DieId) (port : Nat) (b : List Byte) : Option Nat :=
  let q := parseFrame c die b 0
  let vid := q.tags.getD 0 0 % 4096
  let v := c.val Kind.tenantMap port (if q.tags.isEmpty || vid = 0 then Fld.tmUntagged else vid)
  if v < 0 then none else some v.toNat

/-- The upstream pipeline of a flow (R17). -/
def upPipe (flow : Nat) : Nat := Config.flowHash flow % 4

/-- A flow is blocked by loop detection, and the frame is no probe (R250). -/
def loopBlocked (s : State) (flow : Nat) (b : List Byte) : Bool :=
  (s.svc.blocked.find? flow).isSome && rd b 12 2 != (cfgOf s).valN Kind.device 0 Fld.devLoopEtherType

/-- An upstream frame's first pass: its tenant is that of its flow. -/
def upPass (flow : Nat) (b : List Byte) (parity : ParityErr) (s : State) : State :=
  let c := bankCfg s
  let die := dieOfTree (c.valN Kind.terminal (c.valN Kind.flow flow Fld.flTerm) Fld.trmTree)
  let tenant := c.valN Kind.flow flow Fld.flTenant
  let f : Frame := { bytes := b, dir := .up, tenant := tenant, ingress := flow, stitch := bankStitch s, arrival := baseNs s 0 }
  if !c.live Kind.flow flow then stitchDiscard (dieOfTerm s ((cfgOf s).valN Kind.flow flow Fld.flTerm)) s
  else
    let s := bumpPair 0 flow 0 b.length s
    if loopBlocked s flow b then bump 4 (objTenant die tenant) Cn.loopDrops 1 s
    else parsePass { die := die, dir := .up, cfg := c, stitch := bankStitch s, frame := f, parity := parity, pipe := upPipe flow } s

/-- A downstream frame's first pass, past MACsec: its tenant, then the pipeline of its port. -/
def portPass (port : Nat) (b : List Byte) (assoc : Option Nat) (parity : ParityErr) (s : State) : State :=
  let c := bankCfg s
  let die := dieOfPort port
  let f : Frame := { bytes := b, dir := .down, ingress := port, stitch := bankStitch s, arrival := baseNs s 0, assoc := assoc }
  let p : Pass := { die := die, dir := .down, cfg := c, stitch := bankStitch s, frame := f, parity := parity, pipe := port / 8 % 4 }
  match portTenant c die port b with
  | none => except p 0x05 none false s
  | some t => parsePass { p with frame := { f with tenant := t } } s

/-- A protected frame: without room it is dropped; without a usable association, with a context that fails, with an ICV that
fails or with a packet number below the replay window it is counted on its association (R256, R275, R278 to R280). -/
def securedPass (port : Nat) (b : List Byte) (m : SecTag) (parity : ParityErr) (s : State) : State :=
  let a := assocNum port m.chan m.an
  if !m.room then bump 8 port Cn.ingressDrops 1 s
  else if !assocUsable s port a then bump 9 (192 + a) Cn.noSa 1 s
  else if !ctxGood s slotSak a m.ctx then
    bump 9 (192 + a) Cn.contextErr 1
      (stopAssoc port a (raise Ev.contextIntegrity (dieOfPort port) [.u32 a] (spillCtx m.ctx s)))
  else
    let s := spillCtx m.ctx s
    if !m.icvOk || replayed s port a m.pn then countIcv a s
    else portPass port b (some a) parity (takePn port a m.pn (bump 9 (192 + a) Cn.macsecOk 1 s))

/-- A MAC control frame, as PAUSE and PFC are (Table 13.4): EtherType 0x8808. -/
def isMacControl (b : List Byte) : Bool := beNat ((b.drop 12).take 2) == 0x8808

/-- A downstream frame at its port: a MAC control frame is counted and discarded (R340); under MACsec, one without a SecTAG that is no key agreement frame is dropped and counted. -/
def downPass (port : Nat) (b : List Byte) (tag : Option SecTag) (parity : ParityErr) (s : State) : State :=
  let s := bump 8 port Cn.rxBytes b.length (bump 8 port Cn.rxFrames 1 s)
  if isMacControl b then bump 8 port Cn.macControl 1 s
  else if !macsecOn s port then portPass port b none parity s
  else
    match tag with
    | some m => securedPass port b m parity s
    | none => if isMka b then portPass port b none parity s else bump 8 port Cn.untagged 1 s

/-- A frame with its FCS enters its pipeline: downstream at a sub-port that is up, upstream on a flow. -/
def execPipelinePass (dt : Nat) (dir : Dir) (ingress : Nat) (frame : List Byte) (tag : Option SecTag) (parity : ParityErr) (s : State) :
    Host.Outcome State Fault Refusal :=
  let s := tick dt s
  .next <|
    match dir with
    | .up => upPass ingress frame parity s
    | .down => if portUp s ingress then downPass ingress frame tag parity s else s

/-! ### RECIRCULATION (R211 to R214) -/

/-- The configuration of the bank that a frame carries, while it is held. -/
def bankOf (s : State) (die : DieId) (st : StitchNo) : Option Cfg :=
  if st = bankStitch s then some (bankCfg s)
  else (s.stitch.oldBanks.find? (dieNum die)).bind fun o => if o.stitch = st then some o.cfg else none

/-- The frames at a pipeline's exit whose earlier frames have left go on their way. -/
def releaseExits (k : Nat) (s : State) : State :=
  let busy := s.tab.recirc.getD k []
  let l := s.tab.exits.getD k []
  let stays : Transit → Bool := fun t => busy.any fun r => sameFlow r.frame t.frame
  { s with tab := { s.tab with exits := s.tab.exits.put [] k (l.filter stays) }
           q := { s.q with transit := s.q.transit ++ l.filter fun t => !stays t } }

def execRecirculation (dt : Nat) (die : DieId) (dir : Dir) (pipe : Nat) (s : State) : Host.Outcome State Fault Refusal :=
  let s := tick dt s
  let k := pipeKey die dir pipe
  .next <|
    match s.tab.recirc.getD k [] with
    | [] => s
    | r :: rest =>
      let s := { s with tab := { s.tab with recirc := s.tab.recirc.put [] k rest } }
      releaseExits k <|
        match bankOf s die r.frame.stitch with
        | none => stitchDiscard die s
        | some c =>
          parsePass { die := die, dir := dir, cfg := c, stitch := r.frame.stitch, frame := r.frame,
                      second := some (r.profile, r.skip), pipe := pipe } s

/-! ### Row placement and banks (R199 to R203, R213) -/

/-- The pre-filter word of a key, and the bits of it that a row cares about with their values (R199). -/
def rowFilter (c : Cfg) (num : Nat) : Nat × Nat :=
  let v := c.valN Kind.row num
  let m := v Fld.rwMask
  let x := v Fld.rwValue
  let care : Nat → Nat → Bool := fun hi lo => bitsOf m hi lo == 2 ^ (hi + 1 - lo) - 1
  let l3 := care 84 83
  let l4 := bitsOf m 87 85
  let l4v := bitsOf x 87 85
  let l4care := Nat.land l4 l4v != 0 || l4 == 7
  let mask := 0x7F + (if l3 then 0x180 else 0) + (if l4care then 0x200 else 0) + 0x400 + 0x7800
  let val := v Fld.rwTenant + 0x40 * v Fld.rwDir + (if l3 then 0x80 * bitsOf x 84 83 else 0)
    + (if l4care && Nat.land l4 l4v != 0 then 0x200 else 0) + 0x400 * bit (rowWide c num) + 0x800 * v Fld.rwProfile
  (val, mask)

/-- The pre-filter of a group of rows: a bit is set in the mask when every row cares about it and all agree. -/
def groupFilter : List (Nat × Nat) → Nat × Nat
  | [] => (0, 0)
  | [x] => x
  | x :: t =>
    let r := groupFilter t
    let m := Nat.land (Nat.land x.2 r.2) (0xFFFF - Nat.xor x.1 r.1 % 0x10000)
    (Nat.land x.1 m, m)

/-- The rows of a die that are written, each with its number and its state. -/
def dieRows (s : State) (die : DieId) : List (Nat × RowSt) :=
  (s.tab.rows.filter fun p => p.1 % 2 ^ 20 / 65536 == dieNum die).map fun p => (p.1 % 2 ^ 20, p.2)

/-- The physical rows of a group that are taken, a wide row taking two. -/
def groupTaken (s : State) (c : Cfg) (die : DieId) (g : Nat) : List Nat :=
  ((dieRows s die).filter fun p => p.2.phys / 32 == g).flatMap fun p =>
    if rowWide c p.1 then [p.2.phys, p.2.phys + 1] else [p.2.phys]

/-- The free places of a group for a row of a width, when its pleat stays free. -/
def groupFree (s : State) (c : Cfg) (die : DieId) (g : Nat) (wide : Bool) : List Nat :=
  let rows := (dieRows s die).filter fun p => p.2.phys / 32 == g
  let taken := groupTaken s c die g
  if rows.any fun p => rowWide c p.1 != wide then []
  else
    let free := if wide then ((List.range 16).map fun i => 32 * g + 2 * i).filter fun r => !taken.contains r
      else ((List.range 32).map fun i => 32 * g + i).filter fun r => !taken.contains r
    if free.length ≤ 1 then [] else free

/-- A row leaves a group's pre-filter as it is. -/
def keepsFilter (s : State) (c : Cfg) (die : DieId) (g num : Nat) : Bool :=
  let l := ((dieRows s die).filter fun p => p.2.phys / 32 == g).map fun p => rowFilter c p.1
  l.isEmpty || groupFilter (rowFilter c num :: l) == groupFilter l

/-- The places for a row: those whose group's pre-filter it does not widen, otherwise any (R200). -/
def rowPlaces (s : State) (c : Cfg) (die : DieId) (num : Nat) : List Nat :=
  let all := (List.range 512).filter fun g =>
    !(groupFree s c die g (rowWide c num)).isEmpty && !s.stitch.quarantined.contains (locRowGroup die g)
  let good := all.filter fun g => keepsFilter s c die g num
  (if good.isEmpty then all else good).flatMap fun g => groupFree s c die g (rowWide c num)

/-- Write one row of the incoming bank: a created row, or the new version of a changed one (R202). -/
def writeRow (c : Cfg) (die : DieId) (num : Nat) (created : Bool) (s : State) : State :=
  match pick (rowPlaces s c die num) s with
  | none => s
  | some r =>
    let old := s.tab.rows.find? (rowKey num false)
    let x : RowSt := { phys := r, hits := (old.map (·.hits)).getD 0, multi := (old.map (·.multi)).getD false, inOld := false, inNew := true }
    let s := { s with tab := { s.tab with rows := s.tab.rows.set (rowKey num (!created)) x } }
    let s := doIf (!created) (modRow (rowKey num false) fun x => { x with inNew := false }) s
    putPlace { kind := Kind.row, num := num, loc := locRowGroup die (r / 32), moves := ((placeOf? s Kind.row num).map (·.moves)).getD 0 }
      (drawn s)

/-- Write a record's row change into the incoming bank of a die. -/
def writeRowRec (c : Cfg) (die : DieId) (r : StagedRec) (s : State) : State :=
  if r.body.kind != Kind.row || r.num / 65536 != dieNum die then s
  else if r.body.op = 3 then modRow (rowKey r.num false) (fun x => { x with inNew := false }) s
  else writeRow c die r.num (r.body.op == 1) s

/-- The records of one object come down to one write: its last. -/
def lastOfEach (l : List StagedRec) : List StagedRec :=
  (l.foldl (fun a r => r :: a.filter fun x => !(x.body.kind == r.body.kind && x.num == r.num)) []).reverse

/-- The incoming bank of a die takes a stitch's row changes. -/
def writeBank (die : DieId) (p : PendStitch) (s : State) : State :=
  let c := openCfg (bankCfg s) p
  let fresh := p.recs.filter fun r => r.body.op == 1
  let l := (lastOfEach p.recs).map fun r =>
    if r.body.op == 2 && fresh.any (fun x => x.body.kind == r.body.kind && x.num == r.num) then
      { r with body := { r.body with op := 1 } }
    else r
  let s := forAll l (writeRowRec c die) s
  { s with stitch := { s.stitch with bankWritten := s.stitch.bankWritten.set (dieNum die) true } }

def bankIsWritten (s : State) (die : DieId) : Bool := s.stitch.bankWritten.getD (dieNum die) false

/-- The row changes of the next stitch are written once the die holds no old bank. -/
def execClassifierBankWrite (dt : Nat) (die : DieId) (s : State) : Host.Outcome State Fault Refusal :=
  let s := tick dt s
  .next <|
    match s.stitch.pend.find? fun p => !p.opened with
    | none => s
    | some p =>
      if bankIsWritten s die || (s.stitch.oldBanks.find? (dieNum die)).isSome then s else writeBank die p s

/-- The column operation: rows of the old bank alone become pleats, and the old membership bits take the new ones. -/
def releaseRows (die : DieId) (s : State) : State :=
  let mine : Nat → Bool := fun k => k % 2 ^ 20 / 65536 == dieNum die
  let keep := s.tab.rows.filter fun p => !mine p.1 || p.2.inNew
  let rows : Tab RowSt := keep.foldl (fun t p =>
    if mine p.1 then Tab.set (p.1 % 2 ^ 20) { p.2 with inOld := true } t else Tab.set p.1 p.2 t) []
  { s with tab := { s.tab with rows := rows } }

/-- Frames of the old bank that wait for their second pass are discarded (R213). -/
def dropOldRecirc (die : DieId) (st : StitchNo) (s : State) : State :=
  let n := ((s.tab.recirc.filter fun p => p.1 / 8 == dieNum die).flatMap fun p => p.2.filter fun r => r.frame.stitch == st).length
  let keep : Nat → List Recirc → List Recirc := fun k l =>
    if k / 8 == dieNum die then l.filter (fun r => r.frame.stitch != st) else l
  let s := { s with tab := { s.tab with recirc := s.tab.recirc.mapVals keep } }
  let s := forAll ((List.range 8).map (8 * dieNum die + ·)) releaseExits s
  doIf (n != 0) (bump 0 (dieNum die) Cn.stitchDiscards n) s

/-- Release a die's old bank. -/
def releaseBank (die : DieId) (st : StitchNo) (s : State) : State :=
  let s := dropOldRecirc die st (releaseRows die s)
  { s with stitch := { s.stitch with oldBanks := s.stitch.oldBanks.del (dieNum die) } }

/-- The old bank is released when its last frame has finished, and 20 µs after the switch in every case. -/
def execBankRelease (dt : Nat) (die : DieId) (lastFrameDone : Bool) (s : State) : Host.Outcome State Fault Refusal :=
  let s := tick dt s
  .next <|
    match s.stitch.oldBanks.find? (dieNum die) with
    | none => s
    | some o =>
      let waiting := (s.tab.recirc.filter fun p => p.1 / 8 == dieNum die).any fun p => p.2.any fun r => r.frame.stitch == o.stitch
      if (lastFrameDone && !waiting) || decide (o.since + Time.us 20 ≤ s.now) then releaseBank die o.stitch s else s

/-! ### MATCH_STEP (R198) -/

/-- A cursor: 0, or the priority and physical row of the last row listed with the entry numbers of all listed so far. -/
def cursorOf (last : Hit) (seen : List Nat) : Nat :=
  1 + last.priority * 2 + last.phys * 2 ^ 17 + 2 ^ 31 * seen.foldl (fun a e => a * 2 ^ 17 + e + 1) 0

/-- The entry numbers in a cursor's list, with fuel for 16,384 rows. -/
def cursorSeen : Nat → Nat → List Nat
  | 0, _ => []
  | n + 1, v => if v = 0 then [] else (v % 2 ^ 17 - 1) :: cursorSeen n (v / 2 ^ 17)

def seenIn (cursor : Nat) : List Nat := (cursorSeen 16384 (cursor / 2 ^ 31)).reverse

/-- The rows after a cursor that it has not stepped past. -/
def afterCursor (cursor : Nat) (l : List Hit) : List Hit :=
  if cursor = 0 then l
  else
    let at_ : Hit := ⟨0, 0, bitsOf cursor 30 17, bitsOf (cursor - 1) 16 1⟩
    let seen := seenIn cursor
    l.filter fun h => !hitBefore h at_ && !seen.contains (h.num % 65536)

def execMatchStep (dt : Nat) (h : Hdr) (die : DieId) (wide : Bool) (key cursor : Nat) (s : State) :
    Host.Outcome State Fault Refusal :=
  .next <| hostCmd dt Op.matchStep h (fun s =>
    if 2 ^ (if wide then 640 else 320) ≤ key then fail St.parameter s
    else
      let l := (afterCursor cursor (searchRows s (bankCfg s) die true key wide)).take 4
      let next := match l.getLast? with
        | none => cursor
        | some x => cursorOf x (seenIn cursor ++ l.map fun h => h.num % 65536)
      .done { result := (l.flatMap fun h => [h.num % 65536, h.phys, h.priority]) ++ [next] } s) s

end Sys2Proof.Machine
end

