-- ==== Sys2Proof/Machine/Services.lean ====
section
/-! DEFINITION. The services run on the device: OMCI, software download, relay insertion, multicast snooping, CFM and loop detection (R234 to R251). -/

namespace Sys2Proof.Machine
open Sys2Proof

/-! ### OMCI requests (R236, R237) -/

/-- The OMCI timeout. -/
def omciTimeout (s : State) : Time := Time.ms ((cfgOf s).valN Kind.device 0 Fld.devOmciTimeoutMs)

/-- Requests of a priority ahead of a new one at a terminal. -/
def omciAhead (x : Terminal) (prio : Nat) : Nat := ((x.omciOut ++ x.omciWait).filter fun r => r.prio == prio).length

/-- The maximum time of a request: four timeouts for itself and for each ahead of it, at most 680 s (Table 14.6). -/
def omciMaxTime (s : State) (x : Terminal) (prio : Nat) : Time := min (4 * omciTimeout s * (1 + omciAhead x prio)) (Time.sec 680)

/-- The longest body of a message on the message set in use. -/
def omciRoom (x : Terminal) : Nat := if x.omciExt then 1966 else 32

/-- A host's OMCI request: it is turned away for an unknown terminal, one that is not OPERATIONAL, contents that do not fit, and
with 16 requests waiting (R237). -/
def hostOmci (h : Hdr) (t msgType cls inst prio : Nat) (body : List Byte) (s : State) : Served :=
  let x := termOf s t
  if !(cfgOf s).has Kind.terminal t then fail St.handle s
  else if x.st != .operational then fail St.state s
  else if omciRoom x < body.length || 65535 < cls || 65535 < inst || 255 < msgType then fail St.parameter s
  else if omciBusy x prio && decide (16 ≤ x.omciWait.length) then fail St.busy s
  else
    let r : OmciReq := { prio := prio, contents := omciContents s t msgType cls inst body, txn := 0, port := h.port, ring := h.ring }
    .wait (.omci t prio) (omciMaxTime s x prio) (submitOmci t r s)

def execOmciRequest (dt : Nat) (h : Hdr) (term msgType cls inst prio : Nat) (contents : List Byte) (s : State) :
    Host.Outcome State Fault Refusal :=
  .next <| hostCmd dt Op.omciRequest h (hostOmci h term msgType cls inst prio contents) s

/-- Activate image and Commit image are sent only on these commands (R240). -/
def imageMessage (h : Hdr) (t msgType inst : Nat) (s : State) : Served :=
  if 1 < inst then (if (cfgOf s).has Kind.terminal t then fail St.parameter s else fail St.handle s)
  else hostOmci h t msgType swImage inst 0 [] s

def execImageActivate (dt : Nat) (h : Hdr) (term inst : Nat) (s : State) : Host.Outcome State Fault Refusal :=
  .next <| hostCmd dt Op.imageActivate h (imageMessage h term 0x56 inst) s

def execImageCommit (dt : Nat) (h : Hdr) (term inst : Nat) (s : State) : Host.Outcome State Fault Refusal :=
  .next <| hostCmd dt Op.imageCommit h (imageMessage h term 0x57 inst) s

/-- The device's own request to a terminal, of the lowest priority. -/
def ownOmci (t msgType cls inst : Nat) (use : OmciUse) (body : List Byte) (s : State) : State :=
  submitOmci t { prio := 0, contents := omciContents s t msgType cls inst body, txn := 0, use := use } s

/-- Read the OMCC version from the terminal's ONU2-G managed entity, once for each entry to OPERATIONAL (R236). -/
def askVersion (t : Nat) (s : State) : State :=
  if (termOf s t).omciAsked || (termOf s t).st != .operational then s
  else ownOmci t 0x49 257 0 .version (beBytes 2 0x4000) (modTerm t (fun x => { x with omciAsked := true }) s)

/-- Send a terminal the broadcast key of an index under its KEK (R269). -/
def sendBcastKey (t tenant index : Nat) (key : List Byte) (s : State) : State :=
  let kek := (keyOf s (dieOfTerm s t) slotExchange t 1).bytes
  ownOmci t 0x48 332 0 (.bcast tenant index) (Config.relayBytes 8 kek key) s

/-- The outstanding request that a transaction identifier names. -/
def omciNamed? (x : Terminal) (txn : Nat) : Option OmciReq := x.omciOut.find? fun r => r.txn == txn

/-- The terminal's response ends the request it answers; the next one of its priority is sent. -/
def omciResponse (t : Nat) (r : OmciReq) (contents : List Byte) (s : State) : State :=
  nextOmci t r.prio (endOmci t r { result := contents.map (·.toNat) } s)

/-- A request stays unanswered: it is sent again at most 3 times and then fails (R237). -/
def omciUnanswered (t : Nat) (r : OmciReq) (s : State) : State :=
  if r.resends < 3 then
    queueOmci t r.txn r.contents (modTerm t (fun x =>
      { x with omciOut := x.omciOut.map fun y => if y = r then { r with resends := r.resends + 1, sentAt := s.now } else y }) s)
  else nextOmci t r.prio (endOmci t r { status := St.timeout } (bump 10 t Cn.omciTimeouts 1 s))

def execOmciTimeout (dt : Nat) (term prio : Nat) (s : State) : Host.Outcome State Fault Refusal :=
  let s := tick dt s
  .next <|
    match (termOf s term).omciOut.find? fun r => r.prio == prio with
    | none => s
    | some r => if r.sentAt + omciTimeout s ≤ s.now then omciUnanswered term r s else s

/-! ### OMCI notifications (R238) -/

def omciRing (s : State) : DieId → List OmciRec
  | .east => s.svc.omciE
  | .west => s.svc.omciW

def pushOmci (d : DieId) (r : OmciRec) (s : State) : State :=
  match d with
  | .east => { s with svc := { s.svc with omciE := s.svc.omciE ++ [r] } }
  | .west => { s with svc := { s.svc with omciW := s.svc.omciW ++ [r] } }

/-- An autonomous message is written whole to the die's notification ring, or dropped and counted. -/
def omciNotify (t : Nat) (contents : List Byte) (s : State) : State :=
  let d := dieOfTerm s t
  let full := decide (Config.omciRingMax ≤ (omciRing s d).length)
  let drop : State → State := fun s => raiseLimited Ev.omciRingFull d (dieNum d) (Time.sec 1) [.u8 (dieNum d)]
    (bump 4 (64 * dieNum d) Cn.omciRingFull 1 s)
  match destPort ((cfgOf s).valN Kind.die (dieNum d) Fld.dieOmciDest) with
  | some p =>
    if !hasSession s p then bump 4 (64 * dieNum d) Cn.omciNoSession 1 s
    else if full then drop s
    else fireDelivery p .omci (pushOmci d ⟨t, contents⟩ s)
  | none => if full then drop s else pushOmci d ⟨t, contents⟩ s

/-- The alarm sequence number after one: 1 to 255 round (log entry 5). -/
def nextAlarm (n : Nat) : Nat := if n = 255 then 1 else n + 1

/-- An alarm whose number does not follow the previous one raises OMCI_ALARM_GAP. -/
def alarmCheck (t seq : Nat) (s : State) : State :=
  let gap := match (termOf s t).alarmSeq with
    | none => false
    | some n => seq != nextAlarm n
  doIf gap (raise Ev.omciAlarmGap (dieOfTerm s t) [.u16 t]) (modTerm t (fun x => { x with alarmSeq := some seq }) s)

/-! ### Software download (R239, R240) -/

/-- Data bytes of a section: 1,920 on the extended set, 31 on the baseline set. -/
def sectionBytes (x : Terminal) : Nat := if x.omciExt then 1920 else 31

/-- The sections of a download. -/
def sectionCount (s : State) (t : Nat) (d : Download) : Nat := ceilDiv (imageOf s t d.image).1 (sectionBytes (termOf s t))

/-- The data of a section; the last one may be short. -/
def sectionData (s : State) (t : Nat) (d : Download) (k : Nat) : List Byte :=
  let n := sectionBytes (termOf s t)
  let mem := (imagesOf s (dieOfTerm s t)).mem
  (List.range (min n ((imageOf s t d.image).1 - n * k))).map fun i => imageByte mem (imageAddr d.image (n * k + i))

/-- Send one section; the last of its window asks for acknowledgement. -/
def sendSection (t : Nat) (d : Download) (last k : Nat) (s : State) : State :=
  swdlSend t (if k = last then 0x54 else 0x14) d (beBytes 1 (k - d.sent) ++ sectionData s t d k) s

/-- Send the window that starts at the first section not yet acknowledged. -/
def sendWindow (t : Nat) (s : State) : State :=
  match (termOf s t).download with
  | none => s
  | some d =>
    let n := min d.window (sectionCount s t d - d.sent)
    let s := forAll (List.range n) (fun i => sendSection t d (d.sent + n - 1) (d.sent + i)) s
    modDownload t (fun d => { d with lastAt := s.now }) s

/-- Send End software download with the image's CRC-32 and length. -/
def sendEnd (t : Nat) (s : State) : State :=
  match (termOf s t).download with
  | none => s
  | some d =>
    let i := imageOf s t d.image
    let s := swdlSend t 0x55 d (beBytes 4 i.2.toNat ++ beBytes 4 i.1 ++ beBytes 1 1 ++ beBytes 2 d.inst) s
    modDownload t (fun d => { d with lastAt := s.now, ending := true, endSince := if d.ending then d.endSince else s.now }) s

/-- Go on with a download: its next window, or its end. -/
def goOn (t : Nat) (s : State) : State :=
  match (termOf s t).download with
  | none => s
  | some d => if d.sent < sectionCount s t d then sendWindow t s else sendEnd t s

/-- A window has failed: it is sent once more; its second failure ends the download. -/
def windowFails (t cause : Nat) (s : State) : State :=
  match (termOf s t).download with
  | none => s
  | some d =>
    if d.retried then failDownload t cause s
    else
      let s := modDownload t (fun d => { d with retried := true }) s
      if d.started then sendWindow t s else startDownload t s

/-- The terminal answers a download message. -/
def swdlAnswer (t : Nat) (m : SwdlMsg) (s : State) : State :=
  match (termOf s t).download with
  | none => s
  | some d =>
    if !d.running then s
    else
      match m with
      | .start w =>
        if d.started then s
        else goOn t (modDownload t (fun d => { d with started := true, retried := false, window := max 1 (min d.window w) }) s)
      | .windowAck missing =>
        if !d.started || d.ending then s
        else if missing then windowFails t swdlMissing s
        else
          let n := min d.window (sectionCount s t d - d.sent)
          goOn t (modDownload t (fun d => { d with sent := d.sent + n, retried := false }) s)
      | .endAck busy =>
        if !d.ending then s
        else if busy then modDownload t (fun d => { d with lastAt := s.now }) s
        else
          let s := raise Ev.swdlDone (dieOfTerm s t) [.u16 t] (modTerm t (fun x => { x with download := none }) s)
          match (termOf s t).ch with
          | none => s
          | some ch => nextDownload ch s

def execSwdlStart (dt : Nat) (h : Hdr) (term image inst window : Nat) (s : State) : Host.Outcome State Fault Refusal :=
  .next <| hostCmd dt Op.swdlStart h (fun s =>
    if !(cfgOf s).has Kind.terminal term then fail St.handle s
    else if ((imagesOf s (dieOfTerm s term)).images.find? image).isNone then fail St.handle s
    else if 1 < inst || window = 0 || 256 < window then fail St.parameter s
    else if (termOf s term).download.isSome then fail St.busy s
    else
      match (termOf s term).st, (termOf s term).ch with
      | .operational, some ch =>
        let d : Download := { image := image, inst := inst, window := window, order := s.svc.swdlSeq }
        let s := modTerm term (fun x => { x with download := some d }) { s with svc := { s.svc with swdlSeq := s.svc.swdlSeq + 1 } }
        let s := nextDownload ch s
        .done { result := [bit (!(((termOf s term).download.map (·.running)).getD false))] } s
      | _, _ => fail St.state s) s

/-- A window, or the Start message, has stayed unanswered for the OMCI timeout. -/
def execSwdlWindowTimeout (dt : Nat) (term : Nat) (s : State) : Host.Outcome State Fault Refusal :=
  let s := tick dt s
  .next <|
    match (termOf s term).download with
    | none => s
    | some d => if d.running && !d.ending && decide (d.lastAt + omciTimeout s ≤ s.now) then windowFails term swdlTimeout s else s

/-- The End message is repeated every 1 s for at most 5 min. -/
def execSwdlEndRetry (dt : Nat) (term : Nat) (s : State) : Host.Outcome State Fault Refusal :=
  let s := tick dt s
  .next <|
    match (termOf s term).download with
    | none => s
    | some d =>
      if d.ending && decide (d.lastAt + Time.sec 1 ≤ s.now) then
        if d.endSince + Time.sec 300 ≤ s.now then failDownload term swdlBusy s else sendEnd term s
      else s

/-- An upstream OMCI message: discarded and counted when its MIC fails or when it answers nothing (R238). -/
def execOmciMessageReceive (dt : Nat) (term : Nat) (micOk : Bool) (msg : OmciMsg) (swdl : Option SwdlMsg) (s : State) :
    Host.Outcome State Fault Refusal :=
  let s := tick dt s
  .next <|
    if !registered (termOf s term).st then s
    else if !micOk then bump 10 term Cn.omciBadMic 1 s
    else
      match msg with
      | .alarm seq contents => omciNotify term contents (alarmCheck term seq s)
      | .notify contents => omciNotify term contents s
      | .response txn contents =>
        match omciNamed? (termOf s term) txn, swdl with
        | some r, _ => omciResponse term r contents s
        | none, some m =>
          if ((termOf s term).download.map (·.running)).getD false then swdlAnswer term m s
          else bump 10 term Cn.omciUnexpected 1 s
        | none, none => bump 10 term Cn.omciUnexpected 1 s

/-! ### Relay insertion (R241 to R244) -/

/-- The decimal digits of a number, as text. -/
def decimal (n : Nat) : List Byte := (Nat.toDigits 10 n).map fun c => BitVec.ofNat 8 c.toNat

/-- The outer tag of a frame, if it is tagged. -/
def outerTag (c : Cfg) (die : DieId) (f : Frame) : Nat := (parseFrame c die f.bytes 0).tags.getD 0 0

/-- What a template item expands to for a client frame (Table 9.2). -/
def expandItem (s : State) (c : Cfg) (t : Nat) (tci : Nat) (b : Byte) : List Byte :=
  let ch := (termOf s t).ch.getD 0
  match b.toNat with
  | 1 => (leBytes 32 (c.valN Kind.device 0 Fld.devHeadend)).filter fun b => b != 0
  | 2 => decimal (treeOf ch)
  | 3 => decimal ch
  | 4 => decimal ((termOf s t).onu.getD 0)
  | 5 => beBytes 12 (c.valN Kind.terminal t Fld.trmSerial)
  | 6 => decimal (tci % 4096)
  | 7 => decimal (tci / 2 ^ 13)
  | _ => [b]

/-- A tenant's template, expanded for a client frame. -/
def expand (s : State) (c : Cfg) (die : DieId) (fld : Nat) (f : Frame) : List Byte :=
  (templateOf (c.valN Kind.tenant f.tenant fld)).flatMap
    (expandItem s c (c.valN Kind.flow f.ingress Fld.flTerm) (outerTag c die f))

/-- A value with its code and length before it. -/
def tlv (code : Nat) (v : List Byte) : List Byte := beBytes 1 code ++ beBytes 1 v.length ++ v

/-- Sub-options 1 and 2: circuit ID and remote ID. -/
def relayIds (s : State) (c : Cfg) (die : DieId) (f : Frame) : List Byte :=
  tlv 1 (expand s c die Fld.tnCircuit f) ++ tlv 2 (expand s c die Fld.tnRemote f)

def option82 (s : State) (c : Cfg) (die : DieId) (f : Frame) : List Byte := tlv 82 (relayIds s c die f)

/-- The vendor-specific tag 0x0105 with vendor identifier 3561. -/
def vendorTag (s : State) (c : Cfg) (die : DieId) (f : Frame) : List Byte :=
  let v := beBytes 4 3561 ++ relayIds s c die f
  beBytes 2 0x0105 ++ beBytes 2 v.length ++ v

/-- The Interface-ID and Remote-ID options of a Relay-Forward, with the enterprise number. -/
def relayOptions (s : State) (c : Cfg) (die : DieId) (f : Frame) : List Byte :=
  let i := expand s c die Fld.tnCircuit f
  let r := beBytes 4 (c.valN Kind.device 0 Fld.devEnterprise) ++ expand s c die Fld.tnRemote f
  beBytes 2 18 ++ beBytes 2 i.length ++ i ++ beBytes 2 37 ++ beBytes 2 r.length ++ r

/-! What is done to a relayed frame. -/
namespace Relay
def insert82 : Nat := 0
def replace82 : Nat := 1
def remove82 : Nat := 2
def wrap : Nat := 3
def unwrap : Nat := 4
def insertTag : Nat := 5
def replaceTag : Nat := 6
def removeTag : Nat := 7
end Relay

/-- Send a relayed client frame on to the network; one made longer than its destination's maximum is dropped and counted (R244). -/
def relayUp (die : DieId) (f : Frame) (bytes : List Byte) (s : State) : State :=
  let port := (cfgOf s).valN Kind.tenant f.tenant Fld.tnUplink
  if (cfgOf s).valN Kind.subport port Fld.spMaxFrame < bytes.length then bump 4 (objTenant die f.tenant) Cn.relayOversize 1 s
  else toNetwork die f.tenant f.cls bytes s

/-- Insert an option or tag under the tenant's trust policy: 0 replace, 1 keep, 2 drop (R241, R243). -/
def relayInsert (c : Cfg) (die : DieId) (f : Frame) (present : Bool) (insert replace : Nat) (opt : List Byte) (s : State) : State :=
  if !present then relayUp die f (Config.relayBytes insert f.bytes opt) s
  else
    match c.valN Kind.tenant f.tenant Fld.tnTrust with
    | 0 => relayUp die f (Config.relayBytes replace f.bytes opt) s
    | 1 => relayUp die f f.bytes s
    | _ => bump 4 (objTenant die f.tenant) Cn.relayDrops 1 s

/-- Send a server's frame on to a flow, through the management queue of its channel. -/
def relayDown (flow : Nat) (f : Frame) (bytes : List Byte) (s : State) : State :=
  match (termOf s (flowTerm s flow)).ch with
  | none => s
  | some ch => toManagement ch { f with bytes := bytes, kind := .flow flow, dir := .down } s

/-! ### Multicast (R246, R247) -/

/-- The terminal lacks the tenant's broadcast keys that its channel has loaded. -/
def lacksKeys (s : State) (t ch tenant : Nat) : Bool :=
  !(termOf s t).bcastGot.contains tenant && (slotFor? s (dieOfChannel ch) slotBroadcast (bcastOwner ch tenant)).isSome

/-- Send a terminal both loaded broadcast keys of a tenant (R269). -/
def sendLoaded (t ch tenant : Nat) (s : State) : State :=
  forAll [1, 2] (fun i s =>
    let k := keyOf s (dieOfChannel ch) slotBroadcast (bcastOwner ch tenant) i
    doIf (k.st != .free && k.st != .retired) (sendBcastKey t tenant i k.bytes) s) s

/-- A join is accepted, or waits until the terminal holds the tenant's broadcast keys, which are sent to it (R269). -/
def joinOrHold (t ch tenant vid g : Nat) (s : State) : State :=
  if isMember (termOf s t) (memKey tenant vid) g || !lacksKeys s t ch tenant || !s.twin.held then join t ch tenant vid s g
  else
    let s := modTerm t (fun x =>
      { x with heldJoins := if x.heldJoins.contains (tenant, vid, g) then x.heldJoins else x.heldJoins ++ [(tenant, vid, g)] }) s
    doIf (!bcastOut (termOf s t) tenant) (sendLoaded t ch tenant) s

/-- A leave: with fast leave the membership ends at once, else two group-specific queries follow. -/
def leave (c : Cfg) (die : DieId) (t ch tenant vid g : Nat) (s : State) : State :=
  let key := memKey tenant vid
  if !isMember (termOf s t) key g then s
  else if c.on Kind.vlan (2 ^ 18 * dieNum die + key) Fld.vlFastLeave then endMember t ch (key, g, 0) s
  else if s.svc.leaves.any fun l => l.term == t && memKey l.tenant l.vid == key && l.group == g then s
  else { s with svc := { s.svc with leaves := s.svc.leaves ++ [⟨t, tenant, vid, g, 0, s.now⟩] } }

/-- A terminal's report: its joins and its leaves (R246). -/
def report (c : Cfg) (die : DieId) (f : Frame) (joins leaves : List Nat) (s : State) : State :=
  let t := c.valN Kind.flow f.ingress Fld.flTerm
  let vid := outerTag c die f % 4096
  if !c.on Kind.vlan (2 ^ 18 * dieNum die + memKey f.tenant vid) Fld.vlSnoop then s
  else
    match (termOf s t).ch with
    | none => s
    | some ch => forAll leaves (leave c die t ch f.tenant vid) (forAll joins (joinOrHold t ch f.tenant vid) s)

/-- The present groups of a tenant and VLAN on a die. -/
def currentGroups (s : State) (die : DieId) (tenant vid : Nat) : List Nat :=
  (s.svc.groups.filter fun x => x.die == die && x.tenant == tenant && x.vid == vid).map (·.mac)

/-- A leave's next step: a group-specific query, or the end of the membership after two. -/
def leaveStep (l : Leave) (s : State) : State :=
  match (termOf s l.term).ch with
  | none => s
  | some ch =>
    if l.queries < 2 then
      let s := { s with svc := { s.svc with
        leaves := s.svc.leaves.map fun x => if x = l then { l with queries := l.queries + 1, at_ := s.now + Time.sec 1 } else x } }
      toTenantOn ch l.tenant (Config.serviceBytes Svc.groupQuery [l.tenant, l.vid, l.group]) s
    else endMember l.term ch (memKey l.tenant l.vid, l.group, 0) s

/-- The memberships of a die's tenant and VLAN whose last report is 260 s old. -/
def expired (s : State) (die : DieId) (key : Nat) : List (Nat × Nat × (Nat × Nat × Time)) :=
  s.pon.terms.flatMap fun p =>
    match p.2.ch with
    | none => []
    | some ch =>
      if dieOfChannel ch == die then
        (p.2.groups.filter fun m => m.1 == key && decide (m.2.2 + Time.sec 260 ≤ s.now)).map fun m => (p.1, ch, m)
      else []

/-- A general query falls due, and is sent on every channel of the die with receivers of the tenant (R247). -/
def generalQuery (die : DieId) (tenant vid : Nat) (s : State) : State :=
  let k := 2 ^ 18 * dieNum die + memKey tenant vid
  let interval := Time.sec ((cfgOf s).valN Kind.vlan k Fld.vlQueryS)
  let due := match s.svc.lastQuery.find? k with
    | none => true
    | some at_ => decide (at_ + interval ≤ s.now)
  if (cfgOf s).live Kind.vlan k && (cfgOf s).on Kind.vlan k Fld.vlSnoop && due && s.twin.held then
    forAll (tenantChannels s die tenant) (fun ch => toTenantOn ch tenant (Config.serviceBytes Svc.query [tenant, vid, 2, 10]))
      { s with svc := { s.svc with lastQuery := s.svc.lastQuery.set k s.now } }
  else s

def execMcastQueryTimer (dt : Nat) (die : DieId) (tenant vid : Nat) (s : State) : Host.Outcome State Fault Refusal :=
  let s := tick dt s
  let leaves := s.svc.leaves.filter fun l =>
    dieOfTerm s l.term == die && l.tenant == tenant && l.vid == vid && decide (l.at_ ≤ s.now)
  let s := forAll leaves leaveStep s
  let s := forAll (expired s die (memKey tenant vid)) (fun x => endMember x.1 x.2.1 x.2.2) s
  .next (generalQuery die tenant vid s)

/-! ### CFM (R248, R249) -/

/-- The CCM interval of an end point: 3.33 ms, 10 ms, 100 ms, 1 s, 10 s. -/
def ccmInterval (s : State) (mep : Nat) : Time :=
  match (cfgOf s).valN Kind.mep mep Fld.mpInterval with
  | 0 => 3333333333
  | 1 => Time.ms 10
  | 2 => Time.ms 100
  | 3 => Time.sec 1
  | _ => Time.sec 10

/-- Three and a half intervals. -/
def lossTime (s : State) (mep : Nat) : Time := 7 * ccmInterval s mep / 2

/-- The remote end points that an end point expects. -/
def expectedRemotes (c : Cfg) (mep : Nat) : List Nat :=
  ((List.range 8).map fun i => c.val Kind.mep mep (Fld.mpRemote + i)).filterMap fun v => if v < 0 then none else some v.toNat

def remoteOf? (s : State) (mep remote : Nat) : Option Remote := s.svc.remotes.find? fun r => r.mep == mep && r.remote == remote

def putRemote (r : Remote) (s : State) : State :=
  { s with svc := { s.svc with remotes := r :: s.svc.remotes.filter fun x => !(x.mep == r.mep && x.remote == r.remote) } }

/-- A loss stands, or a defect from a CCM of the last three and a half intervals. -/
def rdiStands (s : State) (mep : Nat) : Bool :=
  s.svc.remotes.any fun r => r.mep == mep && (r.lost || (r.defect != 0 && decide (s.now < r.last + lossTime s mep)))

/-- Send a frame from where an end point is placed: a flow, a channel's VLAN or a port. -/
def sendFromMep (mep : Nat) (bytes : List Byte) (s : State) : State :=
  let c := cfgOf s
  let v := c.valN Kind.mep mep Fld.mpValue
  let tenant := c.valN Kind.mep mep Fld.mpTenant
  match c.valN Kind.mep mep Fld.mpPlace with
  | 0 => relayDown v { tenant := c.valN Kind.flow v Fld.flTenant } bytes s
  | 1 => toTenantOn (v / 4096) tenant bytes s
  | _ =>
    let f : Frame := { bytes := bytes, dir := .up, tenant := tenant, stitch := bankStitch s, cls := 7, arrival := baseNs s 0 }
    doIf s.twin.held (fun s => { s with q := { s.q with transit := s.q.transit ++ [⟨f, .port v, dieOfPort v⟩] } }) s

def mepDie (s : State) (mep : Nat) : DieId := dieOf ((cfgOf s).valN Kind.mep mep Fld.mpDie)

/-- A CCM of an end point falls due; it carries RDI while a loss or a defect stands. -/
def execCcmSend (dt : Nat) (mep : Nat) (s : State) : Host.Outcome State Fault Refusal :=
  let s := tick dt s
  let due := match s.svc.lastCcm.find? mep with
    | none => true
    | some at_ => decide (at_ + ccmInterval s mep ≤ s.now)
  .next <|
    if (cfgOf s).live Kind.mep mep && due && s.twin.held then
      sendFromMep mep (Config.serviceBytes Svc.ccm [mep, bit (rdiStands s mep)])
        { s with svc := { s.svc with lastCcm := s.svc.lastCcm.set mep s.now } }
    else s

/-! Codes of CFM_DEFECT (log entry 6). -/
namespace Defect
def mepId : Nat := 1
def maId : Nat := 2
def level : Nat := 3
def interval : Nat := 4
end Defect

/-- The defect that a CCM shows, 0 for none. -/
def ccmDefect (s : State) (mep remote level interval : Nat) (maOk : Bool) : Nat :=
  let v := (cfgOf s).valN Kind.mep mep
  if !maOk then Defect.maId
  else if level != v Fld.mpLevel then Defect.level
  else if !(expectedRemotes (cfgOf s) mep).contains remote then Defect.mepId
  else if interval != v Fld.mpInterval then Defect.interval
  else 0

/-- A CCM arrives at an end point: a valid one clears a loss, any other raises CFM_DEFECT when its defect is new. -/
def ccmReceive (mep remote level interval : Nat) (maOk : Bool) (s : State) : State :=
  let old := (remoteOf? s mep remote).getD { mep := mep, remote := remote, last := s.now }
  let d := ccmDefect s mep remote level interval maOk
  if d = 0 then
    doIf old.lost (raiseClear Ev.cfmCcm (mepDie s mep) [.u32 mep, .u16 remote])
      (putRemote { old with last := s.now, lost := false, defect := 0 } s)
  else
    let stands := old.defect == d && decide (s.now < old.last + lossTime s mep)
    let last := if (expectedRemotes (cfgOf s) mep).contains remote && !old.lost && old.defect == 0 then old.last else s.now
    doIf (!stands) (raise Ev.cfmDefect (mepDie s mep) [.u32 mep, .u8 d]) (putRemote { old with last := last, defect := d } s)

def execCfmCcmLoss (dt : Nat) (mep remote : Nat) (s : State) : Host.Outcome State Fault Refusal :=
  let s := tick dt s
  .next <|
    match remoteOf? s mep remote with
    | none => s
    | some r =>
      if (cfgOf s).live Kind.mep mep && (expectedRemotes (cfgOf s) mep).contains remote && !r.lost
          && decide (r.last + lossTime s mep ≤ s.now) then
        raise Ev.cfmCcm (mepDie s mep) [.u32 mep, .u16 remote] (putRemote { r with lost := true } s)
      else s

/-- The series of an end point, of loopbacks or of a link trace. -/
def seriesOf? (s : State) (mep : Nat) (trace : Bool) : Option Series := s.svc.series.find? fun x => x.mep == mep && x.trace == trace

def dropSeries (mep : Nat) (trace : Bool) (s : State) : State :=
  { s with svc := { s.svc with series := s.svc.series.filter fun x => !(x.mep == mep && x.trace == trace) } }

/-- End a series with an answer that carries the replies received. -/
def endSeries (x : Series) (status : Nat) (s : State) : State :=
  finishRunning x.port x.ring { status := status, result := x.got.length :: x.got } (dropSeries x.mep x.trace s)

/-- A reply of a series: it is kept, and the last one ends the command. -/
def seriesReply (mep : Nat) (trace : Bool) (v : Nat) (last : Bool) (s : State) : State :=
  match seriesOf? s mep trace with
  | none => s
  | some x =>
    let y := { x with got := x.got ++ [v] }
    if last || (!trace && decide (x.wanted ≤ y.got.length)) then endSeries y St.ok s
    else { dropSeries mep trace s with svc := { s.svc with series :=
      (dropSeries mep trace s).svc.series ++ [y] } }

/-- A command starts a series of an end point: one of its kind at a time. -/
def startSeries (h : Hdr) (mep target n : Nat) (trace : Bool) (max : Time) (msg : Nat → List Byte) (s : State) : Served :=
  if !(cfgOf s).has Kind.mep mep then fail St.handle s
  else if (seriesOf? s mep trace).isSome then fail St.busy s
  else
    let x : Series := { mep := mep, trace := trace, target := target, wanted := n, port := h.port, ring := h.ring }
    let s := { s with svc := { s.svc with series := s.svc.series ++ [x] } }
    .wait (if trace then .ltm mep else .lbm mep) max (forAll ((List.range n).map msg) (sendFromMep mep) s)

def execCfmLbm (dt : Nat) (h : Hdr) (mep target count : Nat) (s : State) : Host.Outcome State Fault Refusal :=
  .next <| hostCmd dt Op.cfmLbm h (fun s =>
    if (cfgOf s).has Kind.mep mep && (count = 0 || 1000 < count) then fail St.parameter s
    else startSeries h mep target count false (Time.sec 6) (fun i => Config.serviceBytes Svc.lbm [mep, target, i]) s) s

def execCfmLtm (dt : Nat) (h : Hdr) (mep target ttl : Nat) (s : State) : Host.Outcome State Fault Refusal :=
  .next <| hostCmd dt Op.cfmLtm h (fun s =>
    if (cfgOf s).has Kind.mep mep && 255 < ttl then fail St.parameter s
    else startSeries h mep target 1 true (Time.sec 5) (fun _ => Config.serviceBytes Svc.ltm [mep, target, ttl]) s) s

/-! ### Loop detection (R250) -/

/-- A probe has come back upstream on a flow: the flow is blocked, until its hold time ends or until the host clears it. -/
def loopDetected (c : Cfg) (die : DieId) (f : Frame) (ch vid : Nat) (s : State) : State :=
  let flow := f.ingress
  let hold := c.valN Kind.vlan (2 ^ 18 * dieNum die + memKey f.tenant vid) Fld.vlHoldS
  if (s.svc.blocked.find? flow).isSome then s
  else
    raise Ev.loopDetected die [.u32 flow, .u16 (c.valN Kind.flow flow Fld.flTerm), .u16 ch]
      { s with svc := { s.svc with blocked := s.svc.blocked.set flow (if hold = 0 then 0 else s.now + Time.sec hold) } }

def unblock (flow : Nat) (s : State) : State := { s with svc := { s.svc with blocked := s.svc.blocked.del flow } }

def execLoopHoldEnd (dt : Nat) (flow : Nat) (s : State) : Host.Outcome State Fault Refusal :=
  let s := tick dt s
  .next <|
    match s.svc.blocked.find? flow with
    | none => s
    | some e => if e != 0 && decide (e ≤ s.now) then unblock flow s else s

def execLoopClear (dt : Nat) (h : Hdr) (flow : Nat) (s : State) : Host.Outcome State Fault Refusal :=
  .next <| hostCmd dt Op.loopClear h (fun s =>
    if !(cfgOf s).has Kind.flow flow then fail St.handle s
    else if (s.svc.blocked.find? flow).isNone then fail St.state s
    else okay (unblock flow s)) s

/-- The channel legs of a replication group. -/
def channelLegs (c : Cfg) (g : Nat) : List Nat :=
  ((c.ofKind Kind.leg).filter fun o => c.valN Kind.leg o.num Fld.lgGroup == g && c.valN Kind.leg o.num Fld.lgKind == 0).map
    fun o => c.valN Kind.leg o.num Fld.lgValue

def execLoopProbeSend (dt : Nat) (die : DieId) (tenant vid : Nat) (s : State) : Host.Outcome State Fault Refusal :=
  let s := tick dt s
  let k := 2 ^ 18 * dieNum die + memKey tenant vid
  let v := (cfgOf s).val Kind.vlan k
  let due := match s.svc.lastProbe.find? k with
    | none => true
    | some at_ => decide (at_ + Time.ms (v Fld.vlLoopMs).toNat ≤ s.now)
  .next <|
    if (cfgOf s).live Kind.vlan k && v Fld.vlLoop == 1 && decide (0 ≤ v Fld.vlGroup) && due && s.twin.held then
      let n := s.svc.probeSeq.getD k 0
      let s := { s with svc := { s.svc with lastProbe := s.svc.lastProbe.set k s.now, probeSeq := s.svc.probeSeq.set k (n + 1) } }
      let etype := (cfgOf s).valN Kind.device 0 Fld.devLoopEtherType
      forAll (channelLegs (cfgOf s) (v Fld.vlGroup).toNat) (fun ch =>
        toTenantOn ch tenant
          (Config.serviceBytes Svc.probe [etype, dieNum die, ch, vid, n, s.svc.probeValue.toNat])) s
    else s

/-! ### SERVICE_FRAME (R234, R235) -/

/-- The punt class that brings a service its messages (Table 7.6). -/
def svcClass : SvcMsg → List Nat
  | .dhcp4Client _ => [16]
  | .dhcp4Server _ => [16]
  | .dhcp6Client => [17]
  | .dhcp6RelayForward => [17]
  | .dhcp6RelayReply _ => [17]
  | .pppoeUp _ _ => [18]
  | .pppoeDown _ _ => [18]
  | .mcastReport _ _ => [19, 20]
  | .mcastNetQuery => [19, 20]
  | .ccm _ _ _ _ _ _ => [21]
  | .lbm _ _ => [21]
  | .ltm _ _ => [21]
  | .lbr _ _ => [21]
  | .ltr _ _ _ => [21]
  | .cfmPass => [21]
  | .ptp _ => [22]
  | .probe _ _ _ _ => [23]

/-- PADI and PADR take a tag upstream; PADO and PADS lose it downstream. -/
def padUp (code : Nat) : Bool := code == 0x09 || code == 0x19
def padDown (code : Nat) : Bool := code == 0x07 || code == 0x65

/-- A PTP message is taken by the instance of its port; one of another domain is dropped and counted (R287). -/
def ptpTake (port domain : Nat) (s : State) : State :=
  let b := (cfgOf s).val Kind.ptpPort port Fld.ptBase
  if (cfgOf s).valN Kind.ptpPort port Fld.ptState = 0 || b < 0 then bump 5 0 Cn.ptpDropped 1 s
  else if (cfgOf s).valN Kind.timeBase b.toNat Fld.tbDomain != domain then bump 5 b.toNat Cn.domainDropped 1 s
  else s

/-- The trapped frame is not the service's own: a CFM frame above an end point's level or for none (R248), a frame of the probes'
EtherType with a foreign value (R208, R250). -/
def passesOn (s : State) : SvcMsg → Bool
  | .cfmPass => true
  | .ccm mep _ level _ _ _ => decide ((cfgOf s).valN Kind.mep mep Fld.mpLevel < level)
  | .probe value _ _ _ => value != s.svc.probeValue
  | _ => false

/-- A frame that is not the service's own goes on by the tables. -/
def passOn (c : Cfg) (die : DieId) (f : Frame) (s : State) : State :=
  let pipe := match f.dir with
    | .up => upPipe f.ingress
    | .down => f.ingress / 8 % 4
  forward { die := die, dir := f.dir, cfg := c, stitch := f.stitch, frame := f, pipe := pipe } none false s

/-- What a service does with the frame it has taken, under the configuration of the frame's stitch. -/
def serve_ (c : Cfg) (die : DieId) (f : Frame) (msg : SvcMsg) (s : State) : State :=
  let bad := bump 4 (objTenant die f.tenant) Cn.relayBad 1
  match msg with
  | .dhcp4Client present => relayInsert c die f present Relay.insert82 Relay.replace82 (option82 s c die f) s
  | .dhcp4Server flow => relayDown flow f (Config.relayBytes Relay.remove82 f.bytes []) s
  | .dhcp6Client => relayUp die f (Config.relayBytes Relay.wrap f.bytes (relayOptions s c die f)) s
  | .dhcp6RelayForward => bad s
  | .dhcp6RelayReply none => bad s
  | .dhcp6RelayReply (some flow) =>
    if c.has Kind.flow flow then relayDown flow f (Config.relayBytes Relay.unwrap f.bytes []) s else bad s
  | .pppoeUp code present =>
    if padUp code then relayInsert c die f present Relay.insertTag Relay.replaceTag (vendorTag s c die f) s
    else toNetwork die f.tenant f.cls f.bytes s
  | .pppoeDown flow code =>
    relayDown flow f (if padDown code then Config.relayBytes Relay.removeTag f.bytes [] else f.bytes) s
  | .mcastReport joins leaves => report c die f joins leaves s
  | .mcastNetQuery =>
    let vid := outerTag c die f % 4096
    toNetwork die f.tenant 0 (Config.serviceBytes Svc.currentState (f.tenant :: vid :: currentGroups s die f.tenant vid)) s
  | .ccm mep remote level interval maOk _ =>
    if (cfgOf s).has Kind.mep mep then ccmReceive mep remote level interval maOk s else s
  | .lbm mep txn => if (cfgOf s).has Kind.mep mep then sendFromMep mep (Config.serviceBytes Svc.lbr [mep, txn]) s else s
  | .ltm mep txn => if (cfgOf s).has Kind.mep mep then sendFromMep mep (Config.serviceBytes Svc.ltr [mep, txn]) s else s
  | .lbr mep rtt => seriesReply mep false rtt false s
  | .ltr mep ttl last => seriesReply mep true ttl last s
  | .cfmPass => s
  | .ptp domain => ptpTake f.ingress domain s
  | .probe value ch vid _ =>
    if value = s.svc.probeValue && f.dir == .up then loopDetected c die f ch vid s else s

/-- Take the first frame from a die's input queue. -/
def takeSvc (die : DieId) (s : State) : State :=
  match die with
  | .east => { s with svc := { s.svc with inE := s.svc.inE.drop 1 } }
  | .west => { s with svc := { s.svc with inW := s.svc.inW.drop 1 } }

/-- A frame at the head of the queue, of the class that brings such messages, is served. -/
def execServiceFrame (dt : Nat) (die : DieId) (msg : SvcMsg) (s : State) : Host.Outcome State Fault Refusal :=
  let s := tick dt s
  .next <|
    match svcQueue s die with
    | [] => s
    | x :: _ =>
      if (svcClass msg).contains x.cls then
        (if passesOn s msg then passOn else fun c die f => serve_ c die f msg)
          ((bankOf s die x.frame.stitch).getD (cfgOf s)) die x.frame
          (bump 4 (objTenant die x.frame.tenant) Cn.svcHandled 1 (takeSvc die s))
      else s

/-! ### Takeover (R251) -/

/-- The new holder's requests end with a takeover status, SERVICE_TAKEOVER is raised once and the remote-loss timers start. -/
def serviceTakeover (s : State) : State :=
  let ts := s.pon.terms.map (·.1)
  let s := forAll ts (fun t s => failDownload t swdlTakeover (failOmci t St.takeover s)) s
  let s := forAll s.svc.series (fun x => endSeries x St.takeover) s
  let s := { s with svc := { s.svc with remotes := s.svc.remotes.map (fun r => { r with last := s.now, lost := false })
                                        lastCcm := s.svc.lastCcm.mapVals (fun _ _ => s.now) } }
  raise Ev.serviceTakeover .east [] s

end Sys2Proof.Machine
end

