-- ==== Sys2Proof/Machine/Cipher.lean ====
section
/-! DEFINITION. The cipher lanes and their pools, the Key Cellar, terminal and broadcast keys, and the wrapped import (R252 to R281, R410). -/

namespace Sys2Proof.Machine
open Sys2Proof

/-- A superframe count has been reached. -/
def sfReached (s : State) (x : SF) : Bool := decide ((s.pon.sf - x).toNat < 2 ^ 50)

/-! ### Lanes and pools (R19, R256, R405, R410) -/

def quarantinedLane (s : State) (l : Nat) : Bool := s.ciph.quarantined.contains l

/-- The 96 lanes of a die and its 12 pools. -/
def dieLanes (d : DieId) : List Nat := (List.range 96).map (· + 96 * dieNum d)
def diePools (d : DieId) : List Nat := (List.range 12).map (· + 12 * dieNum d)
def poolLanes (p : Nat) : List Nat := (List.range 8).map (· + 8 * p)

def poolDie (p : Nat) : DieId := dieOf (p / 12)

/-- The lanes of a die that compute: not in quarantine. -/
def serviceableLanes (s : State) (d : DieId) : List Nat := (dieLanes d).filter fun l => !quarantinedLane s l

/-- The placed load of a die, in percent of one lane. -/
def dieLoad (s : State) (d : DieId) : Nat := ((dieLanes d).map fun l => s.ciph.loads.getD l 0).sum

/-- The pools of a die in a state. -/
def poolsIn (s : State) (d : DieId) (st : Ladder) : List Nat := (diePools d).filter fun p => (cpoolOf s p).st == st

/-- The capacity of pools, in percent of one lane. -/
def poolsCapacity (s : State) (ps : List Nat) : Nat :=
  100 * ((ps.flatMap poolLanes).filter fun l => !quarantinedLane s l).length

/-- The objects placed on a lane. -/
def placedOn (s : State) (l : Nat) : Nat := (s.stitch.places.filter fun p => p.moving.getD p.loc == locLane l).length

/-- The lanes where placement may put an object: serviceable, in a Run pool, not forbidden, with the fewest objects of those with
the most free capacity. -/
def laneChoices (s : State) (d : DieId) (forbid : List Nat) : List Nat :=
  let l := (serviceableLanes s d).filter fun l => (cpoolOf s (l / 8)).st == .run && !forbid.contains (locLane l)
  let load := (l.map fun x => s.ciph.loads.getD x 0).foldl min 1000
  let l := l.filter fun x => s.ciph.loads.getD x 0 == load
  let n := (l.map (placedOn s)).foldl min 1000000
  l.filter fun x => placedOn s x == n

/-- A pool wakes towards a state. -/
def wakePool (p : Nat) (dst : Ladder) (s : State) : State :=
  modCpool p (fun x => { x with waking := some (dst, s.now + exitTime x.st), spareSince := none }) s

/-- The pools of a die in a state that no wake is under way for. -/
def restingIn (s : State) (d : DieId) (st : Ladder) : List Nat := (poolsIn s d st).filter fun p => (cpoolOf s p).waking.isNone

/-- A Nap pool is brought to Run, and the lowest Sleep pool to Nap in its place (R410). -/
def wakeNap (d : DieId) (p : Nat) (s : State) : State :=
  let s := wakePool p .run s
  match (restingIn s d .sleep).head? with
  | none => s
  | some q => wakePool q .nap s

/-- Bring the lowest-numbered pool of a die that is not in Run back to Run. -/
def wakeLowest (d : DieId) (s : State) : State :=
  match ((diePools d).filter fun p => (cpoolOf s p).st != .run && (cpoolOf s p).waking.isNone).head? with
  | none => s
  | some p => if (cpoolOf s p).st = .nap then wakeNap d p s else wakePool p .run s

/-- A Run pool can be spared: the others but one carry the placed load at 80 %. -/
def spareable (s : State) (p : Nat) : Bool :=
  let d := poolDie p
  let rest := (poolsIn s d .run).erase p
  (cpoolOf s p).st == .run && rest.any fun q => decide (100 * dieLoad s d ≤ 80 * poolsCapacity s (rest.erase q))

/-- Keep the time since when each pool of a die could be spared. -/
def noteSpare (d : DieId) (s : State) : State :=
  forAll (diePools d) (fun p s =>
    let ok := spareable s p
    modCpool p (fun x => { x with spareSince := if ok then some (x.spareSince.getD s.now) else none }) s) s

/-- What the placed load of a die asks for: more pools in Run above 85 %, CIPHER_CAPACITY_LOW above 95 % of its serviceable
lanes. -/
def settleLoad (d : DieId) (s : State) : State :=
  let load := dieLoad s d
  let s := doIf (decide (85 * poolsCapacity s (poolsIn s d .run) < 100 * load)) (wakeLowest d) s
  noteSpare d (doIf (decide (95 * (100 * (serviceableLanes s d).length) < 100 * load))
    (raiseLimited Ev.cipherCapacityLow d (dieNum d) (Time.sec 1) [.u8 (dieNum d)]) s)

/-- The objects on a lane that a load-driven move may take: unpinned, not moving, touched by no pending stitch (R23). -/
def movableOn (s : State) (l : Nat) : List Place :=
  s.stitch.places.filter fun p =>
    p.loc == locLane l && p.moving.isNone && !touched s p.kind p.num && (objOr (cfgOf s) p.kind p.num).pin.isNone

/-- Move one object from its lane to another for load; none when no lane may take it. -/
def moveForLoad (p : Place) (s : State) : State :=
  let o := objOr (cfgOf s) p.kind p.num
  match pick (laneChoices s (dieOfLoc p.loc) (p.loc :: o.forbid)) s with
  | none => s
  | some l => startMove p (locLane l) false (drawn s)

/-- A sample of a lane's placed load. Above 90 % for 10 ms, one of the lane's objects moves to the lane with most free capacity. -/
def execCipherLoadRebalance (dt : Nat) (lane loadPercent : Nat) (s : State) : Host.Outcome State Fault Refusal :=
  let s := tick dt s
  let since := if 90 < loadPercent then some (s.ciph.loadSince.getD lane s.now) else none
  let s := { s with ciph := { s.ciph with
    loads := s.ciph.loads.set lane loadPercent
    loadSince := match since with
      | some t => s.ciph.loadSince.set lane t
      | none => s.ciph.loadSince.del lane } }
  let s := settleLoad (dieOfLane lane) s
  .next <|
    match since, (movableOn s lane).head? with
    | some t, some p =>
      if t + Time.ms 10 ≤ s.now then
        moveForLoad p { s with ciph := { s.ciph with loadSince := s.ciph.loadSince.set lane s.now } }
      else s
    | _, _ => s

/-- Every object of a pool can be moved away for load. -/
def poolEmptiable (s : State) (p : Nat) : Bool :=
  (poolLanes p).all fun l => (movableOn s l).length == (s.stitch.places.filter fun x => x.moving.getD x.loc == locLane l).length

/-- A Run pool that could be spared for 1 s is emptied and put in Nap. -/
def execCipherPoolNap (dt : Nat) (pool : Nat) (s : State) : Host.Outcome State Fault Refusal :=
  let s := noteSpare (poolDie pool) (tick dt s)
  .next <|
    match (cpoolOf s pool).spareSince with
    | none => s
    | some t =>
      if decide (t + Time.sec 1 ≤ s.now) && poolEmptiable s pool then
        let hit := (poolLanes pool).flatMap (movableOn s)
        let s := modCpool pool (fun x => { x with st := .nap, napSince := s.now, spareSince := none }) s
        noteSpare (poolDie pool) (forAll hit moveForLoad s)
      else s

/-- A pool unused in Nap for 60 s goes to Sleep while another pool of the die stays in Nap. -/
def execCipherPoolSleep (dt : Nat) (pool : Nat) (s : State) : Host.Outcome State Fault Refusal :=
  let s := tick dt s
  let x := cpoolOf s pool
  .next <|
    if x.st == .nap && x.waking.isNone && decide (x.napSince + Time.sec 60 ≤ s.now)
        && decide (2 ≤ (restingIn s (poolDie pool) .nap).length) then
      modCpool pool (fun y => { y with st := .sleep }) s
    else s

/-- A pool's wake is complete. -/
def poolAwake (p : Nat) (s : State) : State :=
  match (cpoolOf s p).waking with
  | none => s
  | some (dst, at_) =>
    if at_ ≤ s.now then noteSpare (poolDie p) (modCpool p (fun x => { x with st := dst, napSince := s.now, waking := none }) s) else s

/-! ### CIPHER_LANE_FAULT (R257, R258, R322) -/

/-- Count a discarded or stomped item in the die's cipher-fault counter. -/
def countItem (d : DieId) (s : State) : State := bump 0 (dieNum d) Cn.cipherFaults 1 s

/-- The fate of the item that a lane was computing (Table 10.2). -/
def itemFate (d : DieId) (item : CipherItem) (s : State) : State :=
  match item with
  | .downNotHanded _ => countItem d s
  | .downPartSent ch => countItem d (finishCut ch true false s)
  | .upXgem _ => countItem d s
  | .macsecTx _ => countItem d s
  | .macsecRx a cut =>
    match cut with
    | some ch => countItem d (finishCut ch true true s)
    | none => countItem d (countIcv a s)
  | .message => countItem d s
  | .key => s

/-- A fault moves an object to another lane of its die; without room in the Run pools a Nap pool is woken and takes it. -/
def moveForFault (p : Place) (s : State) : State :=
  let d := dieOfLoc p.loc
  let forbid := (objOr (cfgOf s) p.kind p.num).forbid
  let go : Nat → State → State := fun l s => startMove p (locLane l) true (breakPin p.kind p.num p.loc (locLane l) (drawn s))
  match pick (laneChoices s d forbid) s with
  | some l => go l s
  | none =>
    let napping := ((diePools d).filter fun q => (cpoolOf s q).st == .nap).flatMap poolLanes
    match napping.find? fun l => !quarantinedLane s l && !forbid.contains (locLane l) with
    | none => s
    | some l => go l (doIf (cpoolOf s (l / 8)).waking.isNone (wakeNap d (l / 8)) s)

def execCipherLaneFault (dt : Nat) (lane : Nat) (item : CipherItem) (yieldIn : Bool) (s : State) :
    Host.Outcome State Fault Refusal :=
  let s := tick dt s
  let d := dieOfLane lane
  .next <|
    if quarantinedLane s lane then s
    else
      let s := { s with ciph := { s.ciph with quarantined := lane :: s.ciph.quarantined, loads := s.ciph.loads.del lane,
                                              loadSince := s.ciph.loadSince.del lane } }
      let s := raise Ev.cipherLaneFault d [.u8 lane] (bump 9 lane Cn.laneFaults 1 s)
      let hit := s.stitch.places.filter fun p => p.moving.getD p.loc == locLane lane
      let s := settleLoad d (forAll hit moveForFault (itemFate d item s))
      if (serviceableLanes s d).length < 88 then policyFinding Fld.devYieldCipher Cause.cipherCapacity yieldIn s
      else { s with twin := { s.twin with yieldIn := yieldIn } }

/-! ### Terminal key exchanges (R264 to R268, R281) -/

/-- The data key of an exchange's index is loaded. -/
def exchangeLoaded (s : State) (t : Nat) : Bool :=
  match (termOf s t).exch with
  | none => false
  | some e => (keyOf s (dieOfTerm s t) slotData t e.index).st == .loaded

/-- A refresh falls due; during an exchange it is dropped. The standby never starts an exchange. -/
def execKeyRefresh (dt : Nat) (term : Nat) (s : State) : Host.Outcome State Fault Refusal :=
  let s := tick dt s
  let x := termOf s term
  .next <|
    if s.twin.held && x.st == .operational && decide (x.nextRefresh ≤ s.now) && x.exchRetryAt.isNone
        && (currentIndex s (dieOfTerm s term) slotData term).isSome then
      startExchange term s
    else s

/-- Both fragments of a Key_Report are there: their bytes in order. -/
def wholeReport (l : List (Nat × List Byte)) : Option (List Byte) := do
  let a ← l.find? fun p => p.1 == 0
  let b ← l.find? fun p => p.1 == 1
  return a.2 ++ b.2

/-- A Key_Report fragment; with the last one the key is decrypted into the DATA slot, becomes LOADED and is confirmed. -/
def keyReport (t fragment : Nat) (bytes : List Byte) (e : Exchange) (s : State) : State :=
  let frags := (e.fragments.filter fun p => p.1 != fragment) ++ [(fragment, bytes)]
  let s := modTerm t (fun x => { x with exch := some { e with fragments := frags } }) s
  match wholeReport frags with
  | none => s
  | some b =>
    let die := dieOfTerm s t
    let key := Config.openKeyReport (keyOf s die slotExchange t 1).bytes b
    let s := modKey die slotData t e.index (fun _ => { st := .loaded, bytes := key, loadedSf := s.pon.sf }) s
    sendTo t (fun o => .keyControl o true e.index)
      (sendKey die slotData t e.index (modTerm t (fun x => { x with needPloamu := false }) s))

def execKeyReport (dt : Nat) (term fragment : Nat) (key : List Byte) (s : State) : Host.Outcome State Fault Refusal :=
  let s := tick dt s
  .next <|
    match (termOf s term).exch with
    | none => s
    | some e => if !s.twin.held || exchangeLoaded s term then s else keyReport term fragment key e s

/-- A report stays incomplete for 3 s: the exchange is tried again up to 3 times, then KEY_EXCHANGE_FAILED and a pause of 10 s. -/
def execKeyReportTimeout (dt : Nat) (term : Nat) (s : State) : Host.Outcome State Fault Refusal :=
  let s := tick dt s
  .next <|
    match (termOf s term).exch with
    | none => s
    | some e =>
      if !s.twin.held || exchangeLoaded s term || decide (s.now < e.startedAt + Time.sec 3) then s
      else if e.tries < 3 then
        sendTo term (fun o => .keyControl o false e.index)
          (modTerm term (fun x => { x with exch := some { e with tries := e.tries + 1, startedAt := s.now, fragments := [] } }) s)
      else
        raise Ev.keyExchangeFailed (dieOfTerm s term) [.u16 term]
          (bump 10 term Cn.keyFails 1
            (modTerm term (fun x => { x with exch := none, exchRetryAt := some (s.now + Time.sec 10), needPloamu := false }) s))

def execKeyExchangeRetry (dt : Nat) (term : Nat) (s : State) : Host.Outcome State Fault Refusal :=
  let s := tick dt s
  .next <|
    match (termOf s term).exchRetryAt with
    | none => s
    | some at_ => if s.twin.held && decide (at_ ≤ s.now) then startExchange term s else s

/-- The other of two key indices. -/
def otherIndex (i : Nat) : Nat := if i = 2 then 1 else 2

/-- An index becomes CURRENT and the other one RETIRED. -/
def makeCurrent (die : DieId) (kind owner i : Nat) (s : State) : State :=
  let s := modKey die kind owner i (fun k => { k with st := .current, since := s.pon.sf }) s
  let s := modKey die kind owner (otherIndex i) (fun k => if k.st = .free then k else { k with st := .retired }) s
  sendKey die kind owner (otherIndex i) (sendKey die kind owner i s)

/-- Eight frames after the confirm's, downstream uses the new index; the exchange is complete. -/
def execKeySwitch (dt : Nat) (term : Nat) (s : State) : Host.Outcome State Fault Refusal :=
  let s := tick dt s
  .next <|
    match (termOf s term).exch, (termOf s term).switchAt with
    | some e, some at_ =>
      if sfReached s at_ then
        let s := makeCurrent (dieOfTerm s term) slotData term e.index s
        askVersion term (modTerm term (fun x =>
          { x with exch := none, switchAt := none, clearAt := some (s.pon.sf + 8000), keySpent := false,
                   ctxLost := false, nextRefresh := s.now + refreshPeriod s term }) s)
      else s
    | _, _ => s

/-- 8,000 frames later the other index is cleared. -/
def execKeyClear (dt : Nat) (term : Nat) (s : State) : Host.Outcome State Fault Refusal :=
  let s := tick dt s
  .next <|
    match (termOf s term).clearAt, currentIndex s (dieOfTerm s term) slotData term with
    | some at_, some i =>
      if sfReached s at_ then
        let d := dieOfTerm s term
        sendKey d slotData term (otherIndex i)
          (clearKey d slotData term (otherIndex i) (modTerm term (fun x => { x with clearAt := none }) s))
      else s
    | _, _ => s

/-! ### The scheduler's frame at its cipher lane (R164, R275) -/

/-- The context that a frame needs: its terminal's, or its channel's broadcast key; OMCI goes in clear. -/
def frameContext (s : State) (ch : Nat) (f : Frame) : Option (Nat × Nat) :=
  match f.kind with
  | .flow n => some (slotData, flowTerm s n)
  | .mcast => some (slotBroadcast, bcastOwner ch f.tenant)
  | .omci _ _ => none
  | .other => none

/-- The context of a frame is lost: a terminal's is rebuilt by a fresh exchange, and a broadcast key is refreshed at once. -/
def frameContextLost (die : DieId) (kind owner : Nat) (s : State) : State :=
  if kind = slotData then contextLost die owner s
  else
    raise Ev.contextIntegrity die [.u32 owner] { s with ciph := { s.ciph with bcastNext := s.ciph.bcastNext.set owner s.now } }

/-- The scheduler hands on one XGEM frame. Nothing is chosen while a cut-through frame is under way, or where the frame would
still be in transmission at a timed frame's offset; a frame whose context fails its reload stays in its queue. -/
def execSchedulerDequeue (dt : Nat) (ch : Nat) (ctx : CtxIn) (s : State) : Host.Outcome State Fault Refusal :=
  let s := tick dt s
  .next <|
    if !sendsFrames s ch || (chOf s ch).cut.isSome || (contenders s ch).isEmpty then s
    else
      let r := chooseFrame ch s
      match headFrame (queueOf s r.2.1) with
      | none => s
      | some f =>
        if collides s ch f then s
        else
          let s' := spillCtx ctx r.2.2.2
          match frameContext s ch f with
          | none => dequeue ch r.1 r.2.1 r.2.2.1 s'
          | some (k, o) =>
            if ctxGood s k o ctx then dequeue ch r.1 r.2.1 r.2.2.1 s'
            else frameContextLost (dieOfChannel ch) k o (spillCtx ctx s)

/-! ### Spent keys (R267, R269) -/

/-- A lifetime in superframes: 2³², or a tenant's hard lifetime when one is set. -/
def lifeOf (s : State) (tenants : List Nat) : Nat :=
  ((tenants.map fun t => (cfgOf s).valN Kind.tenant t Fld.tnHardLifeH).filter fun h => h != 0).foldl
    (fun a h => min a (h * 3600 * 8000)) (2 ^ 32)

/-- The key that is CURRENT for an owner has reached its lifetime, less a margin. -/
def spentIndex (s : State) (die : DieId) (kind owner life margin : Nat) : Option Nat :=
  (currentIndex s die kind owner).bind fun i =>
    let k := keyOf s die kind owner i
    if !k.spent && decide (life ≤ (s.pon.sf - k.since).toNat + margin) then some i else none

def markSpent (die : DieId) (kind owner i : Nat) (s : State) : State := modKey die kind owner i (fun k => { k with spent := true }) s

def termTenants (s : State) (t : Nat) : List Nat := (termTenantFlows s t).map fun o => (cfgOf s).valN Kind.flow o.num Fld.flTenant

def execKeySpent (dt : Nat) (broadcast : Bool) (owner : Nat) (s : State) : Host.Outcome State Fault Refusal :=
  let s := tick dt s
  .next <|
    if broadcast then
      let d := dieOfChannel (owner / 64)
      match spentIndex s d slotBroadcast owner (lifeOf s [owner % 64]) 0 with
      | none => s
      | some i => raise Ev.keySpent d [.u8 (owner % 64), .u16 (owner / 64)] (markSpent d slotBroadcast owner i s)
    else
      let d := dieOfTerm s owner
      match spentIndex s d slotData owner (lifeOf s (termTenants s owner)) 0 with
      | none => s
      | some i =>
        raise Ev.keySpent d [.u16 owner] (modTerm owner (fun x => { x with keySpent := true }) (markSpent d slotData owner i s))

/-! ### Broadcast keys (R269) -/

/-- A tenant has a channel leg on a channel. -/
def hasLeg (s : State) (tenant ch : Nat) : Bool :=
  let c := cfgOf s
  ((c.liveOf Kind.leg).any fun o =>
    c.valN Kind.leg o.num Fld.lgKind == 0 && c.valN Kind.leg o.num Fld.lgValue == ch
      && c.valN Kind.group (c.valN Kind.leg o.num Fld.lgGroup) Fld.grTenant == tenant)
    || s.svc.groups.any fun x => x.tenant == tenant && x.legs.contains ch

/-- The members: OPERATIONAL terminals of the channel with a subscriber node of the tenant. -/
def bcastMembers (s : State) (tenant ch : Nat) : List Nat :=
  (opTerms s ch).filter fun t => (cfgOf s).live Kind.subscriber (64 * t + tenant)

def bcastOf? (s : State) (tenant ch : Nat) : Option Bcast := s.ciph.bcasts.find? fun b => b.tenant == tenant && b.ch == ch

/-- A refresh is due: no key is loaded yet, the period is over, or the key is spent within 10 min. -/
def bcastDue (s : State) (tenant ch : Nat) : Bool :=
  let d := dieOfChannel ch
  let owner := bcastOwner ch tenant
  s.twin.held && hasLeg s tenant ch && (bcastOf? s tenant ch).isNone
    && ((currentIndex s d slotBroadcast owner).isNone
      || (match s.ciph.bcastNext.find? owner with | none => false | some t => decide (t ≤ s.now))
      || (spentIndex s d slotBroadcast owner (lifeOf s [tenant]) (600 * 8000)).isSome)

/-- Generate a broadcast key and distribute it to the members. -/
def bcastRefresh (tenant ch : Nat) (s : State) : State :=
  let d := dieOfChannel ch
  let owner := bcastOwner ch tenant
  let i := if currentIndex s d slotBroadcast owner = some 1 then 2 else 1
  let key := beBytes 16 (Config.random s.draw)
  let members := bcastMembers s tenant ch
  let s := modKey d slotBroadcast owner i (fun _ => { st := .loaded, bytes := key, loadedSf := s.pon.sf }) (drawn s)
  let s := { s with ciph := { s.ciph with
    bcasts := s.ciph.bcasts ++ [⟨tenant, ch, i, s.now, members⟩]
    bcastNext := s.ciph.bcastNext.set owner (s.now + Time.sec (3600 * (cfgOf s).valN Kind.tenant tenant Fld.tnBcastH)) } }
  sendKey d slotBroadcast owner i (forAll members (fun t => sendBcastKey t tenant i key) s)

def execBroadcastKeyRefresh (dt : Nat) (tenant ch : Nat) (s : State) : Host.Outcome State Fault Refusal :=
  let s := tick dt s
  .next (if bcastDue s tenant ch then bcastRefresh tenant ch s else s)

/-- The members that have not acknowledged, of those that are still members. -/
def lagging (s : State) (b : Bcast) : List Nat := b.waiting.filter fun t => (bcastMembers s b.tenant b.ch).contains t

/-- The new index becomes CURRENT when every member has acknowledged, or 10 s after distribution began; BROADCAST_KEY_LAGGING
names each member that had not. -/
def execBroadcastKeySwitch (dt : Nat) (tenant ch : Nat) (s : State) : Host.Outcome State Fault Refusal :=
  let s := tick dt s
  .next <|
    match bcastOf? s tenant ch with
    | none => s
    | some b =>
      let late := lagging s b
      if late.isEmpty || decide (b.startedAt + Time.sec 10 ≤ s.now) then
        let d := dieOfChannel ch
        let got := (bcastMembers s tenant ch).filter fun t => !late.contains t
        let s := forAll late (fun t => raise Ev.broadcastKeyLagging d [.u16 t]) s
        let s := forAll got (fun t => modTerm t fun x =>
          { x with bcastGot := if x.bcastGot.contains tenant then x.bcastGot else tenant :: x.bcastGot }) s
        makeCurrent d slotBroadcast (bcastOwner ch tenant) b.index
          { s with ciph := { s.ciph with bcasts := s.ciph.bcasts.filter fun x => !(x.tenant == tenant && x.ch == ch) } }
      else s

/-! ### KEY_SLOT_FAULT (R262) -/

/-- What the loss of a slot's keys leads to, by its kind. -/
def keysLost (d : DieId) (x : KeySlot) (s : State) : State :=
  if x.kind = slotSak then stopAssoc (x.owner / 36) x.owner s
  else if x.kind = slotBroadcast then
    { s with ciph := { s.ciph with bcastNext := s.ciph.bcastNext.set x.owner s.now } }
  else if x.kind = slotSeam then s
  else
    let s := doIf (x.kind != slotData && (termOf s x.owner).st == .operational && dieOfTerm s x.owner == d) (deriveKeys x.owner) s
    if s.twin.held then startExchange x.owner (abandonExchange x.owner s) else s

def execKeySlotFault (dt : Nat) (die : DieId) (slot : Nat) (copyOk : Bool) (s : State) : Host.Outcome State Fault Refusal :=
  let s := tick dt s
  let k := slotKey die slot
  .next <|
    match s.ciph.slots.find? k with
    | none => s
    | some x =>
      if copyOk then
        let n := freeSlot s die
        raise Ev.keySlotFault die [.u8 (dieNum die), .u32 slot, .u32 (n % Config.keySlots)]
          (modSlots (fun t => (t.del k).set n x) s)
      else
        keysLost die x (raise Ev.keySlotLost die [.u8 (dieNum die), .u32 slot] (modSlots (fun t => t.del k) s))

/-! ### KEY_IMPORT (R270 to R273) -/

/-- The check value of a key: the first 24 bits of AES-CMAC of 16 zero bytes (R261). -/
def checkValue (key : List Byte) : Nat := beNat (fitTo 3 (Config.cmac key (List.replicate 16 0)))

/-- The key that unwraps a record: the transport key for an import key, else the import key. -/
def unwrapKey (s : State) (r : List Byte) : Option (List Byte) :=
  if wkKind r = 1 then some Config.transportKey else s.ciph.importKey

/-- The key that a record carries, when nothing of R272's list refuses it. -/
def unwrap (s : State) (r : List Byte) : Option (List Byte) :=
  let n := wkLength r
  match unwrapKey s r with
  | none => none
  | some k =>
    match Config.gcmOpen k (wkNonce r) (wkAad r) (wkWrapped r) (wkTag r) with
    | none => none
    | some b =>
      let fresh := wkKind r == 1 || (match s.ciph.lastSequence with | none => true | some x => decide (x < wkSequence r))
      if wkVersion r == 1 && decide (1 ≤ wkKind r ∧ wkKind r ≤ 4) && (n == 16 || n == 32) && wkSerial r == Config.unitSerial.toNat
          && fresh && (b.drop n).all (· == 0) then
        some (fitTo n b)
      else none

/-- A record is accepted: its sequence counts from now on. -/
def acceptedRec (r : List Byte) (s : State) : State := { s with ciph := { s.ciph with lastSequence := some (wkSequence r) } }

/-- The slot of an owner, as a reply names it. -/
def slotNum (s : State) (d : DieId) (kind owner : Nat) : Nat := ((slotFor? s d kind owner).getD 0) % Config.keySlots

/-- The bytes of a SAK that a port's suite asks for. -/
def sakBytes (s : State) (port : Nat) : Nat := if (cfgOf s).valN Kind.subport port Fld.spSuite % 2 = 0 then 16 else 32

/-- Load a SAK: the association starts afresh. -/
def loadSak (r key : List Byte) (s : State) : Served :=
  let a := wkAssoc r
  let port := a / 36
  let d := dieOfPort port
  if !(cfgOf s).has Kind.subport port then fail St.handle s
  else if key.length != sakBytes s port then fail St.parameter s
  else if assocUsable s port a then fail St.busy s
  else
    let s := modKey d slotSak a 1 (fun _ => { st := .loaded, bytes := key, loadedSf := s.pon.sf }) (acceptedRec r s)
    let s := modAssoc a (fun _ => {}) s
    .done { result := [slotNum s d slotSak a, checkValue key] } s

def importRecord (r : List Byte) (s : State) : Served :=
  match unwrap s r with
  | none => fail St.keyWrap (raise Ev.keyImportFail .east [] s)
  | some key =>
    match wkKind r with
    | 1 => .done { result := [0xFFFFFFFF, checkValue key] }
        { s with ciph := { s.ciph with importKey := some key, lastSequence := none } }
    | 2 =>
      let t := wkBinding r % 65536
      let d := dieOfTerm s t
      if !(cfgOf s).has Kind.terminal t then fail St.handle s
      else
        let s := modKey d slotExchange t 2 (fun _ => { st := .loaded, bytes := key, loadedSf := s.pon.sf }) (acceptedRec r s)
        let s := modTerm t (fun x => { x with msk := some key }) s
        .done { result := [slotNum s d slotExchange t, checkValue key] } s
    | 3 => loadSak r key s
    | _ =>
      let s := modKey .east slotSeam 0 1 (fun _ => { st := .loaded, bytes := key, loadedSf := s.pon.sf }) (acceptedRec r s)
      .done { result := [slotNum s .east slotSeam 0, checkValue key] } { s with ciph := { s.ciph with pairingKey := some key } }

def execKeyImport (dt : Nat) (h : Hdr) (record : List Byte) (s : State) : Host.Outcome State Fault Refusal :=
  .next <| hostCmd dt Op.keyImport h (fun s => if record.length != 84 then fail St.parameter s else importRecord record s) s

end Sys2Proof.Machine
end

