-- ==== Sys2Proof/Machine/TimeBase.lean ====
section
/-! DEFINITION. The time bases with their states, samples and jumps, PTP, pulses, recovered clocks and time of day to terminals (R282 to R301). -/

namespace Sys2Proof.Machine
open Sys2Proof

/-- Nanoseconds and picoseconds in units of 2⁻¹⁶ ns. -/
def u16 (ns : Int) : Int := ns * 65536
def ofPs (ps : Int) : Int := ps * 65536 / 1000
/-- A number of units as whole nanoseconds, in 64 bits. -/
def nsArg (v : Int) : Arg := .u64 ((v / 65536) % 2 ^ 64).toNat
def second16 : Int := u16 (10 ^ 9)

def tbVal (s : State) (n fld : Nat) : Int := (cfgOf s).val Kind.timeBase n fld
def tbValN (s : State) (n fld : Nat) : Nat := (cfgOf s).valN Kind.timeBase n fld

/-! ### Sources and states (R283, R284, R320) -/

/-- The source in force: while paired, a standby's bases take the SEAM. -/
def sourceOf (s : State) (n : Nat) : Nat × Nat :=
  if s.twin.paired && isStandby s then (3, 0) else ((baseOf s n).source, (baseOf s n).sourceArg)

/-- Copy a base whose source is another base from it, with the host-set offset (R283). -/
def copyBase (n : Nat) (s : State) : State :=
  let src := sourceOf s n
  if src.1 = 4 then
    let b := baseOf s src.2
    modBase n (fun x => { x with refNow := b.refNow, refVal := b.refVal + u16 (1000000 * tbVal s n Fld.tbCopyMs), rate := b.rate }) s
  else s

/-- Bring the copies up to date, along every chain. -/
def settleCopies (s : State) : State := forAll (List.range 8) (fun _ s => forAll (List.range 8) copyBase s) s

/-- The mean of a base's rates over the last 60 s of LOCKED. -/
def meanRate (b : TimeBase) : Int := if b.rates.isEmpty then b.rate else meanInt (b.rates.map (·.2))

/-- Give a base a rate from now on, with its value unchanged. -/
def setRate (r : Int) (now : Time) (b : TimeBase) : TimeBase := { b with refVal := baseVal b now, refNow := now, rate := r }

/-- States that hold the frequency. -/
def holdsRate (st : BaseState) : Bool := st == .holdover || st == .jumpHeld || st == .freeRun

/-- A base enters a state; a change raises TIME_STATE. -/
def setBase (n : Nat) (st : BaseState) (s : State) : State :=
  let old := (baseOf s n).st
  if old = st then s
  else
    let s := modBase n (fun b =>
      let b := if holdsRate st && !holdsRate old then { setRate (meanRate b) s.now b with rates := [] } else b
      { b with st := st, inLimitSince := none, beyond := if st = .acquiring then [] else b.beyond,
               everLocked := b.everLocked || st == .locked,
               holdSince := if st = .holdover ∨ st = .jumpHeld then some (b.holdSince.getD s.now)
                            else if st = .freeRun then b.holdSince else none }) s
    settleCopies (raise Ev.timeState .east [.u8 n, .u8 (baseStNum old), .u8 (baseStNum st)] s)

/-- The terminals of the trees bound to a base are due a time-of-day set (R300). -/
def todDueOf (n : Nat) (s : State) : State :=
  forAll (s.pon.terms.map (·.1)) (fun t s =>
    if (cfgOf s).valN Kind.tree (termTree s t) Fld.treeBase = n then modTerm t (fun x => { x with todDue := s.now }) s else s) s

/-- After a forward step, the entries of port launch lists whose time now lies in the past are dropped (R297). -/
def dropPassed (n : Nat) (s : State) : State :=
  forAll (List.range 64) (fun p s =>
    let k := launchKey true p
    let l := s.q.launches.getD k []
    let passed : Launch → Bool := fun e => e.base == n && decide ((e.time : Int) < baseVal (baseOf s n) s.now)
    let s := { s with q := { s.q with launches := s.q.launches.put [] k (l.filter fun e => !passed e) } }
    forAll (l.filter passed) (fun e => launchDrop e true p 1) s) s

/-- A base is another one, or copies it along a chain of at most `fuel` bases (R283). -/
def follows_ (s : State) (n : Nat) : Nat → Nat → Bool
  | 0, m => m == n
  | fuel + 1, m => m == n || ((sourceOf s m).1 == 4 && follows_ s n fuel (sourceOf s m).2)

/-- A base steps by an amount, and with it the bases that copy it. -/
def stepBase (n : Nat) (step : Int) (s : State) : State :=
  let s := settleCopies (modBase n (fun b => { b with refVal := b.refVal + step }) s)
  forAll ((List.range 8).filter (follows_ s n 8)) todDueOf
    (doIf (decide (0 < step)) (fun s => settlePans (forAll (List.range 8) dropPassed s)) s)

/-! ### Samples (R289, R294, R296) -/

/-- The servo's rate within its limits: ±200 ppm; a base on the Ethernet reference leaves the counter's rate only to slew (R283,
R289). -/
def clampRate (s : State) (n : Nat) (r : Int) : Int :=
  let ppb := if tbValN s n Fld.tbFreq = 1 then min 200000 (100 * tbValN s n Fld.tbSlew) else 200000
  let lim : Int := (ppb * 2 ^ 48 / 10 ^ 9 : Nat)
  max (-lim) (min lim r)

/-- A sample within the jump threshold is fed to the servo. -/
def feedServo (n : Nat) (off : Int) (s : State) : State :=
  let r := clampRate s n (Config.servoRate s.draw n off)
  let inLimit := decide (off.natAbs ≤ 65536 * tbValN s n Fld.tbLockNs)
  let st := (baseOf s n).st
  let s := drawn (modBase n (fun b =>
    { setRate r s.now b with
      beyond := [], fresh := false
      rates := if st = .locked then (b.rates.filter fun x => decide (s.now < x.1 + Time.sec 60)) ++ [(s.now, r)] else b.rates }) s)
  let s := if (st == .holdover || st == .freeRun || st == .jumpHeld) || ((baseOf s n).fresh && st != .acquiring)
    then setBase n .acquiring s else s
  settleCopies (modBase n (fun b =>
    { b with inLimitSince := if inLimit then some (b.inLimitSince.getD s.now) else none }) s)

/-- Two offsets agree within 100 ns. -/
def agree (a b : Int) : Bool := decide ((a - b).natAbs ≤ 100 * 65536)

/-- Samples agree with one another within 100 ns. -/
def allAgree (l : List Int) : Bool := l.all fun a => l.all fun b => agree a b

/-- One offset sample of a base. -/
def sample (n : Nat) (off : Int) (s : State) : State :=
  let b := baseOf s n
  if b.ignored then s
  else
    let s := modBase n (fun b => { b with lastSample := s.now, offset := off }) s
    if b.st = .unset then
      setBase n .acquiring (stepBase n off (modBase n (fun b => { b with fresh := false }) s))
    else
      match b.heldJump with
      | some h =>
        if agree off h then modBase n (fun b => { b with heldJump := some off }) s else bump 5 n Cn.outliers 1 s
      | none =>
        if off.natAbs ≤ 65536 * tbValN s n Fld.tbJumpNs then
          let s := if b.fresh && b.st != .acquiring then setBase n .acquiring s else s
          feedServo n off s
        else
          bump 5 n Cn.outliers 1 (modBase n (fun b => { b with beyond := (off :: b.beyond).take 8, inLimitSince := none }) s)

/-- The offset that the four stamps of an exchange give, in units of 2⁻¹⁶ ns: source less base, with the port's ingress and
egress delays and its asymmetry (R285, R289). -/
def offsetOf (s : State) (port : Nat) (t1 t2 t3 t4 correction : Int) : Int :=
  let v := (cfgOf s).val Kind.subport port
  let t2 := t2 - ofPs (v Fld.spIngressPs)
  let t3 := t3 + ofPs (v Fld.spEgressPs)
  ofPs (v Fld.spAsymPs) - ((t2 - t1) - (t4 - t3) - correction) / 2

def execSync (dt : Nat) (base : Nat) (t1 t2 t3 t4 correction : Int) (complete : Bool) (s : State) :
    Host.Outcome State Fault Refusal :=
  let s := tick dt s
  let src := sourceOf s base
  .next <|
    if src.1 != 1 || (cfgOf s).valN Kind.ptpPort src.2 Fld.ptState != 2 then s
    else if !complete then bump 5 base Cn.incomplete 1 s
    else sample base (offsetOf s src.2 t1 t2 t3 t4 correction) s

def execTimeLock (dt : Nat) (base : Nat) (s : State) : Host.Outcome State Fault Refusal :=
  let s := tick dt s
  .next <|
    match (baseOf s base).st, (baseOf s base).inLimitSince with
    | .acquiring, some t => if t + Time.sec 10 ≤ s.now then setBase base .locked s else s
    | _, _ => s

/-- Eight samples beyond the threshold that agree: the base holds their median as a jump (R294). -/
def execTimeJumpHeld (dt : Nat) (base : Nat) (s : State) : Host.Outcome State Fault Refusal :=
  let s := tick dt s
  let b := baseOf s base
  .next <|
    if b.beyond.length == 8 && allAgree b.beyond && b.heldJump.isNone then
      let m := medianInt b.beyond
      let s := modBase base (fun b => { b with heldJump := some m, beyond := [], fresh := false }) s
      setBase base .jumpHeld (raise Ev.timeJumpHeld .east [.u8 base, nsArg m] s)
    else s

/-- A base has lost its source. -/
def loseSource (n : Nat) (s : State) : State :=
  if (baseOf s n).st == .acquiring || (baseOf s n).st == .locked then setBase n .holdover s else s

def execHoldoverBudgetExpiry (dt : Nat) (base : Nat) (s : State) : Host.Outcome State Fault Refusal :=
  let s := tick dt s
  let b := baseOf s base
  .next <|
    match b.holdSince with
    | none => s
    | some t =>
      if (b.st == .holdover || b.st == .jumpHeld) && decide (t + Time.sec (60 * tbValN s base Fld.tbHoldMin) ≤ s.now) then
        setBase base .freeRun s
      else s

/-! ### Accept, refuse and set (R295 to R297) -/

/-- The next grid boundary at least 50 µs from now, and its superframe count. -/
def applyAt (s : State) : Time := boundaryFrom s (s.now + Time.us 50)
def sfAt (s : State) (t : Time) : SF := s.pon.sf + BitVec.ofNat 51 ((t - s.pon.gridAt) / Time.frame)

def execJumpAccept (dt : Nat) (h : Hdr) (base : Nat) (s : State) : Host.Outcome State Fault Refusal :=
  .next <| hostCmd dt Op.jumpAccept h (fun s =>
    if 8 ≤ base then fail St.handle s
    else
      match (baseOf s base).heldJump with
      | none => fail St.state s
      | some j =>
        let at_ := (baseOf s base).acceptAt.getD (applyAt s)
        let s := toStandby 0 (.hostEvent (.jumpAccept base (sfAt s at_) j)) s
        .done { result := [(sfAt s at_).toNat] } (modBase base (fun b => { b with acceptAt := some at_ }) s)) s

def execTimeJumpApplied (dt : Nat) (base : Nat) (s : State) : Host.Outcome State Fault Refusal :=
  let s := tick dt s
  let b := baseOf s base
  .next <|
    match b.heldJump, b.acceptAt with
    | some j, some t =>
      if t ≤ s.now then
        let s := stepBase base j (modBase base (fun b => { b with heldJump := none, acceptAt := none, beyond := [] }) s)
        setBase base .acquiring (bump 5 base Cn.jumps 1 (raise Ev.timeJumpApplied .east [.u8 base, nsArg j] s))
      else s
    | _, _ => s

/-- Discard a held jump; the source is ignored until a stitch names one again. -/
def refuseJump (n : Nat) (s : State) : State :=
  let s := modBase n (fun b => { b with heldJump := none, acceptAt := none, beyond := [], ignored := true }) s
  let s := raise Ev.timeJumpRefused .east [.u8 n] s
  if (baseOf s n).st = .jumpHeld then setBase n .holdover s else s

def execJumpRefuse (dt : Nat) (h : Hdr) (base : Nat) (s : State) : Host.Outcome State Fault Refusal :=
  .next <| hostCmd dt Op.jumpRefuse h (fun s =>
    if 8 ≤ base then fail St.handle s
    else if (baseOf s base).heldJump.isNone then fail St.state s
    else okay (toStandby 0 (.hostEvent (.jumpRefuse base)) (refuseJump base s))) s

def execTimeSet (dt : Nat) (h : Hdr) (base secs ns : Nat) (s : State) : Host.Outcome State Fault Refusal :=
  .next <| hostCmd dt Op.timeSet h (fun s =>
    if 8 ≤ base then fail St.handle s
    else if 10 ^ 9 ≤ ns || 2 ^ 48 ≤ secs then fail St.parameter s
    else
      let at_ := applyAt s
      let onlySecs := (sourceOf s base).1 == 2
      let v := secs * 10 ^ 9 + ns
      let s := toStandby 0 (.hostEvent (.timeSet base (sfAt s at_) v)) s
      .done { result := [(sfAt s at_).toNat] } (modBase base (fun b => { b with setAt := some (at_, v, onlySecs) }) s)) s

/-- The value that a time set gives a base at its boundary: whole, or only the seconds. -/
def setValue (b : TimeBase) (at_ : Time) (v : Nat) (onlySecs : Bool) : Int :=
  if onlySecs then ((v / 10 ^ 9 : Nat) : Int) * second16 + baseVal b at_ % second16 else u16 v

def execTimeSetApply (dt : Nat) (base : Nat) (s : State) : Host.Outcome State Fault Refusal :=
  let s := tick dt s
  let b := baseOf s base
  .next <|
    match b.setAt with
    | none => s
    | some (t, v, onlySecs) =>
      if t ≤ s.now then
        stepBase base (setValue b t v onlySecs - baseVal b t)
          (raise Ev.timeSet .east [.u8 base] (modBase base (fun b => { b with setAt := none, beyond := [] }) s))
      else s

/-! ### PTP (R287, R288) -/

/-- The clockClass that an instance announces (Table 11.2, R331). -/
def clockClass (s : State) (n : Nat) : Nat :=
  let b := baseOf s n
  match b.st with
  | .unset => 248
  | .acquiring => if b.unfit || b.everLocked then 135 else 248
  | .locked => tbValN s n Fld.tbClass
  | .holdover => 135
  | .jumpHeld => 135
  | .freeRun => 165

/-- A port belongs to the instance of a base, in a state: 1 MASTER, 2 SLAVE, 3 PASSIVE. -/
def ptpPortOf (s : State) (base port : Nat) : Nat :=
  if (cfgOf s).val Kind.ptpPort port Fld.ptBase = (base : Int) then (cfgOf s).valN Kind.ptpPort port Fld.ptState else 0

/-- Names a time base and a port. -/
def announceChange (base port : Nat) (s : State) : State := raise Ev.announceChange (dieOfPort port) [.u8 base, .u8 port] s

def setForeign (l : List Foreign) (s : State) : State := { s with time := { s.time with foreign := l } }

/-- An Announce: a record appears, changes or is refreshed; at most 8 are kept for each port. -/
def execAnnounce (dt : Nat) (base port master : Nat) (dataset : Nat) (s : State) : Host.Outcome State Fault Refusal :=
  let s := tick dt s
  let same : Foreign → Bool := fun f => f.base == base && f.port == port && f.master == master
  let new : Foreign := ⟨base, port, master, dataset, s.now⟩
  .next <|
    if ptpPortOf s base port = 0 then bump 5 base Cn.ptpDropped 1 s
    else
      match s.time.foreign.find? same with
      | some f =>
        doIf (f.dataset != dataset) (announceChange base port)
          (setForeign (s.time.foreign.map fun x => if same x then new else x) s)
      | none =>
        if 8 ≤ (s.time.foreign.filter fun f => f.base == base && f.port == port).length then s
        else announceChange base port (setForeign (s.time.foreign ++ [new]) s)

/-- Three Announce intervals. -/
def announceTimeout : Time := Time.ms 375

/-- No sample, or no Announce of a record, for 3 Announce intervals. -/
def execAnnounceReceiptTimeout (dt : Nat) (base : Nat) (s : State) : Host.Outcome State Fault Refusal :=
  let s := tick dt s
  let old := s.time.foreign.filter fun f => f.base == base && decide (f.last + announceTimeout ≤ s.now)
  let s := forAll old (fun f => announceChange base f.port) (setForeign (s.time.foreign.filter fun f => !old.contains f) s)
  .next <|
    if (sourceOf s base).1 == 1 && decide ((baseOf s base).lastSample + announceTimeout ≤ s.now) then loseSource base s else s

/-- A PTP message of a kind (0 Sync, 1 Announce, 2 Delay_Req) is sent when its interval has passed. -/
def ptpIfDue (base port kind : Nat) (interval : Time) (s : State) : State :=
  let k := 4 * port + kind
  let due := match s.time.lastSend.find? k with
    | none => true
    | some t => decide (t + interval ≤ s.now)
  if due then emit (.ptp port kind (clockClass s base)) { s with time := { s.time with lastSend := s.time.lastSend.set k s.now } }
  else s

/-- A MASTER port sends Sync 16 times and Announce 8 times a second, a SLAVE port Delay_Req 16 times a second. -/
def execPtpSend (dt : Nat) (base port : Nat) (s : State) : Host.Outcome State Fault Refusal :=
  let s := tick dt s
  .next <|
    if !portUp s port then s
    else
      match ptpPortOf s base port with
      | 1 => ptpIfDue base port 1 (Time.ms 125) (ptpIfDue base port 0 (Time.us 62500) s)
      | 2 => ptpIfDue base port 2 (Time.us 62500) s
      | _ => s

/-! ### Pulses and recovered clocks (R290, R292, R293) -/

/-- The bases steered by a PPS input. -/
def basesOfPps (s : State) (i : Nat) : List Nat := (List.range 8).filter fun n => sourceOf s n == (2, i)

/-- The distance of a base to the whole second that an edge marks. -/
def edgeOffset (b : TimeBase) (now : Time) : Int :=
  let r := baseVal b now % second16
  if 2 * r < second16 then -r else second16 - r

def execPpsInEdge (dt : Nat) (input : Nat) (s : State) : Host.Outcome State Fault Refusal :=
  let s := tick dt s
  let early := match s.time.ppsLast.find? input with
    | none => false
    | some t => decide (s.now < t + Time.ms 900)
  .next <|
    if early then bump 5 (16 + input) Cn.edgesIgnored 1 s
    else
      let lost := s.time.ppsLost.getD input false
      let s := { s with time := { s.time with ppsLast := s.time.ppsLast.set input s.now, ppsLost := s.time.ppsLost.del input } }
      forAll (basesOfPps s input) (fun n s => sample n (edgeOffset (baseOf s n) s.now) s)
        (doIf lost (raiseClear Ev.ppsIn .east [.u8 input]) s)

def execPpsInLoss (dt : Nat) (input : Nat) (s : State) : Host.Outcome State Fault Refusal :=
  let s := tick dt s
  let last := s.time.ppsLast.getD input s.pwr.readyAt
  .next <|
    if s.pwr.ready && !s.time.ppsLost.getD input false && decide (last + Time.ms 1500 ≤ s.now) then
      forAll (basesOfPps s input) loseSource
        (raise Ev.ppsIn .east [.u8 input] { s with time := { s.time with ppsLost := s.time.ppsLost.set input true } })
    else s

/-- The programmed instant of an output has come: its base, less the offset, stands within 2 ns of a whole second. -/
def pulseNow (s : State) (o : Nat) : Bool :=
  let v := (cfgOf s).val Kind.ppsOut o
  let x := (baseVal (baseOf s (v Fld.ppBase).toNat) s.now - v Fld.ppOffset * 81920) % second16
  decide (x ≤ 2 * 65536) || decide (second16 - 2 * 65536 ≤ x)

def execPpsOutPulse (dt : Nat) (output : Nat) (s : State) : Host.Outcome State Fault Refusal :=
  let s := tick dt s
  let n := (cfgOf s).valN Kind.ppsOut output Fld.ppBase
  let again := match s.time.ppsOutLast.find? output with
    | none => true
    | some t => decide (t + Time.ns 4 < s.now)
  .next <|
    if (tbVal s n Fld.tbSquelch == 1 && (baseOf s n).st != .locked) || !pulseNow s output || !again then s
    else
      emit (.pps output (Time.ns (100 * (cfgOf s).valN Kind.ppsOut output Fld.ppWidth)))
        { s with time := { s.time with ppsOutLast := s.time.ppsOutLast.set output s.now } }

/-- A squelched output resumes 1 s after its lane's lock returned. -/
def execRclkResume (dt : Nat) (output : Nat) (s : State) : Host.Outcome State Fault Refusal :=
  let s := tick dt s
  .next <|
    match s.time.squelched.getD output false, s.time.lockBack.find? output with
    | true, some t =>
      if t + Time.sec 1 ≤ s.now then
        raiseClear Ev.rclkSquelch .east [.u8 output]
          { s with time := { s.time with squelched := s.time.squelched.del output, lockBack := s.time.lockBack.del output } }
      else s
    | _, _ => s

/-! ### Time of day to terminals (R298 to R301) -/

/-- N: the first multiple of 8 at least 8,000 frames ahead. -/
def todFrame (s : State) : Nat := ceilDiv (s.pon.sf.toNat + 8000) 8 * 8

/-- T′ for the frame N, in units of 2⁻¹⁶ ns (R299). -/
def todValue (s : State) (t ch n : Nat) : Int :=
  let base := (cfgOf s).valN Kind.tree (treeOf ch) Fld.treeBase
  let at_ := s.pon.gridAt + Time.frame * (n - s.pon.sf.toNat)
  baseVal (baseOf s base) at_ + ofPs (chVal s ch Fld.chModTx) + ofPs ((termOf s t).td - Config.termDelay (isWide ch) (termOf s t).eqd)

/-- A time-of-day set: the OLT-G's attribute with N and T′ as seconds and nanoseconds. -/
def sendTod (t ch : Nat) (s : State) : State :=
  let n := todFrame s
  let v := (todValue s t ch n).toNat
  let body := beBytes 2 0x4000 ++ beBytes 4 n ++ beBytes 6 (v / 65536 / 10 ^ 9) ++ beBytes 4 (v / 65536 % 10 ^ 9)
  let period := Time.sec ((cfgOf s).valN Kind.tree (treeOf ch) Fld.treeTodS)
  ownOmci t 0x48 131 0 .tod body (modTerm t (fun x => { x with todOut := true, todDue := s.now + period }) s)

def execTodDelivery (dt : Nat) (term : Nat) (s : State) : Host.Outcome State Fault Refusal :=
  let s := tick dt s
  let x := termOf s term
  .next <|
    match x.ch with
    | none => s
    | some ch =>
      if s.twin.held && (cfgOf s).on Kind.terminal term Fld.trmTod && x.st == .operational && !x.todOut && decide (x.todDue ≤ s.now) then
        sendTod term ch s
      else s

end Sys2Proof.Machine
end

