-- ==== Sys2Proof/Machine/Lanes.lean ====
section
/-! DEFINITION. The uplink and Seam lanes: detectors, training, degrade, fence, eye scans, sub-ports and pattern tests (R103, R313, R334 to R353). Lanes 0–63 are uplink lanes and 64–67 Seam lanes; a pattern test names the PON lanes of channel c as 68 + c. -/

namespace Sys2Proof.Machine
open Sys2Proof

/-! ### Lanes and sub-ports -/

def isSeamLane (l : Nat) : Bool := decide (64 ≤ l)

/-- The die of an uplink or Seam lane: chiplets 0 and 1 are East's (Table 1.2). -/
def dieOfSerial (l : Nat) : DieId := if isSeamLane l then (if l < 66 then .east else .west) else dieOfPort l

/-- The lane chiplet of an uplink or Seam lane (Table 13.1). -/
def chipletOf (l : Nat) : Nat := if isSeamLane l then l - 64 else l / 16

/-- The sub-port that a lane belongs to. -/
def laneSubport? (s : State) (l : Nat) : Option Nat :=
  (((cfgOf s).ofKind Kind.subport).find? fun o => (subportLanes (cfgOf s) o.num).contains l).map (·.num)

/-- A sub-port stands enabled. -/
def subportOn (s : State) (p : Nat) : Bool := (cfgOf s).live Kind.subport p && (cfgOf s).on Kind.subport p Fld.spEnable

/-- A lane trains: every Seam lane, and the lanes of an enabled CR or KR sub-port (R344). -/
def trains (s : State) (l : Nat) : Bool :=
  isSeamLane l ||
    match laneSubport? s l with
    | some p => subportOn s p && (cfgOf s).valN Kind.subport p Fld.spIface != 0
    | none => false

/-- A lane carries its data: it has neither LOS nor LOL, and it has trained where it trains. -/
def laneCarries (s : State) (l : Nat) : Bool :=
  let x := laneOf s l
  if isSeamLane l then seamLaneUp s (l - 64)
  else
    !x.los && !x.lol && (!trains s l || (x.up && decide (x.dataAt ≤ s.now)))
      && ((laneSubport? s l).map (subportOn s)).getD false

/-- A sub-port goes down: PORT_LINK_DOWN, and remote fault from now on (R343). -/
def subportDown (p : Nat) (s : State) : State :=
  if (subportOf s p).up then
    emit (.remoteFault p) (raise Ev.portLink (dieOfPort p) [.u16 p] (modSubport p (fun x => { x with up := false, aligned := false }) s))
  else modSubport p (fun x => { x with aligned := false }) s

/-- The Seam is down from now on (R313). -/
def seamDrop (s : State) : State :=
  if s.twin.seamUp then { s with twin := { s.twin with seamUp := false, downSince := some s.now, aligned := false } } else s

/-- The Seam goes down with its last lane. -/
def seamLanesCheck (s : State) : State := if (seamLane? s 0).isNone then seamDrop s else s

/-- A lane carries nothing from now on: its sub-port, or with the last lane the Seam, goes down. -/
def laneStops (l : Nat) (s : State) : State :=
  if isSeamLane l then seamLanesCheck s
  else
    match laneSubport? s l with
    | none => s
    | some p => subportDown p s

/-! ### Eye scans (R353) -/

/-- The scans of a chiplet that run. -/
def scansRunning (s : State) (q : Nat) : Nat := (s.lane.scans.filter fun x => chipletOf x.1 == q && x.2.isSome).length

/-- The first waiting scan of a chiplet starts while fewer than 4 run. -/
def nextScan (q : Nat) (s : State) : State :=
  if 4 ≤ scansRunning s q then s
  else
    match s.lane.scans.find? fun x => chipletOf x.1 == q && x.2.isNone with
    | none => s
    | some x =>
      { s with lane := { s.lane with scans := s.lane.scans.map fun y => if y = x then (x.1, some s.now) else y } }

/-- Ask for a scan of a lane. One that runs or waits already serves every request. -/
def askScan (l : Nat) (s : State) : State :=
  if s.lane.scans.any (·.1 == l) then s
  else nextScan (chipletOf l) { s with lane := { s.lane with scans := s.lane.scans ++ [(l, none)] } }

/-- A scan of a lane is over: every query that waits for it is answered, and the next one starts. -/
def endScan (l : Nat) (a : Answer) (s : State) : State :=
  if s.lane.scans.any (·.1 == l) then
    let s := { s with lane := { s.lane with scans := s.lane.scans.filter fun x => x.1 != l } }
    nextScan (chipletOf l) (finishWaiting (fun w => w == .scan l) a s)
  else s

/-- The result of a lane-margin query: the superframe count and the margins. -/
def marginAnswer (s : State) (l : Nat) : Answer := { result := (laneOf s l).marginSf.toNat :: (laneOf s l).margins }

def execLaneMarginScanDone (dt : Nat) (lane : Nat) (margins : List Nat) (s : State) : Host.Outcome State Fault Refusal :=
  let s := tick dt s
  .next <|
    match (s.lane.scans.find? fun x => x.1 == lane).bind (·.2) with
    | none => s
    | some t =>
      if (laneOf s lane).los || (laneOf s lane).lol then endScan lane { status := St.laneDown } s
      else if t + Time.ms 20 ≤ s.now then
        let s := modLane lane (fun x => { x with margins := margins, marginSf := s.pon.sf }) s
        endScan lane (marginAnswer s lane) s
      else s

/-! ### LOS and LOL (R290, R348) -/

/-- The recovered-clock outputs that select a lane. -/
def rclkOf (s : State) (l : Nat) : List Nat := (List.range 2).filter fun i => (cfgOf s).val Kind.rclk i Fld.rcLane == (l : Int)

/-- An output is squelched. -/
def squelch (i : Nat) (s : State) : State :=
  let s := doIf (!s.time.squelched.getD i false) (raise Ev.rclkSquelch .east [.u8 i]) s
  { s with time := { s.time with squelched := s.time.squelched.set i true, lockBack := s.time.lockBack.del i } }

/-- A detector of a lane asserts: its sub-port or the Seam follows, its scan ends and its clock outputs are squelched. -/
def laneLoses (l : Nat) (s : State) : State :=
  forAll (rclkOf s l) squelch (endScan l { status := St.laneDown } (laneStops l s))

/-- Both detectors of a lane are clear again: it restarts from its snapshot, and its clock outputs wait 1 s. -/
def laneReturns (l : Nat) (s : State) : State :=
  if (laneOf s l).los || (laneOf s l).lol then s
  else
    forAll (rclkOf s l) (fun i s => { s with time := { s.time with lockBack := s.time.lockBack.set i s.now } })
      (modLane l (fun x => { x with work := x.snap }) s)

def execLaneLos (dt : Nat) (lane : Nat) (s : State) : Host.Outcome State Fault Refusal :=
  let s := tick dt s
  .next <|
    if (laneOf s lane).los then s
    else laneLoses lane (raise Ev.laneLos (dieOfSerial lane) [.u8 lane] (modLane lane (fun x => { x with los := true }) s))

def execLaneLosClear (dt : Nat) (lane : Nat) (s : State) : Host.Outcome State Fault Refusal :=
  let s := tick dt s
  .next <|
    if (laneOf s lane).los then
      laneReturns lane (raiseClear Ev.laneLos (dieOfSerial lane) [.u8 lane]
        (modLane lane (fun x => { x with los := false, losCleared := true }) s))
    else s

/-- A lane loses lock. -/
def lanePhaseLost (l : Nat) (s : State) : State :=
  if (laneOf s l).lol then s
  else laneLoses l (raise Ev.laneLol (dieOfSerial l) [.u8 l] (modLane l (fun x => { x with lol := true, lolSince := s.now }) s))

def execLaneLol (dt : Nat) (lane : Nat) (s : State) : Host.Outcome State Fault Refusal :=
  .next (lanePhaseLost lane (tick dt s))

/-- The reference that a lane runs on is faulted: 4 the Ethernet and 5 the Seam reference (R337, Table 13.3). -/
def laneRefFault (s : State) (l : Nat) : Bool := s.pwr.refFault.getD (if isSeamLane l then 5 else 4) false

def execLaneLolClear (dt : Nat) (lane : Nat) (s : State) : Host.Outcome State Fault Refusal :=
  let s := tick dt s
  .next <|
    if (laneOf s lane).lol && !laneRefFault s lane then
      laneReturns lane (raiseClear Ev.laneLol (dieOfSerial lane) [.u8 lane] (modLane lane (fun x => { x with lol := false }) s))
    else s

/-! ### Sub-ports (R343) -/

def execPortLinkUp (dt : Nat) (subport : Nat) (s : State) : Host.Outcome State Fault Refusal :=
  let s := tick dt s
  .next <|
    if subportOn s subport && !(subportOf s subport).up && (subportLanes (cfgOf s) subport).all (laneCarries s) then
      raiseClear Ev.portLink (dieOfPort subport) [.u16 subport]
        (modSubport subport (fun x => { x with up := true, aligned := true, localFault := false }) s)
    else s

def execPcsAlignmentLoss (dt : Nat) (subport : Nat) (localFault : Bool) (s : State) : Host.Outcome State Fault Refusal :=
  let s := tick dt s
  .next <|
    if (subportOf s subport).up then modSubport subport (fun x => { x with localFault := localFault }) (subportDown subport s) else s

/-! ### Training (R344 to R347) -/

/-- The FFE of a training preset, in steps of 0.02: c(−3), c(−2), c(−1), c(1) (Table 13.7). -/
def presetTaps (p : Nat) : List Int :=
  match p with
  | 2 => [0, 0, -5, 0]
  | 3 => [0, 0, -10, -3]
  | _ => [0, 0, 0, 0]

/-- A lane starts to train. -/
def startTraining (l : Nat) (s : State) : State :=
  laneStops l (modLane l (fun x =>
    { x with training := true, trainSince := s.now, up := false, preset := 1, taps := presetTaps 1, answer := none, readySeen := 0,
             selfReady := false, work := x.start, failedAt := none, highSince := none, losCleared := false }) s)

/-- The range of each coefficient (Table 13.6). -/
def tapRange (i : Nat) : Int × Int :=
  match i with
  | 0 => (0, 3)
  | 1 => (-6, 0)
  | 2 => (-18, 0)
  | _ => (-10, 0)

/-- A setting keeps every range, and c(0) at 0.54 or more. -/
def tapsOk (l : List Int) : Bool :=
  (List.range 4).all (fun i => decide ((tapRange i).1 ≤ l.getD i 0 ∧ l.getD i 0 ≤ (tapRange i).2))
    && decide ((l.map (·.natAbs)).sum ≤ 23)

/-- The control field asks for something: a preset, or an action on a tap. -/
def tcAsks (c : BitVec 16) : Bool :=
  tcPreset c != 0 || (decide (1 ≤ tcTap c ∧ tcTap c ≤ 4) && tcAction c != 0)

/-- The transmitter applies a request, and its answer: results 1 updated, 2 at limit, 3 not supported. -/
def applyRequest (c : BitVec 16) (x : Lane) : Lane :=
  if tcPreset c != 0 then
    { x with preset := tcPreset c, taps := presetTaps (tcPreset c), answer := some (trainStatus 0 1 true) }
  else if tcAction c = 3 then { x with answer := some (trainStatus (tcTap c) 3 false) }
  else
    let i := tcTap c - 1
    let taps := setAt x.taps i (x.taps.getD i 0 + if tcAction c = 1 then 1 else -1)
    if tapsOk taps then { x with taps := taps, answer := some (trainStatus (tcTap c) 1 false) }
    else { x with answer := some (trainStatus (tcTap c) 2 false) }

/-- The four-step exchange: a new request is applied and answered, the same answer stands until the partner returns to hold,
and hold is answered "not updated". -/
def trainStep (c : BitVec 16) (x : Lane) : Lane :=
  let x := { x with readySeen := if tcReady c then x.readySeen + 1 else 0 }
  if tcAsks c then (if x.answer.isNone then applyRequest c x else x) else { x with answer := none }

def execTrainingFrame (dt : Nat) (lane : Nat) (control status crc : BitVec 16) (s : State) :
    Host.Outcome State Fault Refusal :=
  let s := tick dt s
  .next <|
    if isSeamLane lane && (laneOf s lane).training && crc == trainCrc control status then
      let s := modLane lane (trainStep control) s
      emit (.trainStatus lane ((laneOf s lane).answer.getD (trainStatus 0 0 false))) s
    else s

/-- 64 training frames of 4,096 symbols at 53.125 GBd, in ps. -/
def trainTail : Time := 4934475

/-- The working set that adaptation has reached becomes the snapshot. -/
def takeSnapshot (l : Nat) (s : State) : State :=
  let w := Config.laneWork s.draw l
  drawn (modLane l (fun x => { x with work := w, snap := w, snapAt := s.now }) s)

/-- A Seam lane completes once the partner's receiver ready has been seen in 3 consecutive valid frames; a CR or KR lane under
Clause 162 or 163. -/
def execLaneTrainingDone (dt : Nat) (lane : Nat) (s : State) : Host.Outcome State Fault Refusal :=
  let s := tick dt s
  let x := laneOf s lane
  .next <|
    if x.training && !x.los && !x.lol && !laneRefFault s lane && (!isSeamLane lane || decide (3 ≤ x.readySeen)) then
      takeSnapshot lane (modLane lane (fun y =>
        { y with training := false, up := true, dataAt := s.now + trainTail, selfReady := true, degraded := false, degRun := 0 }) s)
    else s

def execLaneTrainFail (dt : Nat) (lane : Nat) (s : State) : Host.Outcome State Fault Refusal :=
  let s := tick dt s
  let x := laneOf s lane
  .next <|
    if x.training && decide (x.trainSince + Time.ms 500 ≤ s.now) then
      raise Ev.laneTrainFail (dieOfSerial lane) [.u8 lane]
        (modLane lane (fun y => { y with training := false, failedAt := some s.now }) s)
    else s

/-- A lane is due to train again. -/
def retrainDue (s : State) (x : Lane) : Bool :=
  (match x.failedAt with
   | some t => decide (t + Time.ms 100 ≤ s.now)
   | none => false)
  || (x.up && ((x.lol && decide (x.lolSince + Time.ms 10 ≤ s.now)) || x.losCleared
      || match x.highSince with
         | some t => decide (t + Time.sec 1 ≤ s.now)
         | none => false))

def execLaneRetrain (dt : Nat) (lane : Nat) (s : State) : Host.Outcome State Fault Refusal :=
  let s := tick dt s
  .next <|
    if trains s lane && !(laneOf s lane).training && retrainDue s (laneOf s lane) then startTraining lane s else s

/-! ### Degrade, snapshot and fence (R103, R349) -/

/-- The degrade threshold m × 10⁻ⁿ is exceeded by errors among symbols. -/
def aboveDegrade (s : State) (l errors symbols : Nat) : Bool :=
  let v := (cfgOf s).valN Kind.lane l
  decide (v Fld.laDegM * symbols < errors * 10 ^ v Fld.laDegN)

/-- One interval of a lane: the degrade flag with its events. -/
def degradeStep (l : Nat) (above : Bool) (s : State) : State :=
  let x := laneOf s l
  if above then
    let s := modLane l (fun y => { y with degraded := true, degRun := 0 }) s
    if x.degraded then s else raise Ev.laneDegrade (dieOfSerial l) [.u8 l] s
  else if x.degraded then
    if 2 ≤ x.degRun then
      raiseClear Ev.laneDegrade (dieOfSerial l) [.u8 l] (modLane l (fun y => { y with degraded := false, degRun := 0 }) s)
    else modLane l (fun y => { y with degRun := y.degRun + 1 }) s
  else s

/-- The lane's counts of corrected symbols, corrected codewords and uncorrectable codewords (R349). -/
def countLane (lane errors codewords uncorrectable : Nat) (s : State) : State :=
  bump 8 lane Cn.laneErrors errors (bump 8 lane Cn.laneCodewords codewords (bump 8 lane Cn.laneUncorrectable uncorrectable s))

def execLaneDegradeInterval (dt : Nat) (lane : Nat) (errors symbols codewords uncorrectable : Nat) (s : State) :
    Host.Outcome State Fault Refusal :=
  let s := tick dt s
  .next <|
    if laneCarries s lane then
      let high := decide (24 * symbols < 100000 * errors)
      let s := modLane lane (fun x =>
        { x with highSince := if high then some (x.highSince.getD (s.now - Time.sec 1)) else none }) s
      degradeStep lane (aboveDegrade s lane errors symbols) (countLane lane errors codewords uncorrectable s)
    else s

/-- A lane's last interval was at or below its threshold. -/
def belowDegrade (x : Lane) : Bool := !x.degraded || x.degRun != 0

def execLaneSnapshotRefresh (dt : Nat) (lane : Nat) (s : State) : Host.Outcome State Fault Refusal :=
  let s := tick dt s
  .next <|
    if laneCarries s lane && belowDegrade (laneOf s lane) && decide ((laneOf s lane).snapAt + Time.sec 1 ≤ s.now) then
      takeSnapshot lane s
    else s

/-- A crossing restores the snapshot; the link stays up. -/
def execLaneFence (dt : Nat) (lane value : Nat) (s : State) : Host.Outcome State Fault Refusal :=
  let s := tick dt s
  .next <|
    if laneCarries s lane then
      raise Ev.laneFence (dieOfSerial lane) [.u8 lane, .u8 value]
        (bump 8 lane Cn.fenceHits 1
          (modLane lane (fun x => { x with work := x.snap, fenceCount := x.fenceCount + 1 }) s))
    else s

/-! ### Pattern tests (R350 to R352) -/

/-- The patterns of a lane, numbered in the order of R350. -/
def patterns (lane : Nat) : Nat := if 68 ≤ lane then 4 else 11

def injectOk : Inject → Bool
  | .none => true
  | .once => true
  | .burst n => decide (1 ≤ n ∧ n ≤ 255)
  | .rate n => decide (3 ≤ n ∧ n ≤ 12)

/-- A test is allowed on an uplink or PON lane. -/
def testAllowed (s : State) (l : Nat) : Bool :=
  if 68 ≤ l then isDark s (l - 68)
  else
    match laneSubport? s l with
    | some p => !(cfgOf s).on Kind.subport p Fld.spEnable
    | none => true

def startTest (l pattern : Nat) (inject : Inject) (s : State) : Served :=
  okay (modLane l (fun x => { x with test := some ⟨pattern, inject⟩ }) s)

/-- End a lane's test: its counts of bits, bit errors and symbol errors, each of 48 bits, as its checker stands. -/
def endTest (l : Nat) (s : State) : List Nat × State :=
  ((List.range 3).map fun j => Config.testCount s.draw j % 2 ^ 48, drawn (modLane l (fun x => { x with test := none }) s))

def stopTest (l : Nat) (s : State) : Served :=
  if (laneOf s l).test.isNone then fail St.state s
  else
    let r := endTest l s
    .done { result := r.1 } r.2

/-- Lanes that LANE_TEST_START may name: uplink and PON lanes. -/
def testLane (l : Nat) : Bool := decide (l < 64 ∨ (68 ≤ l ∧ l < 580))

def execLaneTestStart (dt : Nat) (h : Hdr) (lane pattern : Nat) (inject : Inject) (s : State) :
    Host.Outcome State Fault Refusal :=
  .next <| hostCmd dt Op.laneTestStart h (fun s =>
    if !testLane lane then fail St.handle s
    else if patterns lane ≤ pattern || !injectOk inject then fail St.parameter s
    else if !testAllowed s lane then fail St.state s
    else startTest lane pattern inject s) s

def execLaneTestStop (dt : Nat) (h : Hdr) (lane : Nat) (s : State) : Host.Outcome State Fault Refusal :=
  .next <| hostCmd dt Op.laneTestStop h (fun s => if testLane lane then stopTest lane s else fail St.handle s) s

def execSeamTestStart (dt : Nat) (h : Hdr) (lane pattern : Nat) (inject : Inject) (s : State) :
    Host.Outcome State Fault Refusal :=
  .next <| hostCmd dt Op.seamTestStart h (fun s =>
    if 4 ≤ lane then fail St.handle s
    else if patterns (64 + lane) ≤ pattern || !injectOk inject then fail St.parameter s
    else if s.twin.role != .solo && s.twin.role != .disarmed then fail St.state s
    else
      match startTest (64 + lane) pattern inject s with
      | .done a s => .done a (seamLanesCheck s)
      | w => w) s

def execSeamTestStop (dt : Nat) (h : Hdr) (lane : Nat) (s : State) : Host.Outcome State Fault Refusal :=
  .next <| hostCmd dt Op.seamTestStop h (fun s => if lane < 4 then stopTest (64 + lane) s else fail St.handle s) s

/-- Symbol errors into a sub-port's transmit stream after FEC; n = 0 stops. -/
def execLaneInject (dt : Nat) (h : Hdr) (subport n : Nat) (s : State) : Host.Outcome State Fault Refusal :=
  .next <| hostCmd dt Op.laneInject h (fun s =>
    if !(cfgOf s).has Kind.subport subport then fail St.handle s
    else if n != 0 && !decide (4 ≤ n ∧ n ≤ 12) then fail St.parameter s
    else if n != 0 && !(subportOf s subport).up then fail St.state s
    else okay (modSubport subport (fun x => { x with injectN := n }) s)) s

end Sys2Proof.Machine
end

