-- ==== Sys2Proof/Machine/Power.lean ====
section
/-! DEFINITION. Resets, start-up, the supply and thermal supervisors, the reference monitors, the fatal findings, the power ladder and the alteration pass (R51, R306, R322, R338, R339, R405 to R427, R433, R458). -/

namespace Sys2Proof.Machine
open Sys2Proof

/-! ### Device resets (R417, R458) -/

/-- A time base after a reset through which the always-on domain runs (R458). -/
def baseThroughReset (now : Time) (b : TimeBase) : TimeBase :=
  { st := match b.st with
      | .unset => .unset
      | .freeRun => .freeRun
      | _ => .holdover
    refNow := b.refNow, refVal := b.refVal, rate := b.rate, everLocked := b.everLocked
    holdSince := match b.st with
      | .locked => some now
      | .acquiring => some now
      | _ => b.holdSince }

/-- A time base after a power-on reset: UNSET, at 0 s. -/
def baseAtPowerOn (now : Time) : TimeBase := { refNow := now }

def resetBases (keepAon : Bool) (s : State) : Tab TimeBase :=
  (List.range 8).map fun n => (n, if keepAon then baseThroughReset s.now (baseOf s n) else baseAtPowerOn s.now)

/-- The pins with their masks and status, and the Thimbles, when the always-on domain runs through (R413). -/
def keptEvents (keepAon : Bool) (s : State) : EventSt :=
  if keepAon then { mask0 := s.ev.mask0, mask1 := s.ev.mask1, status0 := s.ev.status0, status1 := s.ev.status1 } else {}

def keptThimbles (keepAon : Bool) (s : State) : Tab Thimble :=
  if keepAon then (linkLoss .b (linkLoss .a s)).host.thimbles else []

/-- The supervisors and the power sequencer keep running through every reset (R413). -/
def keptPower (by_ : Nat) (s : State) : PowerSt :=
  { inReset := true, resetBy := by_, side := s.pwr.side, rails := s.pwr.rails, dips := s.pwr.dips, resetRail := s.pwr.resetRail,
    thermalHigh := s.pwr.thermalHigh, refFault := if by_ = 0 then [] else s.pwr.refFault }

/-- A device reset of a cause of Table 17.4: TOKEN_OUT is inactive, YIELD_OUT active, every channel DARK, no stitch has taken
effect, every pool is in its starting order and both host links are down. -/
def deviceReset (by_ : Nat) (keepAon : Bool) (s : State) : State :=
  let z := State.reset
  { z with
    pending := s.pending, now := s.now, draw := s.draw
    ev := keptEvents keepAon s
    host := { z.host with thimbles := keptThimbles keepAon s }
    time := { z.time with bases := resetBases keepAon s }
    twin := { z.twin with tokenIn := s.twin.tokenIn, yieldIn := s.twin.yieldIn, lastCause := Cause.reset }
    pwr := keptPower by_ s }

/-- PORST_N is low: a pulse below its 1 µs filter is ignored (R417, R437). -/
def execPorstNAssert (dt : Nat) (width : Time) (s : State) : Host.Outcome State Fault Refusal :=
  let s := tick dt s
  .next (if Time.us 1 ≤ width then deviceReset 0 false s else s)

/-- Start-up begins with the boot ROM (R415). -/
def beginStartup (s : State) : State :=
  { s with pwr := { s.pwr with inReset := false, stage := 0, fail := 0, ready := false, releasedAt := s.now } }

def execPorstNRelease (dt : Nat) (side tokenIn yieldIn : Bool) (s : State) : Host.Outcome State Fault Refusal :=
  let s := tick dt s
  .next <|
    if s.pwr.inReset && s.pwr.resetBy == 0 then
      beginStartup { s with pwr := { s.pwr with side := side }
                            twin := { s.twin with tokenIn := tokenIn, yieldIn := yieldIn, lasers := [] } }
    else s

/-- The rails of the always-on domain: VDD_AON and VDDIO_AON. -/
def aonRail (rail : Nat) : Bool := rail == 2 || rail == 15

/-- A dip that reaches the reset level is not counted (R421). -/
def uncountDip (rail : Nat) (s : State) : State :=
  match (railOf s rail).dipSince with
  | none => s
  | some t => { s with pwr := { s.pwr with dips := s.pwr.dips.erase t } }

/-- A rail at its reset level: the rail and its minimum are kept in the always-on domain (R419). -/
def execSupplyReset (dt : Nat) (rail mv : Nat) (s : State) : Host.Outcome State Fault Refusal :=
  let s := tick dt s
  let s := uncountDip rail { s with pwr := { s.pwr with resetRail := some (rail, mv) } }
  let s := modRail rail (fun r => { r with present := decide (mv ≠ 0), dipSince := none, marginSince := none, marginPending := false }) s
  .next <|
    if s.pwr.inReset && s.pwr.resetBy == 0 then
      if aonRail rail then { s with time := { s.time with bases := resetBases false s } } else s
    else deviceReset 1 (!aonRail rail) s

def execSupplyResetEnd (dt : Nat) (s : State) : Host.Outcome State Fault Refusal :=
  let s := tick dt s
  .next (if s.pwr.inReset && s.pwr.resetBy == 1 then beginStartup s else s)

/-- Tj at 125 °C (R423). -/
def execThermalReset (dt : Nat) (s : State) : Host.Outcome State Fault Refusal :=
  let s := tick dt s
  .next (if s.pwr.inReset then s else deviceReset 2 true s)

def execThermalResetEnd (dt : Nat) (s : State) : Host.Outcome State Fault Refusal :=
  let s := tick dt s
  .next (if s.pwr.inReset && s.pwr.resetBy == 2 then beginStartup s else s)

/-- A rail rises from absent: its outputs leave high impedance, with every LASER_EN and CUE driven low (R432, R433). -/
def execSupplyRailRise (dt : Nat) (rail : Nat) (s : State) : Host.Outcome State Fault Refusal :=
  let s := modRail rail (fun r => { r with present := true }) (tick dt s)
  .next (if rail = 17 then { s with twin := { s.twin with lasers := [] } } else s)

/-! ### References and the grid (R51, R338, R339) -/

def refFaulted (s : State) (r : Nat) : Bool := s.pwr.refFault.getD r false

/-- The lowest-numbered quadrant whose PON reference is healthy. -/
def healthyQuadrant (s : State) : Option Nat := (List.range 4).find? fun q => !refFaulted s q

/-- The grid is counted on the lowest healthy quadrant; the first one that drives the framing clocks starts it, with count 0 at
its first boundary. -/
def settleGrid (s : State) : State :=
  let s := { s with pwr := { s.pwr with gridSource := healthyQuadrant s } }
  if s.pon.gridOn || s.pwr.stage < 4 || s.pwr.gridSource.isNone then s
  else drawn { s with pon := { s.pon with gridOn := true, gridAt := s.now + Config.gridPhase s.draw % Time.frame, sf := 0 } }

/-- A reading faults its reference (R339). -/
def readsFaulted (r : RefReading) : Bool :=
  !r.present || decide (200 < r.ppm) || decide (r.ppm < if r.ref = 5 then -3200 else -200)
    || (decide (r.ref < 4) && decide (1000 < r.ppbVsGrid.natAbs))

/-- A channel's transmit lane loses lock (R76). -/
def faultChannel (ch : Nat) (s : State) : State :=
  if isDark s ch || (chOf s ch).st == .faulted then s
  else
    policyFinding Fld.devYieldChannel Cause.channelFault s.twin.yieldIn
      (raise Ev.channelFault (dieOfChannel ch) [.u16 ch, .u8 (faultCause false)] (stopReception ch (enterCh ch .faulted s)))

/-- A burst lane's synthesiser loses lock (R101). -/
def burstLaneLost (ch : Nat) (s : State) : State :=
  if (chOf s ch).lol then s
  else raise Ev.burstLaneLol (dieOfChannel ch) [.u16 ch] (modCh ch (fun x => { x with lol := true }) s)

/-- A host port loses its reference. -/
def hostRefLost (p : PortId) (s : State) : State :=
  if linkOf s p then raise Ev.hostPortDown (if p = .a then .east else .west) [.u8 (portNum p)] (linkLoss p s) else s

/-- The lanes of a faulted reference have no lock, once the block start has given the lanes their clocks. -/
def refUnlocks (r : Nat) (s : State) : State :=
  if s.pwr.stage < 4 then s
  else if r < 4 then forAll (List.range 128) (fun i => burstLaneLost (128 * r + i)) s
  else if r = 4 then forAll (List.range 64) lanePhaseLost s
  else if r = 5 then forAll (List.range 4) (fun q => lanePhaseLost (64 + q)) s
  else s

/-- What holds for as long as a reference is faulted: nothing that runs on it is up (Table 13.3). -/
def refHolds (r : Nat) (s : State) : State :=
  let s := refUnlocks r s
  if r < 4 then (if s.pwr.stage < 4 then s else forAll (List.range 128) (fun i => faultChannel (128 * r + i)) s)
  else if r < 6 then s
  else hostRefLost (if r = 6 then .a else .b) s

/-- The effects of a reference that faults (Table 13.3): with the Ethernet reference the time-stamp clock stops, and a LOCKED base
enters HOLDOVER. -/
def refEffect (r : Nat) (s : State) : State :=
  if r = 4 then
    let s := refHolds r { s with time := { s.time with stampClock := false } }
    forAll (List.range 8) (fun n s => if (baseOf s n).st == .locked then setBase n .holdover s else s) s
  else refHolds r s

/-- One reading of the monitors. -/
def refReading (r : RefReading) (s : State) : State :=
  let bad := readsFaulted r
  if bad = refFaulted s r.ref then doIf bad (refHolds r.ref) s
  else
    let s := { s with pwr := { s.pwr with refFault := s.pwr.refFault.set r.ref bad } }
    if bad then refEffect r.ref (raise Ev.refclk .east [.u8 r.ref] s)
    else
      let s := raiseClear Ev.refclk .east [.u8 r.ref] s
      if r.ref = 4 then { s with time := { s.time with stampClock := decide (4 ≤ s.pwr.stage) } } else s

def execRefclkCheck (dt : Nat) (readings : List RefReading) (s : State) : Host.Outcome State Fault Refusal :=
  let s := tick dt s
  .next (settleGrid (forAll readings refReading { s with pwr := { s.pwr with lastRefCheck := s.now } }))

/-! ### Start-up (R415, R416) -/

/-- The unit's fused start voltage in mV, from 720 to 800 (R440). -/
def fusedMv : Nat := 720 + Config.fusedStartMv % 81

/-- A storage key of 32 bytes from a die's random source (R277). -/
def drawKey (s : State) : List Byte := leBytes 32 (Config.random s.draw)

/-- The block-start phase: clocks, grid, storage keys, probe value, core rails and the Seam lanes' training. -/
def blockStart (s : State) : State :=
  let s := drawn { s with ciph := { s.ciph with storageE := drawKey s } }
  let s := drawn { s with ciph := { s.ciph with storageW := drawKey s } }
  let s := drawn { s with svc := { s.svc with probeValue := BitVec.ofNat 32 (Config.random s.draw) } }
  let s := { s with time := { s.time with stampClock := !refFaulted s 4 },
                    pwr := { s.pwr with setPointE := fusedMv, setPointW := fusedMv } }
  let s := forAll (List.range 4) (fun q => startTraining (64 + q)) s
  settleGrid (forAll ((List.range 8).filter (refFaulted s)) refUnlocks s)

/-- The supply reset before this start-up is reported with the reset flag; the spec names no duration and no count for it. -/
def reportReset (s : State) : State :=
  match s.pwr.resetRail with
  | none => s
  | some (rail, mv) =>
    drawn (raise Ev.supplyDip .east [.u8 rail, .u16 mv, .u64 (Config.random s.draw % 2 ^ 64), .u8 (Config.random (s.draw + 1) % 256), .u8 1]
      (drawn { s with pwr := { s.pwr with resetRail := none } }))

/-- Command-ready: DEVICE_READY, and role arbitration begins with HELLO (R311, R380). -/
def becomeReady (s : State) : State :=
  sendHello (reportReset (raise Ev.deviceReady .east [] { s with pwr := { s.pwr with ready := true, readyAt := s.now } }))

/-- The failure code of a phase; none is stated for the block start (R416). -/
def failCode (s : State) : Nat :=
  match s.pwr.stage with
  | 0 => 4
  | 1 => 1
  | 2 => 2
  | 3 => 3
  | _ => 1 + Config.random s.draw % 15

def execStartupPhaseDone (dt : Nat) (failed : Bool) (s : State) : Host.Outcome State Fault Refusal :=
  let s := tick dt s
  .next <|
    if s.pwr.inReset || s.pwr.ready || s.pwr.fail != 0 then s
    else if failed then
      drawn { s with pwr := { s.pwr with fail := failCode s }, ev := { s.ev with forceInt0 := true },
                     twin := { s.twin with tokenOut := false, yieldOut := true } }
    else
      let s := { s with pwr := { s.pwr with stage := s.pwr.stage + 1 } }
      if s.pwr.stage = 4 then blockStart s else if s.pwr.stage = 5 then becomeReady s else s

/-! ### Supply supervision (R418 to R422) -/

/-- A dip or a margin check is in progress on some rail. -/
def supplyBusy (s : State) : Bool := s.pwr.rails.any fun p => p.2.dipSince.isSome || p.2.marginSince.isSome

def settleWrites (s : State) : State := { s with pwr := { s.pwr with writesSuspended := supplyBusy s } }

/-- The dips that began within the last second. -/
def recentDips (s : State) : List Time := s.pwr.dips.filter fun t => decide (s.now < t + Time.sec 1)

/-- A dip begins: it is counted, an alteration pass is abandoned, and the third within 1 s is fatal. -/
def execDipBegin (dt : Nat) (rail mv : Nat) (s : State) : Host.Outcome State Fault Refusal :=
  let s := tick dt s
  .next <|
    if s.pwr.inReset || (railOf s rail).dipSince.isSome then s
    else
      let s := modRail rail (fun r => { r with dipSince := some s.now, minMv := mv, marginPending := r.marginSince.isSome,
                                               marginSince := none }) s
      let s := settleWrites { s with pwr := { s.pwr with dips := recentDips s ++ [s.now], passSince := none } }
      if s.pwr.ready && decide (3 ≤ s.pwr.dips.length) then fatalFinding Cause.supplyDips s else s

/-- A dip ends at warning clear; one of more than 1 ms is followed by a margin check, and a check that it ended runs again. -/
def execSupplyDip (dt : Nat) (rail minMv : Nat) (duration : Time) (s : State) : Host.Outcome State Fault Refusal :=
  let s := tick dt s
  let x := railOf s rail
  .next <|
    if x.dipSince.isNone then s
    else
      let check := decide (Time.ms 1 < duration) || x.marginPending
      let s := modRail rail (fun r => { r with dipSince := none, minMv := minMv, marginPending := false,
                                               marginSince := if check then some s.now else none }) s
      settleWrites (raise Ev.supplyDip .east
        [.u8 rail, .u16 minMv, .u64 (duration / 1000), .u8 (recentDips s).length, .u8 0] s)

/-- A margin check of 2 ms ends. A core rail whose regulator does not answer is reported with a margin of 0 (R440). -/
def execSupplyMargin (dt : Nat) (rail marginMv : Nat) (s : State) : Host.Outcome State Fault Refusal :=
  let s := tick dt s
  let report := raise Ev.supplyMargin .east [.u8 rail, .u16 marginMv]
  .next <|
    match (railOf s rail).marginSince with
    | none => if rail < 2 && marginMv == 0 then report s else s
    | some t =>
      if t + Time.ms 2 ≤ s.now then
        report (settleWrites (modRail rail (fun r =>
          { r with marginSince := none, marginFlag := r.marginFlag || decide (marginMv < 15) }) s))
      else s

/-! ### Temperature (R423) -/

def execThermalWarning (dt : Nat) (die : DieId) (sensor celsius : Nat) (s : State) : Host.Outcome State Fault Refusal :=
  let s := tick dt s
  .next <|
    if 110 ≤ celsius then
      raise Ev.thermal die [.u8 (dieNum die), .u8 sensor, .u8 celsius] { s with pwr := { s.pwr with thermalHigh := true } }
    else s

def execThermalClear (dt : Nat) (s : State) : Host.Outcome State Fault Refusal :=
  let s := tick dt s
  .next <|
    if s.pwr.thermalHigh then raiseClear Ev.thermal .east [] { s with pwr := { s.pwr with thermalHigh := false } } else s

/-! ### Fatal findings (R322, Table 12.5) -/

def execWatchdogExpiry (dt : Nat) (_die : DieId) (_what : Silent) (s : State) : Host.Outcome State Fault Refusal :=
  let s := tick dt s
  .next (if s.pwr.ready then fatalFinding Cause.watchdog s else s)

/-- The places of state without a copy, as ECC_UNCORRECTABLE names them (log entry 6). -/
def eccPlaceNum : EccPlace → Nat
  | .secureSram => 1
  | .pipeline => 2
  | .scheduler => 3

def execEccUncorrectable (dt : Nat) (die : DieId) (place : EccPlace) (s : State) : Host.Outcome State Fault Refusal :=
  let s := tick dt s
  .next (if s.pwr.ready then
      fatalFinding Cause.eccError (raise Ev.eccUncorrectable die [.u8 (dieNum die), .u8 (eccPlaceNum place)] s)
    else s)

def execBridgeDown (dt : Nat) (s : State) : Host.Outcome State Fault Refusal :=
  let s := tick dt s
  .next (if s.pwr.ready && s.pwr.bridgeUp then
      fatalFinding Cause.bridgeDown (bump 0 0 Cn.bridge 1 { s with pwr := { s.pwr with bridgeUp := false } })
    else s)

def execDeepPanFault (dt : Nat) (die : DieId) (s : State) : Host.Outcome State Fault Refusal :=
  let s := tick dt s
  .next (if s.pwr.ready && !deepFaulted s die then
      fatalFinding Cause.deepPan (raise Ev.deepPanFault die [.u8 (dieNum die)]
        { s with q := { s.q with deepFault := s.q.deepFault.set (dieNum die) true } })
    else s)

/-! ### The power ladder (R405 to R410) -/

/-- A unit has completed its exit: a cipher-lane pool (kind 2) takes its state; a channel (kind 0) sends from its own exit time
on, and a bobbin (kind 1) works from its wake on. -/
def execPowerExitDone (dt : Nat) (unitKind unit : Nat) (s : State) : Host.Outcome State Fault Refusal :=
  let s := tick dt s
  .next <|
    if unitKind = 2 then poolAwake unit s
    else if unitKind = 0 then (if (chOf s unit).readyAt ≤ s.now then modCh unit (fun x => { x with readyAt := 0 }) s else s)
    else modBob unit (fun x => if (x.wakeDue.map fun t => decide (t ≤ s.now)).getD false then { x with wakeDue := none } else x) s

/-! ### The alteration pass (R424 to R427) -/

/-- A stitch window is open, a takeover or a resync is in progress. -/
def passBlocked (s : State) : Bool :=
  (openStitch? s).isSome || s.twin.guardSince.isSome || !s.twin.framesAt.isEmpty || s.twin.role == .syncing
    || s.pwr.rails.any fun p => p.2.dipSince.isSome

/-- Seconds of the day on time base 0. -/
def secondOfDay (s : State) : Nat := baseNs s 0 / 10 ^ 9 % 86400

/-- The pass is due: asked for, inside its daily window and not yet run in it, or 24 h after the last one. -/
def passDue (s : State) : Bool :=
  let v := (cfgOf s).valN Kind.device 0
  let st := (baseOf s 0).st
  let last := if s.pwr.lastPass = 0 then s.pwr.readyAt else s.pwr.lastPass
  let into := (secondOfDay s + 86400 - v Fld.devAltStartSec) % 86400
  s.pwr.passWanted ||
    (if st = .unset ∨ st = .freeRun then decide (last + Time.sec 86400 ≤ s.now)
     else decide (into < 60 * v Fld.devAltLenMin) && (s.pwr.lastPass == 0 || decide (Time.sec (into + 1) < s.now - s.pwr.lastPass)))

def execAlterationPassStart (dt : Nat) (s : State) : Host.Outcome State Fault Refusal :=
  let s := tick dt s
  .next <|
    if s.pwr.ready && s.pwr.passSince.isNone && passDue s && !passBlocked s then
      { s with pwr := { s.pwr with passSince := some s.now, lastPass := s.now, passWanted := false } }
    else s

/-- The new set point of a core rail: the lowest that gives every monitor 25 mV, and 10 mV more to a flagged rail, in one step of
5 mV at most, up to the ceiling. The monitors give their margins in mV at the present set point. -/
def nextSetPoint (now : Nat) (monitors : List Nat) (flag : Bool) : Nat :=
  let worst := monitors.foldl min (monitors.headD (25 + 10 * bit flag))
  let want := now + 25 + 10 * bit flag - worst
  let up := min (ceilDiv want 5 * 5) (fusedMv + 40)
  if now < up then min up (now + 5) else if up < now then max up (now - 5) else now

/-- The element-wise median of working sets. -/
def medianSet (l : List (List Int)) : List Int := (List.range 12).map fun i => medianInt (l.map fun w => w.getD i 0)

/-- The FRESH records of a channel at a rate. -/
def freshOf (s : State) (ch : Nat) (r : Rate) : List Fitting :=
  (s.pon.fits.filter fun p => p.2.st == .fresh && p.2.rate == r && fitChannel s p.1 p.2 == ch).map (·.2)

/-- Re-plan one channel and rate: its starting point, and the recommended guard and preamble, which the spec gives no formula for. -/
def replan (ch : Nat) (r : Rate) (s : State) : State :=
  let l := freshOf s ch r
  if l.isEmpty then s
  else
    let k := 4 * ch + rateNum r
    drawn (drawn { s with pon := { s.pon with
      starts := s.pon.starts.set k (medianSet (l.map (·.work)))
      recommended := s.pon.recommended.set k [Config.random s.draw, Config.random (s.draw + 1)] } })

/-- The channels that hold fitting records. -/
def fitChannels (s : State) : List Nat := (s.pon.fits.map fun p => fitChannel s p.1 p.2).eraseDups

/-- Tenths of a year of allowance that remain, at a slope of the set point in µV per day: capped at 99.9 years. -/
def yearsLeft (setPoint slope : Nat) : Nat :=
  if slope = 0 then 999 else min 999 ((fusedMv + 40 - setPoint) * 1000 * 10 * 4 / (slope * 1461))

def execAlterationDone (dt : Nat) (eastMonitors westMonitors : List Nat) (slopeUvPerDay : Nat) (s : State) :
    Host.Outcome State Fault Refusal :=
  let s := tick dt s
  .next <|
    if s.pwr.passSince.isNone then s
    else
      let e := nextSetPoint s.pwr.setPointE eastMonitors (railOf s 0).marginFlag
      let w := nextSetPoint s.pwr.setPointW westMonitors (railOf s 1).marginFlag
      let s := forAll [0, 1] (fun r => modRail r fun x => { x with marginFlag := false }) s
      let s := forAll (fitChannels s) (fun ch s => forAll (channelRates ch) (replan ch) s) s
      let s := { s with lane := { s.lane with lanes := s.lane.lanes.mapVals fun _ x => { x with start := x.snap } } }
      let s := { s with pwr := { s.pwr with setPointE := e, setPointW := w, passes := s.pwr.passes + 1,
                                            passSince := none } }
      let left := min (yearsLeft e slopeUvPerDay) (yearsLeft w slopeUvPerDay)
      let low := decide (left < 10 * (cfgOf s).valN Kind.device 0 Fld.devAgeYears) || decide (fusedMv + 40 ≤ max e w)
      doIf low (raise Ev.ageingMarginLow .east [.u16 left])
        (raise Ev.alterationDone .east [.u32 s.pwr.passes, .u16 e, .u16 w, .u16 left] s)

end Sys2Proof.Machine
end

