-- ==== Sys2Proof/Machine/Window.lean ====
section
/-! DEFINITION. The stitch window: the revoke phase at B1, the open phase at B2, a block that does not confirm, and the completion of placement moves (R19 to R26, R37 to R45, R55, R62, R69, R74, R85, R154, R171, R176, R182, R221, R342, R351, R460). -/

namespace Sys2Proof.Machine
open Sys2Proof

/-! ### What a stitch touches -/

/-- An object, by kind and number. -/
abbrev ObjRef := Nat × Nat

/-- The objects that a stitch names, in the order of its records. -/
def stitchRefs (p : PendStitch) : List ObjRef := (p.recs.map fun r => (r.body.kind, r.num)).eraseDups

def refsOf (l : List ObjRef) (kind : Nat) : List Nat := (l.filter fun r => r.1 == kind).map (·.2)

/-- The object is revoked: the revoke phase has closed it. -/
def isClosing (c : Cfg) (kind num : Nat) : Bool := ((c.obj? kind num).map (·.closing)).getD false

/-- Some field of an object differs between two configurations. -/
def differs (a b : Cfg) (kind num : Nat) (flds : List Nat) : Bool := flds.any fun f => a.val kind num f != b.val kind num f

/-- An object exists in one configuration and not in the other. -/
def appears (a b : Cfg) (kind num : Nat) : Bool := !a.has kind num && b.has kind num

/-- A field of an object goes from off to on. -/
def rises (a b : Cfg) (kind num fld : Nat) : Bool := !a.on kind num fld && b.on kind num fld

/-! ### Discarding frames (R42) -/

/-- The frame belongs to one of some flows. -/
def ofFlows (l : List Nat) (f : Frame) : Bool :=
  (match f.kind with
   | .flow n => l.contains n
   | _ => false) || (f.dir == .up && l.contains f.ingress)

/-- Discard the frames of a queue that meet a condition. -/
def purgeQueue (gone : Frame → Bool) (q : Nat) (s : State) : State :=
  let x := queueOf s q
  let n := ((x.frames ++ x.oldFrames).filter gone).length
  doIf (n != 0) (fun s => bump 0 (dieNum (queueDie s q)) Cn.stitchDiscards n (modQueue q (fun x =>
    { x with frames := x.frames.filter fun f => !gone f, oldFrames := x.oldFrames.filter fun f => !gone f }) s)) s

/-- Discard the launch entries that meet a condition, by the key of their list, with their records. -/
def purgeLaunches (gone : Nat → Launch → Bool) (status : Nat) (s : State) : State :=
  let hit : List (Nat × Launch) := s.q.launches.flatMap fun p => (p.2.filter (gone p.1)).map fun e => (p.1, e)
  let keep : Nat → List Launch → List Launch := fun k l => l.filter fun e => !gone k e
  let s := { s with q := { s.q with launches := s.q.launches.mapVals keep } }
  forAll hit (fun p s =>
    let isPort := decide (512 ≤ p.1)
    let dest := if isPort then p.1 - 512 else p.1
    stitchDiscard (launchDie isPort dest) (launchRecord p.2 isPort dest status 0 s)) s

/-- Discard the frames waiting for ports that meet a condition. -/
def purgePorts (gone : Nat → Frame → Bool) (s : State) : State :=
  forAll s.q.ports (fun p s =>
    let n := (p.2.filter (gone p.1)).length
    doIf (n != 0) (fun s => bump 0 (p.1 / 1024) Cn.stitchDiscards n
      { s with q := { s.q with ports := s.q.ports.put [] p.1 (p.2.filter fun f => !gone p.1 f) } }) s) s

/-- The frames of revoked flows, wherever they wait. -/
def purgeFlows (l : List Nat) (s : State) : State :=
  if l.isEmpty then s
  else
    let s := forAll (s.q.queues.map (·.1)) (purgeQueue (ofFlows l)) s
    purgePorts (fun _ => ofFlows l) (purgeLaunches (fun _ e => ofFlows l e.frame) 5 s)

/-- Everything that a queue holds. -/
def purgeWhole (q : Nat) (s : State) : State :=
  purgeQueue (fun _ => true) q (purgeLaunches (fun k e => decide (k < 512) && e.queue == q) 5 s)

/-! ### The revoke phase, object by object (Table 1.4, R55, R69, R74, R154, R176, R342, R460) -/

/-- A terminal leaves the rogue tests, the searches and the windows of its channel. -/
def forgetTerm (t : Nat) (s : State) : State :=
  match (termOf s t).ch with
  | none => s
  | some ch =>
    let s := dropWindowsOf t ch s
    let current := ((chOf s ch).rogue.bind (·.current)) == some t
    let s := modCh ch (fun x => { x with
      search := x.search.map fun y => { y with terms := y.terms.filter (· != t) }
      rogue := x.rogue.map fun r => { r with candidates := r.candidates.filter (· != t) } }) s
    doIf current (nextCandidate ch) s

/-- A stitch ends a terminal's activation: Deactivate_ONU-ID in the frame at B1, then ABSENT. -/
def revokeTerm (t : Nat) (s : State) : State :=
  if registered (termOf s t).st then dropTerm t .absent (sendTo t (fun o => .deactivate o) (forgetTerm t s)) else s

/-- The fields of a provisioning record that bind the activation (R460). -/
def activationFields : List Nat := [Fld.trmAllow, Fld.trmTree, Fld.trmOnu, Fld.trmSerial, Fld.trmRates]

/-- Backlog, credits and hints of a revoked allocation are discarded, and the terminal is told to unbind it. -/
def revokeAlloc (a : Nat) (s : State) : State :=
  let t := (cfgOf s).valN Kind.alloc a Fld.alTerm
  let id := (cfgOf s).valN Kind.alloc a Fld.alAllocId
  let s := doIf (allocOf s a).bound (sendTo t fun o => .assignAlloc o id false) s
  { s with pon := { s.pon with allocs := s.pon.allocs.del a, hints := s.pon.hints.filter fun p => p.2.alloc != a } }

/-- A queue that is re-parented is detached and keeps its frames; one that is removed loses them. -/
def revokeQueue (new : Cfg) (q : Nat) (s : State) : State :=
  if new.has Kind.queue q then modQueue q (fun x => { x with attached := false }) s else purgeWhole q s

/-- The lanes that serve the sub-port. -/
def lanesOf (c : Cfg) (p : Nat) : List Nat := subportLanes c p

/-- A sub-port goes down and takes with it what waits for it. -/
def revokePort (p : Nat) (s : State) : State :=
  let s := forAll (lanesOf (cfgOf s) p) (fun l => modLane l fun x => { x with up := false, training := false, failedAt := none }) (subportDown p s)
  let mine : Nat → Bool := fun k => k % 1024 / 8 == p
  purgePorts (fun k _ => mine k) (purgeLaunches (fun k _ => k == launchKey true p) 4 s)

/-- A sub-port is in service: it exists, is enabled and is not being revoked. -/
def portOn (c : Cfg) (p : Nat) : Bool := c.live Kind.subport p && c.on Kind.subport p Fld.spEnable

/-- A channel is disabled: DRAINING, or a shadow drain, or straight to DARK from FAULTED (R74, R76). -/
def disableChannel (ch : Nat) (s : State) : State :=
  let hit := (s.q.queues.map (·.1)).filter fun q => queueChan? s q == some ch
  let s := forAll hit purgeWhole (purgeLaunches (fun k _ => k == launchKey false ch) 5 s)
  let drop := fun s => forAll (chTerms s ch) (fun t s => dropTerm t .absent (forgetTerm t s)) s
  let clear := modCh ch fun x =>
    { x with drainFrom := some s.now, build := none, nextMap := none, carryMap := none, windowsDue := [], search := none, rogue := none }
  match (chOf s ch).st with
  | .dark => s
  | .faulted => enterCh ch .dark (drop s)
  | .shadow => clear (drop s)
  | .draining => s
  | _ => clear (enterCh ch .draining (drop s))

/-- The keys of a static entry: dies, tenant, VID and address. -/
def staticKey (c : Cfg) (n : Nat) : List DieId × Nat × Nat × Nat :=
  (maskDies (c.valN Kind.fmtStatic n Fld.fsDies), c.valN Kind.fmtStatic n Fld.fsTenant, c.valN Kind.fmtStatic n Fld.fsVid,
   c.valN Kind.fmtStatic n Fld.fsMac)

/-- A static entry stops holding for frames of the new stitch (R221). -/
def closeStatic (old : Cfg) (n : Nat) (s : State) : State :=
  let k := staticKey old n
  forAll k.1 (fun d => modFmt d fun l => l.map fun e =>
    if e.isStatic && sameKey e k.2.1 k.2.2.1 k.2.2.2 && !e.opening then { e with closing := true } else e) s

/-- The banks that an object's hints leave to it on a die. -/
def pinnedBank (o : Obj) (d : DieId) : Option Nat :=
  o.pin.bind fun l => (List.range 16).find? fun b => locFmtBank d b == l

/-- The place of a static entry on a die: in its pinned bank, or where a dynamic one would go; a dynamic entry is moved where that
makes room (R220). -/
def staticPlace (o : Obj) (d : DieId) (tenant key : Nat) (s : State) : Option (State × Nat × Nat) :=
  match pinnedBank o d with
  | some b => (pick (freeIndices s d b key) s).map fun i => (s, b, i)
  | none =>
    let l := (bestBanks s d tenant key).filter fun b => !o.forbid.contains (locFmtBank d b)
    match pick l s with
    | some b => (pick (freeIndices s d b key) s).map fun i => (s, b, i)
    | none => makeRoom s d tenant key

/-- Write a static entry for frames of the new stitch on its dies. -/
def openStatic (new : Cfg) (n : Nat) (s : State) : State :=
  let k := staticKey new n
  let e : FmtEntry := { mac := k.2.2.2, vid := k.2.2.1, tenant := k.2.1, isStatic := true, dtype := new.valN Kind.fmtStatic n Fld.fsDtype,
                        dvalue := new.valN Kind.fmtStatic n Fld.fsDvalue, opening := true }
  forAll k.1 (fun d s =>
    match staticPlace (objOr new Kind.fmtStatic n) d k.2.1 (fmtKey k.2.1 k.2.2.1 k.2.2.2) s with
    | none => s
    | some (s, b, i) =>
      putPlace { kind := Kind.fmtStatic, num := n, loc := locFmtBank d b }
        (modFmt d (fun l => { e with bank := b, index := i } :: l) (drawn s))) s

/-- A maintenance end point forgets what it has heard. -/
def revokeMep (m : Nat) (s : State) : State :=
  { s with svc := { s.svc with remotes := s.svc.remotes.filter (fun r => r.mep != m), lastCcm := s.svc.lastCcm.del m } }

/-- What one object loses at B1. The configuration already is the one between B1 and B2. -/
def revokeRef (old new : Cfg) (r : ObjRef) (s : State) : State :=
  let n := r.2
  match r.1 with
  | 5 =>
    let s := doIf (rises new old Kind.channel n Fld.chEnable) (disableChannel n) s
    doIf (rises old new Kind.channel n Fld.chEnable) (fun s => (endTest (68 + n) s).2) s
  | 6 => doIf (!new.has Kind.terminal n || differs old new Kind.terminal n activationFields) (revokeTerm n) s
  | 7 => doIf (isClosing (cfgOf s) Kind.alloc n) (revokeAlloc n) s
  | 9 => doIf (isClosing (cfgOf s) Kind.queue n) (revokeQueue new n) s
  | 10 =>
    doIf (isClosing (cfgOf s) Kind.flow n) (fun s =>
      { dropPlace Kind.flow n s with svc := { s.svc with blocked := s.svc.blocked.del n, probeSeq := s.svc.probeSeq.del n
                                                         lastProbe := s.svc.lastProbe.del n } }) s
  | 12 => doIf (appears old new Kind.policer n) (modPolicer n fun _ => {}) s
  | 15 =>
    let s := doIf (isClosing (cfgOf s) Kind.fmtStatic n) (closeStatic old n) s
    doIf (new.has Kind.fmtStatic n && (!old.has Kind.fmtStatic n || isClosing (cfgOf s) Kind.fmtStatic n)) (openStatic new n) s
  | 21 =>
    let s := doIf (portOn old n && isClosing (cfgOf s) Kind.subport n) (revokePort n) s
    doIf (!portOn old n && portOn new n) (forAll (lanesOf new n) fun l s => (endTest l s).2) s
  | 25 => doIf (isClosing (cfgOf s) Kind.mep n) (revokeMep n) s
  | 33 => doIf (isClosing (cfgOf s) Kind.sa n) (dropPlace Kind.sa n) s
  | _ => s

/-! ### Levels (R171, R182) -/

/-- A level within its burst, and at or above a floor. -/
def clipLevel (burst : Nat) (floor level : Int) : Int := max floor (min level (levelOf burst))

/-- The counted maximum frame that a shaper can go below zero by: of its channel, or of any where it has none. -/
def shaperFloor (s : State) (kind num : Nat) : Int :=
  let ch := if kind = Kind.queue then queueChan? s num
    else if kind = Kind.svcNode then some (num / 64)
    else (termOf s (num / 64)).ch
  let m := ((ch.map fun c => chValN s c Fld.chMaxFrame).getD 9600) + 8
  0 - levelOf m

/-- Every level keeps the bursts and the floor now in force. -/
def clipLevels (s : State) : State :=
  let sh : Nat → Shaper → Shaper := fun k x =>
    let kind := k / 2 ^ 40
    let num := k % 2 ^ 40
    let fl := shaperFloor s kind num
    { x with committed := clipLevel ((cfgOf s).valN kind num Fld.shCbs) fl x.committed
             peak := clipLevel (peakOf s kind num).2 fl x.peak }
  let po : Nat → PolicerSt → PolicerSt := fun k x =>
    { tc := min x.tc (levelOf ((cfgOf s).valN Kind.policer k Fld.poCbs)), tp := min x.tp (levelOf ((cfgOf s).valN Kind.policer k Fld.poPbs)) }
  { s with q := { s.q with shapers := s.q.shapers.mapVals sh, policers := s.q.policers.mapVals po } }

/-! ### B1 (R39, R40, R202) -/

/-- The pipelines of a die switch banks; the old bank stays for the frames that carry its number. -/
def switchBank (p : PendStitch) (d : DieId) (s : State) : State :=
  let s := match s.stitch.oldBanks.find? (dieNum d) with
    | none => s
    | some o => releaseBank d o.stitch s
  let s := doIf (!bankIsWritten s d) (writeBank d p) s
  let o : OldBank := ⟨bankStitch s, bankCfg s, s.now⟩
  { s with stitch := { s.stitch with oldBanks := s.stitch.oldBanks.set (dieNum d) o, bankWritten := s.stitch.bankWritten.del (dieNum d) } }

/-- Change the first pending stitch. -/
def modPend (f : PendStitch → PendStitch) (s : State) : State :=
  { s with stitch := { s.stitch with pend := match s.stitch.pend with
    | [] => []
    | p :: t => f p :: t } }

/-- Every block withdraws what the new configuration no longer allows, over the objects given. -/
def revokeAll (old mid new : Cfg) (refs : List ObjRef) (s : State) : State :=
  let s := { s with stitch := { s.stitch with cfg := mid } }
  let s := forAll refs (revokeRef old new) s
  let s := purgeFlows ((refsOf refs Kind.flow).filter fun f => isClosing mid Kind.flow f) s
  clipLevels s

/-- The revoke phase of a stitch. -/
def openWindow (p : PendStitch) (s : State) : State :=
  let s := refillPolicers (refillShapers s)
  let s := switchBank p .west (switchBank p .east s)
  let old := s.stitch.cfg
  let s := modPend (fun p => { p with opened := true }) s
  let s := revokeAll old (revokeCfg old p) (openCfg old p) (stitchRefs p) s
  raise Ev.stitchOpen .east [.u32 p.number.toNat] (settlePans s)

def execStitchOpen (dt : Nat) (s : State) : Host.Outcome State Fault Refusal :=
  let s := tick dt s
  .next <|
    match s.stitch.pend.head? with
    | none => s
    | some p => if !p.opened && decide (p.b1 ≤ s.now) then openWindow p s else s

/-! ### Blocks that do not confirm (R39, R44) -/

/-- Only blocks that hold placed objects can fail to confirm, and a sleeping one confirms at B1 (R44, R412). -/
def canLag (s : State) (b : Block) : Bool :=
  match locType b with
  | 1 => !(bobOf s (locPlace b)).quarantined
  | 2 => true
  | 3 => !quarantinedLane s (locPlace b) && (cpoolOf s (locPlace b / 8)).st == .run
  | 4 => true
  | 5 => true
  | _ => false

def execStitchConfirmCheck (dt : Nat) (unconfirmed : List Block) (s : State) : Host.Outcome State Fault Refusal :=
  let s := tick dt s
  .next <|
    match s.stitch.pend.head? with
    | none => s
    | some p =>
      if p.opened && !p.checked && decide (p.b1 + Time.us 100 ≤ s.now) then
        let late := unconfirmed.any (canLag s)
        modPend (fun p => { p with checked := true, late := late, b2 := if late then p.b1 + Time.us 250 else p.b2 }) s
      else s

/-- Move an entry of a quarantined bank to another bank of its die. -/
def moveEntry (d : DieId) (e : FmtEntry) (s : State) : State :=
  match placeFor s d e.tenant (fmtKey e.tenant e.vid e.mac) with
  | none => modFmt d (fun l => l.erase e) s
  | some (b, i) => countMove Kind.fmtStatic d true (modFmt d (fun l => { e with bank := b, index := i } :: l.erase e) (drawn s))

/-- Move a row of a quarantined group to another group of its die. -/
def moveRow (d : DieId) (k : Nat) (s : State) : State :=
  let num := k % 2 ^ 20
  match pick (rowPlaces s (bankCfg s) d num) s with
  | none => modRow k (fun x => { x with bad := true }) s
  | some r => modRow k (fun x => { x with phys := r }) (drawn s)

/-- The placed objects of a location start their moves to another. -/
def moveAway (from_ dst : Nat) (s : State) : State :=
  let hit := s.stitch.places.filter fun p => p.moving.getD p.loc == from_
  forAll hit (fun p s => startMove p dst true (breakPin p.kind p.num p.loc dst s)) s

/-- Another bank of the same table and die. -/
def otherPlace (s : State) (b : Block) : Nat :=
  let d := dieOfLoc b
  let all := if bitsOf (locPlace b) 26 24 = 0 then (List.range 16).map (locFmtBank d) else (List.range 512).map (locRowGroup d)
  ((all.filter fun x => x != b && !s.stitch.quarantined.contains x).head?).getD b

/-- Quarantine a block and move its objects by placement. -/
def quarantineBlock (b : Block) (s : State) : State :=
  let d := dieOfLoc b
  match locType b with
  | 1 => if (bobOf s (locPlace b)).quarantined then s else bobbinFault (locPlace b) s.twin.yieldIn s
  | 2 =>
    let deep := decide (locPlace b % 2 = 1)
    let hit := (s.stitch.places.filter fun p => p.kind == Kind.queue && p.loc == b && p.moving.isNone && !privileged s p.num).map (·.num)
    let s := if deep then { s with q := { s.q with deepFault := s.q.deepFault.set (dieNum d) true } } else s
    forAll hit (fun q s => moveQueue d (!deep) true q (breakPin Kind.queue q b (locPan d (!deep)) s)) s
  | 3 =>
    let l := locPlace b
    if quarantinedLane s l then s
    else
      let s := { s with ciph := { s.ciph with quarantined := l :: s.ciph.quarantined, loads := s.ciph.loads.del l
                                              loadSince := s.ciph.loadSince.del l } }
      let s := raise Ev.cipherLaneFault d [.u8 l] (bump 9 l Cn.laneFaults 1 s)
      settleLoad d (forAll (s.stitch.places.filter fun p => p.moving.getD p.loc == b) moveForFault s)
  | 4 =>
    let s := { s with stitch := { s.stitch with quarantined := b :: s.stitch.quarantined } }
    let s := moveAway b (otherPlace s b) s
    if bitsOf (locPlace b) 26 24 = 0 then
      forAll ((fmtOf s d).filter fun e => locFmtBank d e.bank == b) (moveEntry d) s
    else
      forAll ((s.tab.rows.filter fun p => p.1 % 2 ^ 20 / 65536 == dieNum d && locRowGroup d (p.2.phys / 32) == b).map (·.1)) (moveRow d) s
  | 5 =>
    let k := slotKey d (locPlace b % Config.keySlots)
    let s := { s with stitch := { s.stitch with quarantined := b :: s.stitch.quarantined } }
    match s.ciph.slots.find? k with
    | none => s
    | some x => modSlots (fun t => (t.del k).set (freeSlot s d) x) s
  | _ => s

/-- The objects that a stitch opens and that are on the move out of quarantined blocks. -/
def heldBy (p : PendStitch) (blocks : List Block) (s : State) : List ObjRef :=
  (stitchRefs p).filter fun r =>
    match placeOf? s r.1 r.2 with
    | none => false
    | some x => blocks.contains x.loc && x.moving.isSome && x.faultMove

def execStitchQuarantine (dt : Nat) (unconfirmed : List Block) (s : State) : Host.Outcome State Fault Refusal :=
  let s := tick dt s
  .next <|
    match s.stitch.pend.head? with
    | none => s
    | some p =>
      let blocks := (unconfirmed.filter (canLag s)).eraseDups
      if p.opened && p.late && p.quarantined.isEmpty && decide (p.b1 + Time.us 240 ≤ s.now) then
        let s := forAll blocks quarantineBlock s
        let held := heldBy p blocks s
        let s := modPend (fun p => { p with quarantined := blocks }) s
        settlePans { s with stitch := { s.stitch with heldObjs := s.stitch.heldObjs ++ held
                                                      heldStitch := if held.isEmpty then s.stitch.heldStitch else p.number } }
      else s

/-! ### The open phase, object by object (Tables 1.3 and 1.4, R19, R62, R69, R74, R163, R168, R342) -/

/-- Place an object that has no place yet: where it is pinned, else at the given location. -/
def placeNew (kind num loc : Nat) (s : State) : State :=
  let o := objOr (cfgOf s) kind num
  if (placeOf? s kind num).isSome then s else putPlace { kind := kind, num := num, loc := o.pin.getD loc } s

/-- An object's hints forbid its place, or pin it elsewhere: the location it must move to. -/
def hintMove (o : Obj) (p : Place) (alt : Option Nat) : Option Nat :=
  match o.pin with
  | some l => if l = p.loc then none else some l
  | none => if o.forbid.contains p.loc then alt else none

/-- Place a queue: express and management queues near, others deep unless their hints or a fault say otherwise. -/
def placeQueue (q : Nat) (s : State) : State :=
  let d := queueDie s q
  let o := objOr (cfgOf s) Kind.queue q
  let near := privileged s q || deepFaulted s d || o.forbid.contains (locPan d true) || o.pin == some (locPan d false)
  match placeOf? s Kind.queue q with
  | none =>
    putPlace { kind := Kind.queue, num := q, loc := locPan d (!near) }
      (modQueue q (fun x => { x with deep := !near, attached := true }) s)
  | some p =>
    let s := modQueue q (fun x => { x with attached := true }) s
    match hintMove o p (some (locPan d (p.loc == locPan d false))) with
    | some l => if p.moving.isNone then moveQueue d (l == locPan d true) false q s else s
    | none => s

/-- Place a flow or a secure association on a cipher lane of a die. -/
def placeOnLane (kind num : Nat) (d : DieId) (s : State) : State :=
  let o := objOr (cfgOf s) kind num
  match placeOf? s kind num with
  | none =>
    match o.pin with
    | some l => putPlace { kind := kind, num := num, loc := l } s
    | none =>
      match pick (laneChoices s d o.forbid) s with
      | none => s
      | some l => putPlace { kind := kind, num := num, loc := locLane l } (drawn s)
  | some p =>
    let alt := (pick (laneChoices s d (p.loc :: o.forbid)) s).map locLane
    match hintMove o p alt with
    | some l => if p.moving.isNone then startMove p l false (drawn s) else s
    | none => s

/-- The bobbin that a terminal's context belongs to: the home of its channel, or the one that serves for it. -/
def homeBobbin (s : State) (t : Nat) : Nat :=
  let ch := (termOf s t).ch.getD ((allowedChannels (cfgOf s) t).headD 0)
  (serverOf s ch).getD ch

def placeTerm (t : Nat) (s : State) : State :=
  match placeOf? s Kind.terminal t with
  | none => placeNew Kind.terminal t (locBobbin (homeBobbin s t)) s
  | some p =>
    let o := objOr (cfgOf s) Kind.terminal t
    match hintMove o p (((allLocs s (cfgOf s) Kind.terminal t).filter fun l => !o.forbid.contains l).head?) with
    | some l => if p.moving.isNone then startMove p l false s else s
    | none => s

/-- A privileged queue with its handle: near, with a shaper of its own. -/
def setupPriv (ch q : Nat) (s : State) : State :=
  if (s.q.queues.find? q).isSome then s
  else
    let s := putPlace { kind := Kind.queue, num := q, loc := locPan (dieOfChannel ch) false } s
    modShaper Kind.queue q (fun _ => {}) (modQueue q (fun _ => { deep := false }) s)

/-- A privileged queue of a channel takes its handle and its near pan at the first enable (R168). -/
def privQueue (ch : Nat) (express : Bool) (s : State) : State :=
  let x := chOf s ch
  match if express then x.expressQ else x.mgmtQ with
  | some q => setupPriv ch q s
  | none =>
    match s.stitch.queues.take with
    | none => s
    | some (q, p) =>
      let s := { s with stitch := { s.stitch with queues := p } }
      setupPriv ch q (modCh ch (fun x => if express then { x with expressQ := some q } else { x with mgmtQ := some q }) s)

/-- A channel is enabled: STARTING with the token, SHADOW without it; its cluster's modules are lit (R74, R326). -/
def enableChannel (ch : Nat) (s : State) : State :=
  let s := privQueue ch true (privQueue ch false s)
  if (chOf s ch).st = .dark then
    let k := clusterOf ch
    let lit := s.twin.lasers ++ s.twin.lasersAt.map (·.1)
    let s := enterCh ch (if s.twin.held then .starting else .shadow) (modCh ch (fun x =>
      { x with drainFrom := none, gens := x.gens.mapVals fun _ g => { currentHigh := g.currentHigh != g.incoming.isSome } }) s)
    doIf (s.twin.held && !s.twin.tokenIn && !lit.contains k) (fun s => { s with twin := { s.twin with lasers := s.twin.lasers ++ [k] } }) s
  else s

/-- The profile fields of a rate. -/
def profileFlds (r : Rate) : List Nat := (List.range 7).map (Fld.chProfile (rateNum r))

/-- A changed set of profiles: the incoming generation of a channel that runs; a channel that does not run has the new values from
the start (R62). -/
def profilesChanged (old new : Cfg) (ch : Nat) (r : Rate) (s : State) : State :=
  let st := (chOf s ch).st
  if !differs old new Kind.channel ch (profileFlds r) || st == .dark || st == .faulted || st == .draining then s
  else
    let was := (profileFlds r).map fun f => (f, old.val Kind.channel ch f)
    let s := modGen ch r (fun g => { g with incoming := some s.now, broadcastsLeft := 8, moved := [], stale := [], old := was }) s
    forAll ((chTerms s ch).filter fun t => (termOf s t).rate == r) sendIncoming s

/-- The host disables a terminal through its record (Table 4.2). -/
def hostDisable (t : Nat) (s : State) : State :=
  let tree := termTree s t
  let chans := match (termOf s t).ch with
    | some ch => [ch]
    | none => [wideOf tree, narrowOf tree]
  let s := forAll chans (fun c => sendPloam c (.disableSerial (serialOf s t) false)) s
  dropTerm t .disabled (forgetTerm t s)

/-- A new or changed source of a time base is a change of master (R283, R297). -/
def openBase (old new : Cfg) (n : Nat) (s : State) : State :=
  let src := new.valN Kind.timeBase n Fld.tbSource
  if !differs old new Kind.timeBase n [Fld.tbSource, Fld.tbArg] then settleCopies s
  else
    let s := modBase n (fun b => { b with source := src, sourceArg := new.valN Kind.timeBase n Fld.tbArg, ignored := false,
                                          beyond := [], fresh := true }) s
    let held := (baseOf s n).heldJump.isSome
    let s := modBase n (fun b => { b with heldJump := none, acceptAt := none }) s
    let s := doIf (held && (baseOf s n).st == .jumpHeld) (setBase n .holdover) s
    if src = 0 then doIf ((baseOf s n).st == .locked) (setBase n .holdover) s
    else if src = 4 then
      doIf ((baseOf s n).st == .unset) (fun s => modBase n (fun b => { b with inLimitSince := some s.now }) (setBase n .acquiring s))
        (settleCopies s)
    else s

/-- The remote end points that a maintenance end point expects are looked for from now on (R249). -/
def openMep (new : Cfg) (m : Nat) (s : State) : State :=
  let want := ((List.range 8).map fun i => new.val Kind.mep m (Fld.mpRemote + i)).filterMap fun v => if v < 0 then none else some v.toNat
  let fresh := want.filter fun r => !s.svc.remotes.any fun x => x.mep == m && x.remote == r
  { s with svc := { s.svc with remotes := s.svc.remotes ++ fresh.map fun r => { mep := m, remote := r, last := s.now } } }

/-- The device forgets a terminal: its record, its fitting slot and its key slots (R85, R268). -/
def eraseTerm (t : Nat) (s : State) : State :=
  let ds := [DieId.east, .west].flatMap fun d => [slotData, slotIntegrity, slotExchange].map fun k => (d, k)
  let s := forAll ds (fun x => freeSlots x.1 x.2 t) s
  { s with pon := { s.pon with terms := s.pon.terms.del t, fits := s.pon.fits.del t } }

/-- A terminal whose record now names another tree leaves its slots and its place. -/
def leaveTree (t : Nat) (s : State) : State :=
  let s := forAll [DieId.east, .west] (fun d => freeSlots d slotData t) (dropPlace Kind.terminal t s)
  { s with pon := { s.pon with fits := s.pon.fits.del t } }

/-- The running state of an object that is gone. -/
def eraseObj (r : ObjRef) (s : State) : State :=
  let n := r.2
  let s := dropPlace r.1 n s
  match r.1 with
  | 6 => eraseTerm n s
  | 8 => { s with q := { s.q with shapers := s.q.shapers.del (objKey Kind.subscriber n) } }
  | 9 => { s with q := { s.q with queues := s.q.queues.del n, shapers := s.q.shapers.del (objKey Kind.queue n) } }
  | 12 => { s with q := { s.q with policers := s.q.policers.del n } }
  | 21 => { s with lane := { s.lane with subports := s.lane.subports.del n } }
  | _ => s

/-- Static entries of the old stitch go, and those of the new one hold for every frame. -/
def settleStatics (d : DieId) (s : State) : State :=
  modFmt d (fun l => (l.filter fun e => !e.closing).map fun e => { e with opening := false }) s

/-- What one object is granted at B2. The configuration already is the new one. -/
def openRef (old new : Cfg) (r : ObjRef) (s : State) : State :=
  let n := r.2
  if !new.has r.1 n then s
  else
    match r.1 with
    | 5 =>
      let s := forAll (channelRates n) (profilesChanged old new n) s
      doIf (rises old new Kind.channel n Fld.chEnable) (enableChannel n) s
    | 6 =>
      let s := doIf (!old.has Kind.terminal n) (modTerm n fun _ => {}) s
      let s := doIf (old.has Kind.terminal n && differs old new Kind.terminal n [Fld.trmTree]) (leaveTree n) s
      placeTerm n (doIf (rises old new Kind.terminal n Fld.trmDisable) (hostDisable n) s)
    | 7 =>
      let t := new.valN Kind.alloc n Fld.alTerm
      let s := doIf (!old.has Kind.alloc n) (modAlloc n fun _ => {}) s
      doIf (!(allocOf s n).bound && (termOf s t).st == .operational) (bindAlloc t n) s
    | 8 => doIf (!old.has Kind.subscriber n) (modShaper Kind.subscriber n fun _ => {}) s
    | 9 => placeQueue n (doIf (!old.has Kind.queue n) (modShaper Kind.queue n fun _ => {}) s)
    | 10 => placeOnLane Kind.flow n (objDie s new Kind.flow n) s
    | 21 =>
      doIf (portOn new n && !(subportOf s n).up) (forAll ((lanesOf new n).filter fun l => trains s l && !(laneOf s l).up) startTraining) s
    | 25 => openMep new n s
    | 26 => openBase old new n s
    | 33 => doIf (new.on Kind.sa n Fld.saEnabled) (placeOnLane Kind.sa n (dieOfPort (n / 36))) s
    | _ => s

/-! ### B2 (R39, R40, R70, R85) -/

/-- Every block grants what the new configuration newly allows, over the objects given. -/
def openAll (old new : Cfg) (refs : List ObjRef) (s : State) : State :=
  let s := refillPolicers (refillShapers s)
  let s := { s with stitch := { s.stitch with cfg := new } }
  let s := settleStatics .west (settleStatics .east s)
  let s := forAll (refs.filter fun r => !new.has r.1 r.2) eraseObj s
  clipLevels (forAll refs (openRef old new) s)

/-- The values that a stitch's deletes free, in the order of its records (R6). -/
def freeDeleted (p : PendStitch) (s : State) : State :=
  forAll (p.recs.filter fun r => r.body.op == 3 && !(cfgOf s).has r.body.kind r.num) (fun r => freeNum r.body.kind r.num) s

/-- A commanded alteration pass is due from the B2 of its stitch (R424). -/
def wantsPass (p : PendStitch) : Bool := p.recs.any fun r => r.body.kind == Kind.device && r.eff.contains (Fld.devAltRun, 1)

/-- The open phase of a stitch: its number takes effect first, STITCH_CLOSE comes last (R39). -/
def closeWindow (p : PendStitch) (s : State) : State :=
  let mid := s.stitch.cfg
  let new := openCfg mid p
  let s := { s with stitch := { s.stitch with current := p.number, digest := p.digest, pend := s.stitch.pend.drop 1
                                              lastWindow := some (p.number, p.b1, p.b2) } }
  let s := openAll mid new (stitchRefs p) s
  let s := freeDeleted p s
  let s := doIf (wantsPass p) (fun s => { s with pwr := { s.pwr with passWanted := true } }) s
  raise Ev.stitchClose .east [.u32 p.number.toNat, .u8 (bit !s.stitch.heldObjs.isEmpty)] (settlePans s)

def execStitchClose (dt : Nat) (s : State) : Host.Outcome State Fault Refusal :=
  let s := tick dt s
  .next <|
    match s.stitch.pend.head? with
    | none => s
    | some p => if p.opened && decide (p.b2 ≤ s.now) then closeWindow p s else s

/-! ### PLACEMENT_MOVE_DONE (R21, R22, R26, R44) -/

/-- A table entry of the given object is whole again. -/
def mendEntry (kind num : Nat) (s : State) : State :=
  if kind = Kind.row then modRow (rowKey num true) (fun x => { x with bad := false }) (modRow (rowKey num false) (fun x => { x with bad := false }) s)
  else if kind = Kind.fmtStatic then
    let k := staticKey (cfgOf s) num
    forAll k.1 (fun d => modFmt d fun l => l.map fun e => if e.isStatic && sameKey e k.2.1 k.2.2.1 k.2.2.2 then { e with bad := false } else e) s
  else s

/-- The near→deep moves of a die are all complete: its watermark is looked at again (R159). -/
def settleNear (d : DieId) (s : State) : State :=
  let busy := s.stitch.places.any fun p => p.kind == Kind.queue && p.moving == some (locPan d true) && !p.faultMove
  if busy then s else nearCheck d { s with q := { s.q with nearHigh := s.q.nearHigh.del (dieNum d) } }

/-- An object's move is complete: it is PLACED at its new location, the move is counted, and an object held closed opens. -/
def completeMove (p : Place) (dst : Nat) (s : State) : State :=
  let s := putPlace { p with loc := dst, moving := none, faultMove := false, moves := p.moves + 1 } s
  let s := countMove p.kind (dieOfLoc dst) p.faultMove (mendEntry p.kind p.num s)
  let s := { s with stitch := { s.stitch with heldObjs := s.stitch.heldObjs.filter (· != (p.kind, p.num)) } }
  doIf (p.kind == Kind.queue) (fun s => settlePans (settleNear (dieOfLoc dst) s)) s

def execPlacementMoveDone (dt : Nat) (kind num : Nat) (s : State) : Host.Outcome State Fault Refusal :=
  let s := tick dt s
  .next <|
    match placeOf? s kind num with
    | none => mendEntry kind num s
    | some p =>
      match p.moving with
      | none => mendEntry kind num s
      | some dst => if kind == Kind.queue && !(queueOf s num).oldFrames.isEmpty then s else completeMove p dst s

end Sys2Proof.Machine
end

