-- ==== Sys2Proof/Machine/Twin.lean ====
section
/-! DEFINITION. The token, the takeover, the host's twin commands and the procedure of a resync (R305 to R312, R322 to R333). -/

namespace Sys2Proof.Machine
open Sys2Proof

/-! ### Claiming the token (R307, R311, R326) -/

/-- The unit asserts TOKEN_OUT and the guard runs; YIELD_OUT is inactive while the unit claims (R306). -/
def claimToken (takeover : Bool) (s : State) : State :=
  { s with twin := { s.twin with tokenOut := true, yieldOut := false, guardSince := some s.now, takeover := takeover } }

/-- How long TOKEN_IN must have been inactive since the end of start-up: 100 ms on side 0, 200 ms on side 1. -/
def claimWait (s : State) : Time := Time.ms (if s.pwr.side then 200 else 100)

def execTokenClaim (dt : Nat) (tokenInQuietSince : Time) (s : State) : Host.Outcome State Fault Refusal :=
  let s := tick dt s
  .next <|
    if s.pwr.ready && s.twin.role == .solo && !s.twin.held && s.twin.guardSince.isNone && !s.twin.tokenIn
        && decide (tokenInQuietSince ≤ s.pwr.readyAt) && decide (s.pwr.readyAt + claimWait s ≤ s.now) then
      claimToken false s
    else s

/-- L of a cluster: the first instant at least 100 µs after T_k that lies its laser lead before a grid boundary. -/
def laserAt (s : State) (cluster : Nat) : Time :=
  boundaryFrom s (s.now + Time.us 100 + laserLead s cluster) - laserLead s cluster

/-- The token is held from now on: T_k, and L and B_f of every cluster that is lit. -/
def holdToken (s : State) : State :=
  let k := litClusters s
  { s with twin := { s.twin with
      held := true, tk := s.now, guardSince := none, yieldOut := false
      lasersAt := k.map fun c => (c, laserAt s c)
      framesAt := k.map fun c => (c, laserAt s c + laserLead s c) } }

/-- Every time base keeps its value and its frequency, enters ACQUIRING and samples its stitched source (R320). -/
def baseTakeover (n : Nat) (s : State) : State :=
  if (baseOf s n).st = .unset then s
  else
    let s := modBase n (fun b => { b with fresh := true, heldJump := none, acceptAt := none, beyond := [] }) s
    setBase n .acquiring s

/-- A terminal's exchange was in progress at the old holder: one of its data keys is LOADED. -/
def exchangeOpen (s : State) (t : Nat) : Bool :=
  [1, 2].any fun i => (keyOf s (dieOfTerm s t) slotData t i).st == .loaded

/-- The exchange is abandoned, and the terminal is owed a new one (R268, R281). -/
def abandonLoaded (t : Nat) (s : State) : State :=
  let clear := fun i s => doIf ((keyOf s (dieOfTerm s t) slotData t i).st == .loaded) (clearKey (dieOfTerm s t) slotData t i) s
  let s := clear 2 (clear 1 s)
  { s with twin := { s.twin with exchDue := s.twin.exchDue ++ [t] } }

/-- What the new holder does at T_k of a takeover (R327): it takes the role, fails the pending service requests, abandons the key
exchanges and starts to acquire its own time sources. -/
def takeOver (s : State) : State :=
  let s := setRole .active Cause.takeover { s with twin := { s.twin with takeoverTold := false, exchDue := [] }
                                                   pwr := { s.pwr with passSince := none } }
  let s := forAll ((s.pon.terms.map (·.1)).filter (exchangeOpen s)) abandonLoaded (serviceTakeover s)
  settleCopies (forAll (List.range 8) baseTakeover s)

/-- The guard has ended with TOKEN_IN inactive throughout. -/
def guardHeld (s : State) : State :=
  let s := holdToken s
  if s.twin.takeover then takeOver s
  else setRole (if s.twin.paired then .active else .solo) Cause.startup s

/-- TOKEN_IN became active during the guard: side 1 gives way, side 0 starts its guard again. -/
def guardBroken (s : State) : State :=
  if s.pwr.side then
    { s with twin := { s.twin with tokenOut := false, tokenIn := true, guardSince := none, takeover := false
                                   lasers := [], yieldOut := yieldOutOf s.twin.role false } }
  else { s with twin := { s.twin with guardSince := some s.now } }

def execTokenGuardEnd (dt : Nat) (stayedInactive : Bool) (s : State) : Host.Outcome State Fault Refusal :=
  let s := tick dt s
  .next <|
    match s.twin.guardSince with
    | none => s
    | some t => if t + Time.us 10 ≤ s.now then (if stayedInactive then guardHeld s else guardBroken s) else s

/-- Filtered TOKEN_IN falls: an ARMED unit claims the token, and a holder's lasers are no longer held dark. -/
def execTokenInFall (dt : Nat) (s : State) : Host.Outcome State Fault Refusal :=
  let s := tick dt s
  let s := { s with twin := { s.twin with tokenIn := false } }
  .next <|
    if s.twin.role == .armed && s.twin.guardSince.isNone then claimToken true s
    else if s.twin.held then
      { s with twin := { s.twin with lasers := (litClusters s).filter fun k => (s.twin.lasersAt.find? k).isNone } }
    else s

/-- TOKEN_IN becomes active while the token is held: every LASER_EN falls, and side 1 releases its token (R308). -/
def tokenConflict (s : State) : State :=
  let s := raise Ev.tokenConflict .east [] { s with twin := { s.twin with lasers := [] } }
  if s.pwr.side then setRole (if s.twin.paired then .disarmed else .solo) Cause.tokenConflict (releaseToken s) else s

def execTokenConflict (dt : Nat) (s : State) : Host.Outcome State Fault Refusal :=
  let s := tick dt s
  let s := { s with twin := { s.twin with tokenIn := true } }
  .next (if s.twin.held then tokenConflict s else s)

/-! ### L and B_f (R326 to R329) -/

def execLaserRaise (dt : Nat) (s : State) : Host.Outcome State Fault Refusal :=
  let s := tick dt s
  let due := (s.twin.lasersAt.filter fun p => decide (p.2 ≤ s.now)).map (·.1)
  let left := s.twin.lasersAt.filter fun p => !decide (p.2 ≤ s.now)
  .next <|
    if s.twin.held && !s.twin.tokenIn then
      { s with twin := { s.twin with lasersAt := left, lasers := s.twin.lasers ++ due.filter fun k => !s.twin.lasers.contains k } }
    else s

/-- The step of a channel at a takeover: Δ_d + Δ_u, in ps (R325). -/
def takeoverStep (s : State) (ch : Nat) : Int :=
  let u := meanInt (chOf s ch).deltas
  u * (groupDown s ch : Int) / (groupUp s ch : Int) + u

/-- The takeover step of a channel with a feeder delta is broadcast and applied (R328). -/
def feederAdjust (ch : Nat) (s : State) : State :=
  if (chOf s ch).deltas.isEmpty then s
  else
    let step := takeoverStep s ch
    let s := raise Ev.twinFeederAdjust (dieOfChannel ch) [.u16 ch, .u64 (step % 2 ^ 64).toNat] s
    modCh ch (fun x => { x with deltas := [] }) (adjustChannel ch step (markUnverified (treeOf ch) s))

/-- A SHADOW channel of a unit that has taken the token: DRAINING when it was in a shadow drain, ACTIVE after a takeover and
STARTING after a claim (R77). -/
def firstFrame (ch : Nat) (s : State) : State :=
  if (chOf s ch).st != .shadow then s
  else if (chOf s ch).drainFrom.isSome then
    modCh ch (fun x => { x with drainFrom := some s.now }) (enterCh ch .draining s)
  else if s.twin.takeover then
    releaseDiscovery ch
      (feederAdjust ch (modCh ch (fun x => { x with discNext := s.now, isProtected := false, digestRun := 0 }) (enterCh ch .active s)))
  else enterCh ch .starting s

/-- TWIN_TAKEOVER is raised once, with the cause that YIELD_NOTICE gave, or NONE. -/
def tellTakeover (s : State) : State :=
  if s.twin.takeover && !s.twin.takeoverTold then
    raise Ev.twinTakeover .east [.u8 s.twin.yieldCause] { s with twin := { s.twin with takeoverTold := true, yieldCause := Cause.none_ } }
  else s

/-- The channels of a cluster. -/
def clusterChannels (k : Nat) : List Nat := (List.range 32).map (· + 32 * k)

/-- The terminals of a cluster that are owed a key exchange get one. -/
def oweExchanges (k : Nat) (s : State) : State :=
  let due := s.twin.exchDue.filter fun t => clusterOfTree (termTree s t) == k
  let left := s.twin.exchDue.filter fun t => !due.contains t
  forAll due startExchange { s with twin := { s.twin with exchDue := left } }

def execTakeoverFirstFrame (dt : Nat) (s : State) : Host.Outcome State Fault Refusal :=
  let s := tick dt s
  let due := (s.twin.framesAt.filter fun p => decide (p.2 ≤ s.now)).map (·.1)
  let left := s.twin.framesAt.filter fun p => !decide (p.2 ≤ s.now)
  .next <|
    if s.twin.held && !due.isEmpty then
      let s := tellTakeover { s with twin := { s.twin with framesAt := left } }
      forAll due (fun k s => oweExchanges k (forAll (clusterChannels k) firstFrame s)) s
    else s

/-! ### The resync procedure (R332) -/

/-- Start a resync: YIELD_OUT is asserted by the role, TWIN_RESYNC_START is raised and the request is sent. A resync of time only
starts at step 4. -/
def startResync (timeOnly : Bool) (cause : Nat) (s : State) : State :=
  let s := raise Ev.twinResyncStart .east [] (setRole .syncing cause s)
  let dark := (s.pon.channels.map (·.1)).all (isDark s)
  let s := { s with twin := { s.twin with
      resyncStep := if timeOnly then 4 else 2, resyncSince := s.now, resyncRetryAt := none, timeOnly := timeOnly
      imageNext := 0, imageRecs := [], imagePools := [], imagePrivs := [], keptStitches := [], allocsSeen := [], basesFit := []
      digestFit := false, aligned := s.twin.aligned && !dark } }
  if timeOnly then s
  else
    seamSend 0 .resyncRequest { s with stitch := { s.stitch with staging := [], nextIndex := 0, partNo := 0 } }

/-- A disagreement disarms the standby, which requests a resync (Table 12.8). -/
def disarmAndResync (timeOnly : Bool) (cause : Nat) (s : State) : State :=
  startResync timeOnly cause (setRole .disarmed cause { s with twin := { s.twin with resyncTries := 0 } })

/-- A step fails, or time is up: the unit is DISARMED, and tries again after 10 s, up to 3 times. -/
def failResync (step : Nat) (s : State) : State :=
  let again := decide (s.twin.resyncTries < 3)
  setRole .disarmed Cause.resyncFailed (raise Ev.twinResyncFailed .east [.u8 step]
    { s with twin := { s.twin with resyncStep := 0, keptStitches := [], imageRecs := []
                                   resyncRetryAt := if again then some (s.now + Time.sec 10) else none } })

def execTwinResyncFailed (dt step : Nat) (s : State) : Host.Outcome State Fault Refusal :=
  let s := tick dt s
  let n := s.twin.resyncStep
  let expired := decide (s.twin.resyncSince + Time.sec 5 ≤ s.now)
    || (n == 2 && decide (s.twin.resyncSince + Time.sec 3 ≤ s.now))
  .next (if s.twin.role == .syncing && n != 0 && (expired || n == step) then failResync n s else s)

def execResyncRetry (dt : Nat) (s : State) : Host.Outcome State Fault Refusal :=
  let s := tick dt s
  .next <|
    match s.twin.resyncRetryAt with
    | none => s
    | some t =>
      if s.twin.role == .disarmed && s.twin.paired && s.twin.seamUp && decide (t ≤ s.now) then
        startResync s.twin.timeOnly Cause.resyncFailed { s with twin := { s.twin with resyncTries := s.twin.resyncTries + 1 } }
      else s

/-- The channels of the standby that follow the holder's. -/
def shadowChannels (s : State) : List Nat := (s.pon.channels.filter fun p => p.2.st == .shadow).map (·.1)

/-- Every base compares within 100 ns, and every channel that carries OPERATIONAL terminals has a feeder delta. -/
def armReady (s : State) : Bool :=
  (s.twin.digestFit || s.twin.timeOnly) && (List.range 8).all (fun n => s.twin.basesFit.contains n)
    && (shadowChannels s).all fun ch => (opTerms s ch).isEmpty || !(chOf s ch).deltas.isEmpty

/-- Step 6: the standby is ARMED once everything compares. -/
def checkArmed (s : State) : State :=
  if s.twin.role == .syncing && s.twin.resyncStep == 6 && armReady s then
    raise Ev.twinArmed .east [] (setRole .armed Cause.resyncDone
      { s with twin := { s.twin with resyncStep := 0, resyncTries := 0, timeOnly := false } })
  else s

/-! ### The host's twin commands (R312, R324, R332) -/

/-- The channels that are not protected, as the twin query lists them. -/
def unprotectedChannels (s : State) : List Nat :=
  (s.pon.channels.filter fun p => p.2.st != .dark && !p.2.isProtected).map (·.1)

/-- The unit may hand over: it is ACTIVE, its partner is ARMED and no channel is unprotected. -/
def handoverOk (s : State) : Bool :=
  s.twin.role == .active && s.twin.held && !s.twin.yieldIn && (unprotectedChannels s).isEmpty

/-- The holder yields and becomes ARMED; the command answers the superframe count of the yield. -/
def handOverNow (s : State) : State := yieldAs .armed Cause.handover s

def execHandover (dt : Nat) (h : Hdr) (yieldIn : Bool) (s : State) : Host.Outcome State Fault Refusal :=
  .next <| hostCmd dt Op.handover h (fun s =>
    if !handoverOk s then fail St.state s
    else if (openStitch? s).isSome then .wait .handover (Time.ms 1) s
    else .done { result := [s.pon.sf.toNat] } (handOverNow s)) { s with twin := { s.twin with yieldIn := yieldIn } }

/-- A handover that waited for STITCH_CLOSE. -/
def execHandoverYield (dt : Nat) (s : State) : Host.Outcome State Fault Refusal :=
  let s := tick dt s
  let waits := !(ringsWaiting s (fun w => w == .handover)).isEmpty
  .next <|
    if !waits || (openStitch? s).isSome then s
    else if handoverOk s then
      finishWaiting (fun w => w == .handover) { result := [s.pon.sf.toNat] } (handOverNow s)
    else finishWaiting (fun w => w == .handover) { status := St.state } s

def execDisarm (dt : Nat) (h : Hdr) (s : State) : Host.Outcome State Fault Refusal :=
  .next <| hostCmd dt Op.disarm h (fun s =>
    if s.twin.role == .armed && s.twin.guardSince.isNone then okay (setRole .disarmed Cause.hostCommand s) else fail St.state s) s

def execResync (dt : Nat) (h : Hdr) (s : State) : Host.Outcome State Fault Refusal :=
  .next <| hostCmd dt Op.resync h (fun s =>
    if s.twin.role == .disarmed && s.twin.paired && s.twin.seamUp then
      okay (startResync false Cause.hostCommand { s with twin := { s.twin with resyncTries := 0 } })
    else fail St.state s) s

end Sys2Proof.Machine
end

