-- ==== Sys2Proof/Machine/Abort.lean ====
section
/-! DEFINITION. Unpick: ABORT, its scan of the rings, and the expiry of a command at its maximum time (R366, R375 to R378). -/

namespace Sys2Proof.Machine
open Sys2Proof

/-! ### Stopping what serves a command (R366, R377) -/

/-- The commit points that a waiting command has passed: the dies of a table insert that have committed as a mask, 1 for an
accepted stitch, otherwise none (R378). -/
def commitPoints : Wait → Nat
  | .fmtInsert _ _ _ _ _ _ done =>
    let dies := (List.range (done.length / 4)).filter fun i => done.getD (4 * i + 1) 0 == St.ok
    (dies.map fun i => 2 ^ done.getD (4 * i) 0).sum
  | .stitchAck _ => 1
  | _ => 0

/-- The request that a ring's running command has at a terminal. -/
def ringOmci? (s : State) (p : PortId) (r term : Nat) : Option OmciReq :=
  ((termOf s term).omciOut ++ (termOf s term).omciWait).find? fun q => q.use == .host && q.port == p && q.ring == r

/-- The request of the command still waits behind others of its terminal. -/
def omciQueued (s : State) (p : PortId) (r term : Nat) : Bool :=
  (termOf s term).omciWait.any fun q => q.use == .host && q.port == p && q.ring == r

/-- Some other ring waits for the scan of the lane. -/
def scanShared (s : State) (p : PortId) (r lane : Nat) : Bool := (ringsWaiting s fun w => w == .scan lane).any (· != (p, r))

/-- Stop a series: its command answers the replies received so far. -/
def stopSeries (p : PortId) (r mep : Nat) (trace : Bool) (a : Answer) (s : State) : State :=
  match seriesOf? s mep trace with
  | none => finishRunning p r a s
  | some x => endSeries x a.status s

/-- Stop the engine that serves a ring's running command, and write the command's one reply. -/
def stopRunning (p : PortId) (r : Nat) (a : Answer) (s : State) : State :=
  match (ringOf s p r).running.map Running.wait with
  | none => s
  | some (.omci term _) =>
    match ringOmci? s p r term with
    | none => finishRunning p r a s
    | some q => nextOmci term q.prio (endOmci term q a s)
  | some (.lbm mep) => stopSeries p r mep false a s
  | some (.ltm mep) => stopSeries p r mep true a s
  | some (.scan lane) => if scanShared s p r lane then finishRunning p r a s else endScan lane a s
  | some (.stitchAck _) => finishRunning p r a { s with stitch := { s.stitch with ackDue := none } }
  | some _ => finishRunning p r a s

/-! ### The engines that ABORT can name (R376, R377) -/

/-- Stop the target of an ABORT: what the ABORT answers, and the state. -/
def abortEngine (target : AbortTarget) (s : State) : Answer × State :=
  let gone : Answer × State := ({ status := St.notActive }, s)
  match target with
  | .command p r seq =>
    match (ringOf s p r).running with
    | none => gone
    | some c => if c.seq = seq then ({ detail := commitPoints c.wait }, stopRunning p r { status := St.aborted } s) else gone
  | .download t => if (termOf s t).download.isSome then ({}, failDownload t swdlAborted s) else gone
  | .omci t prio =>
    match (termOf s t).omciOut.find? fun q => q.prio == prio with
    | none => gone
    | some q => ({}, nextOmci t prio (endOmci t q { status := St.aborted } s))
  | .laneTest l =>
    if (laneOf s l).test.isSome && !isSeamLane l then
      let e := endTest l s
      ({ result := e.1 }, e.2)
    else gone
  | .seamTest l =>
    if (laneOf s (64 + l)).test.isSome && l < 4 then
      let e := endTest (64 + l) s
      ({ result := e.1 }, e.2)
    else gone
  | .marginScan l => if s.lane.scans.any (·.1 == l) then ({}, endScan l { status := St.aborted } s) else gone
  | .mepSeries m =>
    if s.svc.series.any (·.mep == m) then
      ({}, forAll (s.svc.series.filter fun x => x.mep == m) (fun x => endSeries x St.aborted) s)
    else gone
  | .resync =>
    if s.twin.role == .syncing then
      ({}, setRole .disarmed Cause.hostCommand { s with twin := { s.twin with resyncStep := 0, resyncRetryAt := none } })
    else gone

/-- A ring's ABORT is visible: it lies between the consumer and the producer index of an enabled ring whose port's link is up, and
has not been carried out. -/
def abortVisible (s : State) (e : AbortEntry) : Bool :=
  let x := ringOf s e.port e.ring
  s.pwr.ready && linkOf s e.port && x.enable && decide ((e.idx - x.cmdCons).toNat < (x.cmdProd - x.cmdCons).toNat)
    && !x.abortsDone.contains e.idx

/-- The reply area has room for the ABORT's reply beside that of the running command. -/
def abortRoom (s : State) (e : AbortEntry) : Bool :=
  let x := ringOf s e.port e.ring
  decide ((x.rplProd - x.rplCons).toNat + bit x.running.isSome < ringEntries x)

/-- The packet fields of an ABORT entry. -/
def abortHdr (e : AbortEntry) : Hdr :=
  { port := e.port, ring := e.ring, signal := e.signal, seq := e.seq, session := e.session, stitch := e.stitch }

/-- Carry out one ABORT out of ring order, and note it so that the ring skips it later (R375, R377). An ABORT that names no session
of its ring, or a stitch number that is not current, is turned away like every command. -/
def carryOut (e : AbortEntry) (s : State) : State :=
  if !abortVisible s e || !abortRoom s e then s
  else
    let s := modRing e.port e.ring (fun x => { x with abortsDone := x.abortsDone ++ [e.idx] }) s
    let reply := postReply e.port e.ring Op.abort e.seq e.session e.signal
    match gateStatus Op.abort (abortHdr e) s with
    | some st => reply { status := st } s
    | none =>
      let r := abortEngine e.target s
      reply r.1 (toStandby 0 (.hostEvent (.abort e.target)) r.2)

def execAbort (dt : Nat) (entry : AbortEntry) (s : State) : Host.Outcome State Fault Refusal :=
  .next (carryOut entry (tick dt s))

/-- Unpick's scan: it examines the rings every 2 µs and carries out each ABORT that it finds. -/
def execUnpickScan (dt : Nat) (found : List AbortEntry) (s : State) : Host.Outcome State Fault Refusal :=
  let s := tick dt s
  .next <|
    if s.host.lastScan + Time.us 2 ≤ s.now then
      forAll found carryOut { s with host := { s.host with lastScan := s.now } }
    else s

/-! ### Expiry (R366) -/

/-- The status of a command that reaches its maximum time: BUSY while it waited for a lock, a stitch window or a queue of requests,
EXPIRED otherwise. -/
def expiryStatus (s : State) (p : PortId) (r : Nat) : Wait → Nat
  | .fmtInsert _ _ _ _ _ _ _ => St.busy
  | .fmtDelete _ _ _ _ => St.busy
  | .handover => St.busy
  | .omci term _ => if omciQueued s p r term then St.busy else St.expired
  | .stitchAck _ => St.expired
  | .lbm _ => St.expired
  | .ltm _ => St.expired
  | .scan _ => St.expired

def execCommandExpired (dt : Nat) (port : PortId) (ring : Nat) (s : State) : Host.Outcome State Fault Refusal :=
  let s := tick dt s
  .next <|
    match (ringOf s port ring).running with
    | none => s
    | some c =>
      if c.started + c.maxTime ≤ s.now then
        stopRunning port ring { status := expiryStatus s port ring c.wait, detail := commitPoints c.wait }
          (raise Ev.commandExpired .east [.u8 (portNum port), .u8 ring, .u16 c.opcode, .u32 c.seq.toNat] s)
      else s

end Sys2Proof.Machine
end

