-- ==== Sys2Proof/Machine/Seam.lean ====
section
/-! DEFINITION. The messages of the Seam and what the standby follows: pairing, the grid, stitches, builds, digests, rangings, keys, time, allocation state, the configuration image and the burst tally (R311 to R333). -/

namespace Sys2Proof.Machine
open Sys2Proof

/-! ### Accepting a message (R313, R314) -/

/-- A message is discarded: its tag fails, its sequence number is not greater than the last one of its lane, or no pairing key has
been imported. HELLO opens the sequence of its lane. -/
def badSeam (hello : Bool) (sh : SeamHdr) (s : State) : Bool :=
  !sh.tagOk || s.ciph.pairingKey.isNone || (!hello && decide (sh.seq ≤ s.twin.rxSeq.getD sh.lane 0))

/-- A discarded message is counted, with its time. -/
def countBadSeam (s : State) : State :=
  bump 5 8 Cn.seamBad 1 { s with twin := { s.twin with
    badMsgs := (s.twin.badMsgs.filter fun t => decide (s.now < t + Time.sec 1)) ++ [s.now] } }

/-- An accepted message moves its lane's sequence and shows the Seam to be up. -/
def noteSeam (hello : Bool) (sh : SeamHdr) (s : State) : State :=
  let last := s.twin.rxSeq.getD sh.lane 0
  let s := doIf (!hello && decide (last + 1 < sh.seq)) (bump 5 8 Cn.seamGap (sh.seq - last - 1)) s
  { s with twin := { s.twin with
      rxSeq := if hello then [(sh.lane, sh.seq)] else s.twin.rxSeq.set sh.lane sh.seq
      lastMsg := s.now, seamUp := true, downSince := none, partnerStitch := sh.stitch } }

/-- What the Seam's return and the sender's token set going: a standby that the loss of the Seam disarmed resyncs, and a unit that
found no token at its start-up enters SYNCING once its partner holds it (R311, R330). -/
def followToken (sh : SeamHdr) (s : State) : State :=
  if s.twin.paired && sh.token && !s.twin.held && s.twin.guardSince.isNone then
    if s.twin.role == .solo then startResync false Cause.hello s
    else if s.twin.role == .disarmed && s.twin.lastCause == Cause.seamLoss then startResync false Cause.seamLoss s
    else s
  else s

/-- The sender asked for an acknowledgement. -/
def ackSeam (sh : SeamHdr) (s : State) : State := doIf sh.ackReq (seamSend sh.lane (.ack sh.seq)) s

/-- Receive a message: a unit that is not ready, or whose lane is down, hears nothing; a bad message is counted; all but HELLO need a
paired partner. -/
def seamIn (hello : Bool) (sh : SeamHdr) (f : State → State) (s : State) : State :=
  if !s.pwr.ready || 4 ≤ sh.lane || !seamLaneUp s sh.lane then s
  else if badSeam hello sh s then countBadSeam s
  else if hello then f (noteSeam true sh s)
  else if s.twin.paired then f (followToken sh (noteSeam false sh s))
  else noteSeam false sh s

/-- Messages of the holder concern only a standby. -/
def follows (s : State) : Bool := isStandby s && !s.twin.held

/-! ### Pairing (R311, R317) -/

/-- The highest version of both, when it lies in both ranges and at or above both minimum pairing versions. -/
def pairVersion (s : State) (lowest highest minimum : Nat) : Option Nat :=
  let v := min highest seamHighest
  if max lowest seamLowest ≤ v && minimum ≤ v && minPairing s ≤ v then some v else none

/-- Pairing is refused: both ranges are named and the unit runs SOLO. -/
def refusePairing (lowest highest : Nat) (s : State) : State :=
  setRole .solo Cause.versionRefused
    (raise Ev.twinVersionRefused .east [.u8 seamLowest, .u8 seamHighest, .u8 lowest, .u8 highest]
      { s with twin := { s.twin with paired := false } })

/-- Answer a HELLO with one of its own: the partner has not had it yet, or has started again. -/
def answerHello (s : State) : State :=
  if s.twin.helloSent && !s.twin.paired then s
  else seamSend 0 (.hello seamLowest seamHighest (minPairing s) s.stitch.digest) { s with twin := { s.twin with helloSent := true } }

/-- The partner is paired under a version. -/
def pairWith (v : Nat) (serial : BitVec 64) (role : Role) (sh : SeamHdr) (s : State) : State :=
  let s := answerHello s
  let s := raise Ev.twinPaired .east [] { s with twin := { s.twin with
    paired := true, seamVersion := v, partnerSerial := serial, partnerRole := role } }
  if s.twin.held then setRole .active Cause.hello s
  else followToken sh s

def execHello (dt : Nat) (sh : SeamHdr) (lowest highest minimum : Nat) (serial : BitVec 64) (role : Role) (digest : BitVec 64)
    (s : State) : Host.Outcome State Fault Refusal :=
  .next <| seamIn true sh (fun s =>
    let s := { s with twin := { s.twin with partnerDigest := digest } }
    match pairVersion s lowest highest minimum with
    | none => refusePairing lowest highest s
    | some v => pairWith v serial role sh s) (tick dt s)

/-! ### The grid (R51, R315, R330) -/

/-- The measured phase of the holder's grid against the own one, in ps, with the host-set asymmetry of the Seam taken off. -/
def gridPhaseErr (s : State) (phasePs : Int) : Int := phasePs - (cfgOf s).val Kind.device 0 Fld.devSeamAsymPs / 2

/-- A move of the grid towards the holder's: whole steps of 0.16 ns, at most 1 ns. -/
def gridMove (err : Int) : Int :=
  let n := min 6 (err.natAbs / 160)
  if err < 0 then -(160 * (n : Int)) else 160 * (n : Int)

/-- The first alignment of a unit whose channels are all DARK steps the grid and the count. -/
def stepGrid (count : SF) (err : Int) (s : State) : State :=
  let from_ := if s.pon.gridOn then s.pon.gridAt else s.now
  { s with pon := { s.pon with gridOn := true, gridAt := ((from_ : Int) + err).toNat, sf := count }
           twin := { s.twin with aligned := true } }

/-- Follow the holder's grid. -/
def alignGrid (count : SF) (phasePs : Int) (s : State) : State :=
  let err := gridPhaseErr s phasePs
  if !s.twin.aligned && (s.pon.channels.map (·.1)).all (isDark s) then stepGrid count err s
  else { s with pon := { s.pon with gridAt := ((s.pon.gridAt : Int) + gridMove err).toNat }, twin := { s.twin with aligned := true } }

/-- Count, stitch number or digest differ from the holder's. -/
def gridDiffers (s : State) (sh : SeamHdr) (count : SF) (digest : BitVec 64) : Bool :=
  s.pon.sf != count || s.stitch.current != sh.stitch || s.stitch.digest != digest

/-- Names both stitch numbers and digests, the own first. -/
def configMismatch (own theirs : StitchNo) (dOwn dTheirs : BitVec 64) (s : State) : State :=
  raise Ev.twinConfigMismatch .east [.u32 own.toNat, .u32 theirs.toNat, .u64 dOwn.toNat, .u64 dTheirs.toNat] s

/-- A GRID message at the standby. -/
def gridIn (sh : SeamHdr) (count : SF) (phasePs : Int) (digest : BitVec 64) (s : State) : State :=
  let s := { s with twin := { s.twin with partnerDigest := digest } }
  if !follows s then s
  else
    let s := alignGrid count phasePs s
    if s.twin.role == .armed && s.twin.guardSince.isNone && gridDiffers s sh count digest then
      disarmAndResync false Cause.configMismatch (configMismatch s.stitch.current sh.stitch s.stitch.digest digest s)
    else if s.twin.role == .syncing then
      checkArmed { s with twin := { s.twin with digestFit := !gridDiffers s sh count digest } }
    else s

def execGrid (dt : Nat) (sh : SeamHdr) (count : SF) (phasePs : Int) (digest : BitVec 64) (s : State) :
    Host.Outcome State Fault Refusal :=
  .next <| seamIn false sh (fun s => gridIn sh count phasePs digest (ackSeam sh s)) (tick dt s)

/-- Each second the standby measures the drift of the grids; above 0.1 ppm it is DISARMED. -/
def execGridDriftCheck (dt : Nat) (driftPpb : Int) (s : State) : Host.Outcome State Fault Refusal :=
  let s := tick dt s
  .next <|
    if follows s && s.twin.aligned && s.twin.seamUp && decide (s.twin.lastDrift + Time.sec 1 ≤ s.now) then
      let s := { s with twin := { s.twin with lastDrift := s.now } }
      if 100 < driftPpb.natAbs then setRole .disarmed Cause.gridFrequency s else s
    else s

/-! ### Stitches (R316, R332) -/

/-- The number of a record that the holder created: its pool moves on when the number is the next one. -/
def takeNumber (r : BasteRec) (num : Nat) (s : State) : State :=
  if r.op = 1 then
    match issueNum r s with
    | some (v, s') => if v = num then s' else s
    | none => s
  else s

/-- The configuration image is awaited: nothing is issued before it is loaded. -/
def awaitsImage (s : State) : Bool := s.twin.role == .syncing && s.twin.resyncStep == 2

/-- A part of the stream is the next one, or the first one after a resync began. -/
def partFits (s : State) (part : Nat) : Bool := decide (s.stitch.partNo ≤ part)

def nextPart (part : Nat) (s : State) : State := { s with stitch := { s.stitch with partNo := part + 1 } }

/-- The staging set that a closing part names, kept until the image is loaded. -/
def keepStitch (number : StitchNo) (b1 : Time) (digest : BitVec 64) (s : State) : State :=
  let p : PendStitch := { number := number, recs := s.stitch.staging, b1 := b1, b2 := b1 + Time.us 125, digest := digest }
  { s with stitch := { s.stitch with staging := [], nextIndex := 0 }, twin := { s.twin with keptStitches := s.twin.keptStitches ++ [p] } }

/-- The standby holds every record that the closing part counts, and its own D agrees. -/
def closingAgrees (s : State) (number : StitchNo) (count : Nat) (digest : BitVec 64) : Bool :=
  s.stitch.staging.length == count && stagingNumber s == number && digestWith (lastDigest s) number s.stitch.staging == digest

/-- A STITCH message at the standby. -/
def stitchIn (sh : SeamHdr) (part : StitchPart) (s : State) : State :=
  match part with
  | .record n r num chosen =>
    if !partFits s n then s
    else
      let s := nextPart n s
      (stageRec r num chosen (if awaitsImage s then s else takeNumber r num s)).2
  | .discard n =>
    if !partFits s n then s
    else if awaitsImage s then { nextPart n s with stitch := { (nextPart n s).stitch with staging := [], nextIndex := 0 } }
    else discardStaging (nextPart n s)
  | .closing n number count b1 digest =>
    if !partFits s n then s
    else
      let s := nextPart n s
      if awaitsImage s then ackSeam sh (keepStitch number b1 digest s)
      else if closingAgrees s number count digest then ackSeam sh (acceptStitch b1 s)
      else discardStaging s

def execSeamStitch (dt : Nat) (sh : SeamHdr) (part : StitchPart) (s : State) : Host.Outcome State Fault Refusal :=
  .next <| seamIn false sh (fun s => if follows s then stitchIn sh part s else s) (tick dt s)

/-- End the commands that wait for the standby's acknowledgement of a closing part. -/
def answerStitches (s : State) : State :=
  let isAck : Wait → Bool := fun w => match w with
    | .stitchAck _ => true
    | _ => false
  forAll (ringsWaiting s isAck) (fun pr s =>
    match (ringOf s pr.1 pr.2).running.map Running.wait with
    | some (.stitchAck result) => finishRunning pr.1 pr.2 { result := result } s
    | _ => s) { s with stitch := { s.stitch with ackDue := none } }

def execAck (dt : Nat) (sh : SeamHdr) (seqs : List Nat) (digestAgrees : Bool) (s : State) : Host.Outcome State Fault Refusal :=
  .next <| seamIn false sh (fun s =>
    if s.twin.held && s.stitch.ackDue.isSome && digestAgrees && !seqs.isEmpty then answerStitches s else s) (tick dt s)

/-- No acknowledgement within 20 µs: the reply goes out anyway, and the standby is out of step. -/
def execStitchAckTimeout (dt : Nat) (s : State) : Host.Outcome State Fault Refusal :=
  let s := tick dt s
  .next <|
    match s.stitch.ackDue with
    | none => s
    | some (n, t) =>
      if t ≤ s.now then answerStitches (configMismatch n s.twin.partnerStitch (lastDigest s) s.twin.partnerDigest s) else s

/-! ### The configuration image (R332) -/

/-- The stitched configuration of the current stitch, also while a window changes it. -/
def currentCfg (s : State) : Cfg :=
  match openStitch? s, s.stitch.oldBanks.find? 0 with
  | some _, some b => b.cfg
  | _, _ => s.stitch.cfg

/-- Every stitched object as a create. -/
def imageRecords (s : State) : List (BasteRec × Nat) :=
  (currentCfg s).map fun p =>
    ({ op := 1, kind := p.2.kind, handle := p.2.num, pin := p.2.pin.getD 0xFFFFFFFF, forbid := p.2.forbid, fields := p.2.fields }, p.2.num)

/-- Every handle pool. -/
def imagePoolsOf (s : State) : List ImagePool :=
  let one : Nat → Nat → Pool → ImagePool := fun k d p => (k, d, p.next, p.freed)
  [one 6 0 s.stitch.terms, one 7 0 s.stitch.allocs, one 9 0 s.stitch.queues, one 10 0 s.stitch.flows]
    ++ s.stitch.pools.map fun p => one (p.1 / 2) (p.1 % 2) p.2

/-- The privileged queues of every channel that has been enabled. -/
def imagePrivsOf (s : State) : List (Nat × Nat × Nat) :=
  s.pon.channels.filterMap fun p =>
    match p.2.expressQ, p.2.mgmtQ with
    | some e, some m => some (p.1, e, m)
    | _, _ => none

/-- Records of one chunk. -/
def chunkRecs : Nat := 64

/-- The image in chunks; the last one carries the pools, the privileged queues and D. -/
def imageChunks (s : State) : List SeamMsg :=
  let l := imageRecords s
  let n := max 1 (ceilDiv l.length chunkRecs)
  (List.range n).map fun i =>
    .resyncChunk i (i + 1 == n) s.stitch.current s.stitch.digest ((l.drop (chunkRecs * i)).take chunkRecs)
      (if i + 1 == n then imagePoolsOf s else []) (if i + 1 == n then imagePrivsOf s else [])

/-- The stream starts again behind the image: the stitches that are pending and the staging set. -/
def restream (s : State) : State :=
  let recs : List StagedRec → State → State := fun l s =>
    forAll l (fun r => stitchPart fun n => .stitchRec n r.body r.num r.chosen) s
  let s := stitchPart .stitchDiscard s
  let s := forAll s.stitch.pend (fun p s =>
    stitchPart (fun n => .stitchClosing n p.number p.recs.length p.b1 p.digest) (recs p.recs s)) s
  recs s.stitch.staging s

/-- The keys that cross the Seam: all but the imported ones. -/
def crossingKeys (s : State) : List (DieId × Nat × Nat × Nat) :=
  s.ciph.slots.flatMap fun p =>
    if 3 < p.2.kind then []
    else
      let mk := fun i (k : KeyVal) => if k.st == .free then [] else [(dieOf (p.1 / Config.keySlots), p.2.kind, p.2.owner, i)]
      mk 1 p.2.key1 ++ mk 2 p.2.key2

/-- The holder answers a RESYNC request: the image, the stream, every key context and every terminal's latest ranging now, and the
allocation state of every channel at the next budget period. -/
def serveResync (s : State) : State :=
  let s := forAll (imageChunks s) (seamSend 0) s
  let s := restream s
  let s := forAll (crossingKeys s) (fun k => sendKey k.1 k.2.1 k.2.2.1 k.2.2.2) s
  let s := forAll (s.pon.terms.map (·.1)) (fun t => sendRanging t none) s
  { s with twin := { s.twin with allocsWanted := true } }

/-- The configuration that an image describes. -/
def imageCfg (recs : List (BasteRec × Nat)) : Cfg :=
  recs.foldl (fun c p => c.set (objKey p.1.kind p.2)
    { kind := p.1.kind, num := p.2, fields := setFields [] p.1.fields, pin := recPin p.1 none, forbid := p.1.forbid }) []

/-- An object of the old configuration, brought to the new one by a record of its own, or none where nothing differs. -/
def imageChange (old new : Cfg) (k : Nat) : Option StagedRec :=
  let mk := fun op (o : Obj) fields => some { body := { op := op, kind := o.kind, handle := o.num, fields := fields }, num := o.num, index := 0,
                                              eff := fields : StagedRec }
  match old.find? k, new.find? k with
  | none, none => none
  | some a, none =>
    if (Schema.standing a.kind).isSome then mk 2 a (a.fields.map fun p => (p.1, new.val a.kind a.num p.1)) else mk 3 a []
  | none, some b => if (Schema.standing b.kind).isSome then mk 2 b b.fields else mk 1 b b.fields
  | some a, some b =>
    if a.fields = b.fields && a.pin = b.pin && a.forbid = b.forbid then none
    else mk 2 b (b.fields ++ (a.fields.filter fun p => !b.fields.any fun q => q.1 == p.1).map fun p => (p.1, new.val b.kind b.num p.1))

/-- The records that lead from one configuration to another: deletes, then creates, then changes. -/
def imageDelta (old new : Cfg) : List StagedRec :=
  let l := ((old.map (·.1)) ++ new.map (·.1)).eraseDups.filterMap (imageChange old new)
  (l.filter fun r => r.body.op == 3) ++ (l.filter fun r => r.body.op == 1) ++ l.filter fun r => r.body.op == 2

/-- Open and close a stitch's window in one go. -/
def applyNow (p : PendStitch) (s : State) : State :=
  let s := { s with stitch := { s.stitch with pend := p :: s.stitch.pend, bankWritten := [] } }
  let s := openWindow p s
  closeWindow { p with opened := true } s

/-- Take the handles of the kept stitches and of the staging set out of the loaded pools. -/
def takeKept (l : List StagedRec) (s : State) : State := forAll l (fun r => takeNumber r.body r.num) s

/-- A kept stitch takes its turn: at once when its B2 has passed, otherwise at its own boundaries; one that does not follow the last
is none of this image's. -/
def applyKept (p : PendStitch) (s : State) : State :=
  let last := ((s.stitch.pend.getLast?).map (·.number)).getD s.stitch.current
  if p.number != succStitch last then s
  else
    let s := takeKept p.recs s
    if p.b2 ≤ s.now && s.stitch.pend.isEmpty then applyNow p s
    else { s with stitch := { s.stitch with pend := s.stitch.pend ++ [p] } }

/-- The bases, rangings and keys are on their way: step 4, or step 6 at once when no channel waits for its allocation state. -/
def afterImage (s : State) : State :=
  { s with twin := { s.twin with resyncStep := if (shadowChannels s).isEmpty then 6 else 4 } }

/-- Load the image of the holder's current stitch, and then the stitches kept meanwhile. -/
def loadImage (stitch : StitchNo) (digest : BitVec 64) (s : State) : State :=
  let new := imageCfg s.twin.imageRecs
  let p : PendStitch := { number := stitch, recs := imageDelta s.stitch.cfg new, b1 := s.now, b2 := s.now, digest := digest }
  let kept := s.twin.keptStitches
  let privs : State → State := forAll s.twin.imagePrivs fun x => modCh x.1 fun c => { c with expressQ := some x.2.1, mgmtQ := some x.2.2 }
  let pools : State → State := forAll s.twin.imagePools fun x => fun s =>
    putPool x.1 x.2.1 { poolOf s x.1 x.2.1 with next := x.2.2.1, freed := x.2.2.2 } s
  let s := applyNow p (privs { s with stitch := { s.stitch with pend := [], oldBanks := [], heldObjs := [] } })
  let s := pools { s with stitch := { s.stitch with cfg := new } }
  let s := { s with twin := { s.twin with imageRecs := [], imagePools := [], imagePrivs := [], keptStitches := [] } }
  afterImage (takeKept s.stitch.staging (forAll kept applyKept s))

/-- A chunk of the image at the standby. -/
def chunkIn (index : Nat) (last : Bool) (stitch : StitchNo) (digest : BitVec 64) (recs : List (BasteRec × Nat)) (pools : List ImagePool)
    (privs : List (Nat × Nat × Nat)) (ok : Bool) (s : State) : State :=
  if !awaitsImage s then s
  else if index != s.twin.imageNext then failResync 2 s
  else
    let s := { s with twin := { s.twin with imageNext := index + 1, imageRecs := s.twin.imageRecs ++ recs
                                            imagePools := s.twin.imagePools ++ pools, imagePrivs := s.twin.imagePrivs ++ privs } }
    if !last then s else if !ok then failResync 3 s else loadImage stitch digest s

def execSeamResync (dt : Nat) (sh : SeamHdr) (msg : ResyncMsg) (s : State) : Host.Outcome State Fault Refusal :=
  .next <| seamIn false sh (fun s =>
    let s := ackSeam sh s
    match msg with
    | .request => if s.twin.held then serveResync s else s
    | .chunk index last stitch digest recs pools privs ok =>
      if follows s then chunkIn index last stitch digest recs pools privs ok s else s) (tick dt s)

/-! ### Builds and digests (R148, R321, R325, R330) -/

/-- The feeder deltas of a channel lie within 8 ns of one another. -/
def deltasTight (x : Channel) : Bool := decide (x.deltas.foldl max (x.deltas.headD 0) - x.deltas.foldl min (x.deltas.headD 0) ≤ 8000)

def buildInputIn (ch : Nat) (sf : SF) (shortTerms : List Nat) (share : Nat) (s : State) : State :=
  let s := modCh ch (fun x => { x with share := share }) s
  if s.pon.gridOn && shadows s ch && buildFree s ch && sf == nextSf s then
    startBuild ch (chOf s ch).ingested (fun t => shortTerms.contains t) share s
  else s

def execBuildInput (dt : Nat) (sh : SeamHdr) (ch : Nat) (sf : SF) (shortTerms : List Nat) (share : Nat) (s : State) :
    Host.Outcome State Fault Refusal :=
  .next <| seamIn false sh (fun s => let s := ackSeam sh s
                                     if follows s then buildInputIn ch sf shortTerms share s else s) (tick dt s)

/-- One more matching digest: the eighth in a row protects the channel, when nothing else speaks against it. -/
def digestMatch (ch : Nat) (s : State) : State :=
  let s := modCh ch (fun x => { x with digestRun := x.digestRun + 1 }) s
  if 8 ≤ (chOf s ch).digestRun && deltasTight (chOf s ch) && (chOf s ch).keyMissing.isEmpty then setProtected ch true s else s

/-- A standby that builds in step: ARMED, or at the last step of a resync. -/
def buildsInStep (s : State) : Bool := s.twin.role == .armed || (s.twin.role == .syncing && s.twin.resyncStep == 6)

/-- A mismatch unprotects the channel; the holder sends its allocation state at the next cut-off, and the third within 1 s disarms an
ARMED standby. -/
def digestMismatch (ch : Nat) (s : State) : State :=
  let s := modCh ch (fun x => { x with digestRun := 0, mismatches := (x.mismatches.filter fun t => decide (s.now < t + Time.sec 1)) ++ [s.now] })
    (bump 5 8 Cn.mapMismatches 1 (setProtected ch false s))
  if s.twin.held then modCh ch (fun x => { x with allocDue := true }) s
  else if !buildsInStep s then s
  else
    let s := raise Ev.twinMapMismatch (dieOfChannel ch) [.u16 ch] s
    if s.twin.role == .armed && s.twin.guardSince.isNone && decide (3 ≤ (chOf s ch).mismatches.length) then
      disarmAndResync false Cause.mapMismatch (modCh ch (fun x => { x with mismatches := [] }) s)
    else s

/-- The partner's digest of a channel's frame, or none where none came. -/
def digestIn (ch : Nat) (sf : SF) (digest : Option (BitVec 64)) (s : State) : State :=
  match digest, (chOf s ch).ownDigest with
  | some d, some (f, own) =>
    if f != sf then modCh ch (fun x => { x with digestRun := 0 }) (setProtected ch false s)
    else if own = d then digestMatch ch s
    else digestMismatch ch s
  | _, _ => modCh ch (fun x => { x with digestRun := 0 }) (setProtected ch false s)

def execMapDigest (dt : Nat) (sh : SeamHdr) (ch : Nat) (sf : SF) (digest : Option (BitVec 64)) (s : State) :
    Host.Outcome State Fault Refusal :=
  .next <|
    if digest.isNone then
      let s := tick dt s
      if s.twin.paired then digestIn ch sf none s else s
    else seamIn false sh (fun s => digestIn ch sf digest (ackSeam sh s)) (tick dt s)

/-! ### Rangings (R113, R325) -/

/-- The rate of a terminal that the holder has assigned: its highest on a wide channel (R107). -/
def followedRate (s : State) (t ch : Nat) : Rate := if isWide ch then highestRate (cfgOf s) t else .r9

/-- The difference of a burst's arrivals at the two units joins the feeder delta of its channel: the last 64 count. -/
def addDelta (ch t : Nat) (theirs : Int) (s : State) : State :=
  match (termOf s t).lastOff with
  | none => s
  | some own =>
    let s := modCh ch (fun x => { x with deltas := lastN 64 (x.deltas ++ [own - theirs]) }) (modTerm t (fun x => { x with lastOff := none }) s)
    if deltasTight (chOf s ch) then s else setProtected ch false s

/-- A terminal follows the holder's ranging. -/
def followRanging (t ch onu : Nat) (st : TermState) (rtd eqd : Int) (s : State) : State :=
  let old := termOf s t
  match st with
  | .absent => if old.st == .absent then s else dropTerm t .absent s
  | .disabled => if old.st == .disabled then s else dropTerm t .disabled s
  | _ =>
    let new := old.ch != some ch
    let s := modTerm t (fun x => { x with st := if st == .operational then x.st else st, ch := some ch, onu := some onu, rtd := rtd, eqd := eqd,
                                          rate := if new then followedRate s t ch else x.rate }) s
    let s := recompute t s
    if st == .operational && old.st != .operational then enterOperational t s else s

def rangingIn (t ch onu : Nat) (st : TermState) (rtd eqd : Int) (arrival : Option Int) (s : State) : State :=
  if !(cfgOf s).has Kind.terminal t then s
  else
    let s := followRanging t ch onu st rtd eqd s
    match arrival with
    | none => s
    | some off => checkArmed (addDelta ch t off s)

def execRanging (dt : Nat) (sh : SeamHdr) (term ch onu : Nat) (st : TermState) (rtd eqd : Int) (arrival : Option Int) (s : State) :
    Host.Outcome State Fault Refusal :=
  .next <| seamIn false sh (fun s => let s := ackSeam sh s
                                     if follows s then rangingIn term ch onu st rtd eqd arrival s else s) (tick dt s)

/-! ### Host events (R295, R296, R320) -/

/-- A forwarded rogue action: the terminal is disabled or enabled as on the holder. -/
def followRogue (t : Nat) (disable : Bool) (s : State) : State :=
  if disable then dropTerm t .disabled s
  else modTerm t (fun x => { x with st := if x.st == .disabled then .absent else x.st, enteredAt := s.now }) s

def hostEventIn (ev : HostEventMsg) (s : State) : State :=
  match ev with
  | .hint alloc sf bytes =>
    if (cfgOf s).has Kind.alloc alloc then storeHint (dieNum (dieOfChannel (allocChannel s alloc))) ⟨alloc, sf, bytes⟩ s else s
  | .jumpAccept base at_ step =>
    modBase base (fun b => { b with heldJump := some step, acceptAt := some (frameAt s at_) }) s
  | .jumpRefuse base => refuseJump base s
  | .timeSet base at_ v => modBase base (fun b => { b with setAt := some (frameAt s at_, v, b.source == 2) }) s
  | .fittingReset t empty => if (s.pon.fits.find? t).isSome then askFitReset t empty s else s
  | .rogueDisable t => followRogue t true s
  | .rogueEnable t => followRogue t false s
  | .flush q => if queueExists s q then flushQueue q s else s
  | .abort target => (abortEngine target s).2

def execHostEvent (dt : Nat) (sh : SeamHdr) (ev : HostEventMsg) (s : State) : Host.Outcome State Fault Refusal :=
  .next <| seamIn false sh (fun s => let s := ackSeam sh s
                                     if follows s then hostEventIn ev s else s) (tick dt s)

/-! ### Key contexts (R281, R330) -/

/-- The channel that a key serves: its terminal's, or the one that a broadcast key is of. -/
def keyChannel (s : State) (kind owner : Nat) : Option Nat :=
  if kind ≤ 2 then (termOf s owner).ch else if kind = 3 then some (owner / 64) else none

/-- The standby installs a key, or clears it. -/
def installKey (sh : SeamHdr) (die : DieId) (kind owner index keyState : Nat) (key : List Byte) (s : State) : State :=
  let st : KeyState := [KeyState.free, .loaded, .current, .retired].getD keyState .free
  let s := if keyState = 0 then clearKey die kind owner index s
    else modKey die kind owner index (fun k => { k with st := st, bytes := key, spent := false
                                                        loadedSf := if k.st = .free then sh.sf else k.loadedSf
                                                        since := if st = .current then sh.sf else k.since }) s
  let s := doIf (kind == slotData && st == .current) (modTerm owner fun x => { x with ctxLost := false }) s
  match keyChannel s kind owner with
  | none => s
  | some ch => modCh ch (fun x => { x with keyMissing := x.keyMissing.filter (· != owner) }) s

/-- A context that fails its tag is asked for again, and its channel is unprotected until it arrives. -/
def keyFails (kind owner : Nat) (s : State) : State :=
  let s := seamSend (keyQuadrant s kind owner) (.keyAgain owner) (raise Ev.contextIntegrity .east [.u32 owner] s)
  match keyChannel s kind owner with
  | none => s
  | some ch =>
    setProtected ch false (modCh ch (fun x => { x with keyMissing := if x.keyMissing.contains owner then x.keyMissing else owner :: x.keyMissing }) s)

/-- A KEY_CONTEXT: at the standby a wrapped key, at the holder the request for it. -/
def keyContextIn (sh : SeamHdr) (die : DieId) (kind owner index keyState : Nat) (key : Option (List Byte)) (wrapOk : Bool) (s : State) :
    State :=
  if follows s then
    if wrapOk then installKey sh die kind owner index keyState (key.getD []) s else keyFails kind owner s
  else if s.twin.held then sendKey die kind owner index s
  else s

def execKeyContext (dt : Nat) (sh : SeamHdr) (die : DieId) (kind owner index keyState : Nat) (key : Option (List Byte)) (wrapOk : Bool)
    (s : State) : Host.Outcome State Fault Refusal :=
  .next <| seamIn false sh (fun s => keyContextIn sh die kind owner index keyState key wrapOk (ackSeam sh s)) (tick dt s)

/-! ### Time (R320, R330, R331) -/

/-- The holder's base less the own one, in units of 2⁻¹⁶ ns; none while the holder's base has no time. -/
def compareOf (s : State) (n value : Nat) (st : BaseState) : Option Int :=
  if st = .unset then none else some ((value : Int) - baseVal (baseOf s n) s.now)

/-- A base within 100 ns: its unfit mark clears after 10 s of it. -/
def baseFits (n : Nat) (s : State) : State :=
  let s := { s with twin := { s.twin with basesFit := if s.twin.basesFit.contains n then s.twin.basesFit else n :: s.twin.basesFit } }
  modBase n (fun b =>
    let since := b.fitSince.getD s.now
    { b with fitSince := some since, unfit := b.unfit && !decide (since + Time.sec 10 ≤ s.now) }) s

/-- A base beyond 100 ns is unfit. -/
def baseUnfit (n : Nat) (diff : Int) (s : State) : State :=
  let was := (baseOf s n).unfit
  let s := modBase n (fun b => { b with unfit := true, fitSince := none })
    { s with twin := { s.twin with basesFit := s.twin.basesFit.filter (· != n) } }
  doIf (!was) (raise Ev.twinTimeUnfit .east [.u8 n, nsArg diff]) s

/-- The standby's base takes a sample of the SEAM source, whatever its stitched source. -/
def sampleSeam (n : Nat) (diff : Int) (s : State) : State :=
  let ig := (baseOf s n).ignored
  modBase n (fun b => { b with ignored := ig }) (sample n diff (modBase n (fun b => { b with ignored := false }) s))

/-- TIME_COMPARE at the standby. -/
def compareIn (n value : Nat) (st : BaseState) (s : State) : State :=
  let s := doIf (s.twin.role == .syncing && s.twin.timeOnly && s.twin.resyncStep == 4) (fun s => { s with twin := { s.twin with resyncStep := 6 } }) s
  match compareOf s n value st with
  | none => if (baseOf s n).st = .unset then checkArmed (baseFits n s) else s
  | some d =>
    if (baseOf s n).st = .unset then sampleSeam n d s
    else if d.natAbs ≤ 100 * 65536 then checkArmed (baseFits n (sampleSeam n d s))
    else
      let s := sampleSeam n d (baseUnfit n d s)
      if decide (1000 * 65536 < d.natAbs) && s.twin.role == .armed && s.twin.guardSince.isNone then disarmAndResync true Cause.timeUnfit s
      else s

def execTimeCompare (dt : Nat) (sh : SeamHdr) (base : Nat) (value : Nat) (st : BaseState) (s : State) :
    Host.Outcome State Fault Refusal :=
  .next <| seamIn false sh (fun s => let s := ackSeam sh s
                                     if follows s then compareIn base value st s else s) (tick dt s)

/-- At each whole second of time base 0 each unit sends the values and states of its bases. -/
def execTimeCompareSend (dt : Nat) (s : State) : Host.Outcome State Fault Refusal :=
  let s := tick dt s
  let second := baseNs s 0 / 10 ^ 9
  .next <|
    if s.twin.paired && s.twin.seamUp && decide (s.twin.lastCompare < second) then
      forAll (List.range 8) (fun n s => seamSend 0 (.timeCompare n (baseVal (baseOf s n) s.now).toNat (baseOf s n).st) s)
        { s with twin := { s.twin with lastCompare := second } }
    else s

/-! ### Allocation state (R330, R332) -/

/-- A channel's allocation state has come: the resync goes on once every channel has had its own. -/
def allocSeen (ch : Nat) (s : State) : State :=
  if s.twin.role == .syncing && (s.twin.resyncStep == 4 || s.twin.resyncStep == 5) && !s.twin.timeOnly then
    let seen := if s.twin.allocsSeen.contains ch then s.twin.allocsSeen else ch :: s.twin.allocsSeen
    let all := (shadowChannels s).all fun c => seen.contains c
    checkArmed { s with twin := { s.twin with allocsSeen := seen, resyncStep := if all then 6 else 5 } }
  else s

def allocStateIn (ch pointer : Nat) (allocs : List (Nat × Int × Int × Int)) (hints : List (Nat × SF × Nat)) (s : State) : State :=
  let s := modCh ch (fun x => { x with rotation := pointer }) s
  let s := forAll allocs (fun a => modAlloc a.1 fun x => { x with backlog := a.2.1, creditA := a.2.2.1, creditM := a.2.2.2 }) s
  let mine : Nat × HintRec → Bool := fun p => allocs.any fun a => a.1 == p.2.alloc
  let s := { s with pon := { s.pon with hints := s.pon.hints.filter fun p => !mine p } }
  allocSeen ch (forAll hints (fun h => storeHint (dieNum (dieOfChannel ch)) ⟨h.1, h.2.1, h.2.2⟩) s)

def execAllocState (dt : Nat) (sh : SeamHdr) (ch pointer : Nat) (allocs : List (Nat × Int × Int × Int)) (hints : List (Nat × SF × Nat))
    (s : State) : Host.Outcome State Fault Refusal :=
  .next <| seamIn false sh (fun s => let s := ackSeam sh s
                                     if follows s then allocStateIn ch pointer allocs hints s else s) (tick dt s)

/-! ### Yields and the burst tally (R322, R323, R326) -/

def execYieldNotice (dt : Nat) (sh : SeamHdr) (cause : Nat) (s : State) : Host.Outcome State Fault Refusal :=
  .next <| seamIn false sh (fun s => let s := ackSeam sh s
                                     if follows s then { s with twin := { s.twin with yieldCause := cause } } else s) (tick dt s)

/-- The last 4 granted unicast bursts of a channel were absent here, and the standby accepted at least 3 of them. -/
def diverges (x : Channel) : Bool :=
  x.tallyRun.length == 4 && x.tallyRun.all (·.1) && decide (3 ≤ (x.tallyRun.filter (·.2)).length)

/-- One entry of a tally at the holder. -/
def tallyIn (e : TallyEntry) (yieldIn : Bool) (s : State) : State :=
  let s := modCh e.ch (fun x => { x with tallyRun := lastN 4 (x.tallyRun ++ [(e.ownAbsent, e.accepted)]) }) s
  if s.twin.held && diverges (chOf s e.ch) && !(opTerms s e.ch).isEmpty then
    policyFinding Fld.devYieldDiverge Cause.divergence yieldIn s
  else s

def execBurstTally (dt : Nat) (sh : SeamHdr) (entries : List TallyEntry) (yieldIn : Bool) (s : State) :
    Host.Outcome State Fault Refusal :=
  .next <| seamIn false sh (fun s => let s := ackSeam sh s
                                     if s.twin.held then forAll entries (fun e => tallyIn e yieldIn) s else s) (tick dt s)

/-- Every 10 µs the standby sends what its lanes accepted of the granted unicast bursts. -/
def execBurstTallySend (dt : Nat) (s : State) : Host.Outcome State Fault Refusal :=
  let s := tick dt s
  .next <|
    if s.twin.paired && follows s && s.twin.seamUp && decide (s.twin.lastTally + Time.us 10 ≤ s.now) then
      let entries : List (Nat × SF × Nat × Bool) := s.pon.channels.flatMap fun p => if p.2.st == .shadow then p.2.burstLog.map fun b => (p.1, b) else []
      let s := forAll (s.pon.channels.map (·.1)) (fun c => modCh c fun x => { x with burstLog := [] }) s
      seamSend 0 (.tally entries) { s with twin := { s.twin with lastTally := s.now } }
    else s

/-! ### The Seam's health (R313, R314, R330) -/

/-- Sixteen discarded messages within 1 s. -/
def execSeamIntegrity (dt : Nat) (s : State) : Host.Outcome State Fault Refusal :=
  let s := tick dt s
  let recent := s.twin.badMsgs.filter fun t => decide (s.now < t + Time.sec 1)
  .next <|
    if 16 ≤ recent.length then raise Ev.seamIntegrity .east [] { s with twin := { s.twin with badMsgs := [] } } else s

/-- No message for 1 ms, or no lane. -/
def execSeamDown (dt : Nat) (s : State) : Host.Outcome State Fault Refusal :=
  let s := tick dt s
  .next (if decide (s.twin.lastMsg + Time.ms 1 ≤ s.now) || (seamLane? s 0).isNone then seamDrop s else s)

/-- The Seam has been down for 10 ms: the standby is DISARMED. -/
def execTwinSeamLoss (dt : Nat) (s : State) : Host.Outcome State Fault Refusal :=
  let s := tick dt s
  .next <|
    match s.twin.downSince with
    | none => s
    | some t =>
      if (s.twin.role == .armed || s.twin.role == .syncing) && s.twin.guardSince.isNone && decide (t + Time.ms 10 ≤ s.now) then
        setRole .disarmed Cause.seamLoss (raise Ev.twinSeamLoss .east [] { s with twin := { s.twin with resyncStep := 0 } })
      else s

end Sys2Proof.Machine
end

