-- ==== Sys2Proof/Machine/Query.lean ====
section
/-! DEFINITION. The queries of the host (R370, Table 14.7). A result is a list of numbers in the order in which the rule of the kind names them; a negative number is written in 64 bits. -/

namespace Sys2Proof.Machine
open Sys2Proof

/-- A number in 64 bits. -/
def word64 (v : Int) : Nat := (v % 2 ^ 64).toNat

/-- An identifier that may be absent: 0xFFFF_FFFF for none. -/
def orNone (v : Option Nat) : Nat := v.getD 0xFFFFFFFF

/-! ### Placement (R26) -/

/-- The handle is in use: stitched, a privileged queue, or basted and not yet stitched. -/
def handleKnown (s : State) (kind num : Nat) : Bool :=
  (cfgOf s).has kind num || (kind == Kind.queue && privileged s num)
    || ((s.stitch.pend.flatMap (·.recs)) ++ s.stitch.staging).any fun r => r.body.op == 1 && r.body.kind == kind && r.num == num

/-- Location, state (0 NOT_PLACED, 1 PLACED, 2 MOVING), the location it moves to, pin, forbidden locations and moves. -/
def placementResult (s : State) (kind num : Nat) : List Nat :=
  let o := objOr (cfgOf s) kind num
  let hints := orNone o.pin :: o.forbid.length :: o.forbid
  match placeOf? s kind num with
  | none => [0xFFFFFFFF, 0, 0xFFFFFFFF] ++ hints ++ [0]
  | some p => [p.loc, if p.moving.isSome then 2 else 1, orNone p.moving] ++ hints ++ [p.moves]

/-! ### Stitches (R44, R38, R39) -/

/-- B1, B2, how far the window has come (0 pending, 1 between B1 and B2, 2 closed), and the handles still held. -/
def stitchResult? (s : State) (n : StitchNo) : Option (List Nat) :=
  let held := if s.stitch.heldStitch = n then s.stitch.heldObjs.flatMap fun o => [o.1, o.2] else []
  match s.stitch.pend.find? fun p => p.number == n with
  | some p => some ([todOf s p.b1, todOf s p.b2, bit p.opened] ++ held)
  | none =>
    match s.stitch.lastWindow with
    | some (m, b1, b2) =>
      if m = n then some ([todOf s b1, todOf s b2, 2] ++ held) else if held.isEmpty then none else some ([0, 0, 2] ++ held)
    | none => none

/-! ### Channels, terminals and bobbins (R63, R73, R87, R112, R157) -/

/-- The state, the count at its entry, and the privileged queues. -/
def channelResult (s : State) (ch : Nat) : List Nat :=
  let x := chOf s ch
  [chStNum x.st, x.since.toNat, orNone x.expressQ, orNone x.mgmtQ]

/-- The terminals at a rate that are still on the old generation. -/
def profileResult (s : State) (ch : Nat) (r : Rate) : List Nat :=
  if (genOf s ch r).incoming.isNone then []
  else (chTerms s ch).filter fun t => (termOf s t).rate == r && !(genOf s ch r).moved.contains t

/-- The state with RTD, EqD, fibre length and asymmetry, the channel and ONU-ID, and whether the extended OMCI set is in use. -/
def terminalResult (s : State) (t : Nat) : List Nat :=
  let x := termOf s t
  [termStNum x.st, word64 x.rtd, word64 x.eqd, word64 x.length, word64 x.asym, orNone x.ch, orNone x.onu, bit x.omciExt]

/-- A bobbin's state: its place on the ladder, or 6 in quarantine. -/
def bobbinStNum (s : State) (b : Nat) : Nat :=
  if (bobOf s b).quarantined then 6
  else if bobDormant s b then ladderNum .dormant
  else if (bobOf s b).dozing then ladderNum .doze
  else ladderNum .run

/-- The state, the last build's length, the batches exposed and stolen in it, and the channels served. -/
def bobbinResult (s : State) (b : Nat) : List Nat :=
  let x := bobOf s b
  [bobbinStNum s b, x.lastLen, x.exposed, x.stole] ++ servedBy s b

/-! ### Tables and keys (R196, R197, R220, R261) -/

/-- A classifier row: physical row, multiple-match bit, hit counter, and its fields. -/
def rowResult? (s : State) (num : Nat) : Option (List Nat) :=
  match s.tab.rows.find? (rowVersion s num true), (cfgOf s).obj? Kind.row num with
  | some x, some o => some ([x.phys, bit x.multi, x.hits.toNat] ++ o.fields.flatMap fun p => [p.1, word64 p.2])
  | _, _ => none

/-- Reading a row clears its multiple-match bit. -/
def clearMulti (num : Nat) (s : State) : State := modRow (rowVersion s num true) (fun x => { x with multi := false }) s

/-- The check value of a key: the first 24 bits of AES-CMAC of 16 zero bytes. -/
def keyCheck (k : KeyVal) : Nat := leNat ((Config.cmac k.bytes (List.replicate 16 0)).take 3).reverse

def keyWords (k : KeyVal) : List Nat := [keyStNum k.st, k.loadedSf.toNat, if k.st = .free then 0 else keyCheck k]

/-- Kind and owner, and for each key of the slot its state, the count at which it was loaded and its check value. -/
def slotResult (s : State) (k : Nat) : List Nat :=
  match s.ciph.slots.find? k with
  | none => [0xFF, 0xFFFFFFFF] ++ keyWords {} ++ keyWords {}
  | some x => [x.kind, x.owner] ++ keyWords x.key1 ++ keyWords x.key2

/-! ### Time and twin (R124, R284, R288, R301, R310) -/

/-- The trees bound to a base. -/
def treesOf (s : State) (n : Nat) : List Nat := (List.range 256).filter fun t => (cfgOf s).valN Kind.tree t Fld.treeBase == n

/-- The state, the latest offset, the foreign masters of each port, and the trees bound to the base with whether it is LOCKED. -/
def baseResult (s : State) (n : Nat) : List Nat :=
  let l := s.time.foreign.filter fun f => f.base == n
  [baseStNum (baseOf s n).st, word64 (baseOf s n).offset, bit ((baseOf s n).st == .locked), l.length]
    ++ (l.flatMap fun f => [f.port, f.master, f.dataset]) ++ treesOf s n

/-- Whether a tree's time of day is UNVERIFIED, and the count of the step. -/
def todResult (s : State) (tree : Nat) : List Nat :=
  match s.pon.todUnverified.find? tree with
  | none => [0, 0]
  | some f => [1, f.toNat]

/-- The role, the cause of its last change, the partner's serial number and role, the Seam version, and the unprotected channels. -/
def twinResult (s : State) : List Nat :=
  let x := s.twin
  [roleNum x.role, x.lastCause, x.partnerSerial.toNat, roleNum x.partnerRole, x.seamVersion] ++ unprotectedChannels s

/-- The unit's serial number, firmware version, and Galub and Seam versions. -/
def unitResult : List Nat :=
  [Config.unitSerial.toNat, Config.firmwareVersion.toNat, galubLow, galubHigh, seamLowest, seamHighest]

/-! ### The schema (R372) -/

/-- Each field of a kind: number, range, step, and default or none. -/
def schemaResult (kind key : Nat) : List Nat :=
  (Schema.fields kind key).flatMap fun f =>
    [f.num, word64 f.lo, word64 f.hi, f.step, bit f.dflt.isSome, word64 (f.dflt.getD 0)]

/-- The widths of the arguments of an event, in the order in which its rule names them; none for a number that is never raised. -/
def eventWidths : List (Nat × List Nat) :=
  [(Ev.deviceReady, []), (Ev.supplyDip, [1, 2, 8, 1, 1]), (Ev.supplyMargin, [1, 2]), (Ev.thermal, [1, 1, 1]), (Ev.refclk, [1]),
   (Ev.alterationDone, [4, 2, 2, 2]), (Ev.ageingMarginLow, [2]), (Ev.stitchOpen, [4]), (Ev.stitchClose, [4, 1]),
   (Ev.pinBroken, [4, 4, 4]), (Ev.hostPortDown, [1]), (Ev.thimbleTimeout, [1, 1, 1]), (Ev.ringError, [1, 1]),
   (Ev.commandExpired, [1, 1, 2, 4]), (Ev.twinRole, [1, 1, 1]), (Ev.twinPaired, []), (Ev.twinVersionRefused, [1, 1, 1, 1]),
   (Ev.tokenConflict, []), (Ev.seamIntegrity, []), (Ev.twinSeamLoss, []), (Ev.twinChannel, [2]), (Ev.twinYield, [1]),
   (Ev.twinTakeover, [1]), (Ev.twinFeederAdjust, [2, 8]), (Ev.twinConfigMismatch, [4, 4, 8, 8]), (Ev.twinMapMismatch, [2]),
   (Ev.twinTimeUnfit, [1, 8]), (Ev.twinResyncStart, []), (Ev.twinArmed, []), (Ev.twinResyncFailed, [1])]
  ++ [(Ev.timeState, [1, 1, 1]), (Ev.timeJumpHeld, [1, 8]), (Ev.timeJumpApplied, [1, 8]), (Ev.timeJumpRefused, [1]), (Ev.timeSet, [1]),
   (Ev.announceChange, [1, 1]), (Ev.rclkSquelch, [1]), (Ev.ppsIn, [1]), (Ev.todDeliveryFailed, [2]), (Ev.cipherLaneFault, [1]),
   (Ev.cipherCapacityLow, [1]), (Ev.keySlotFault, [1, 4, 4]), (Ev.keySlotLost, [1, 4]), (Ev.keyExchangeFailed, [2]), (Ev.keySpent, [2]),
   (Ev.broadcastKeyLagging, [2]), (Ev.keyImportFail, []), (Ev.contextIntegrity, [4]), (Ev.macsecPnThreshold, [1, 1]),
   (Ev.macsecSaStopped, [1, 1]), (Ev.tableParity, [1, 1, 2]), (Ev.holdStoreFull, [1]), (Ev.learnRingFull, [1]), (Ev.tableDmaReject, [1]),
   (Ev.tableLockTimeout, [1, 1, 1, 1]), (Ev.classifierParity, [1, 2, 2]), (Ev.puntDrop, [1, 1]), (Ev.nearPanHigh, [1]),
   (Ev.panFull, [1, 1]), (Ev.cutThroughAbort, [2]), (Ev.launchMissed, [2]), (Ev.fcInStuck, [1]), (Ev.mapLate, [2]),
   (Ev.buildInputLate, [2]), (Ev.budgetOvercommitted, []), (Ev.hintLate, [2]), (Ev.bobbinFault, [2]), (Ev.bobbinPoolExhausted, [1])]
  ++ [(Ev.terminalActivated, [2]), (Ev.activationFailed, [2]), (Ev.unknownSerial, [2, 8]), (Ev.terminalLost, [2]),
   (Ev.feederChange, [2, 8]), (Ev.feederSearchFailed, [2]), (Ev.indexMismatch, [2, 4]), (Ev.todUnverified, [2]), (Ev.rogueSuspect, [2]),
   (Ev.rogueIsolated, [2, 8]), (Ev.rogueUnresolved, [2]), (Ev.channelFault, [2, 1]), (Ev.upstreamLos, [2]), (Ev.burstLaneLol, [2]),
   (Ev.upstreamDegrade, [2]), (Ev.upstreamFail, [2]), (Ev.terminalBurstLoss, [2]), (Ev.fittingFence, [2, 1]),
   (Ev.fittingPreloadFail, [2]), (Ev.profileSwitched, [2, 1]), (Ev.profileStale, [2]), (Ev.ploamIntegrity, [2]), (Ev.portLink, [2]),
   (Ev.laneLos, [1]), (Ev.laneLol, [1]), (Ev.laneDegrade, [1]), (Ev.laneTrainFail, [1]), (Ev.laneFence, [1, 1]),
   (Ev.serviceQueueFull, [1]), (Ev.serviceTakeover, []), (Ev.omciRingFull, [1]), (Ev.omciAlarmGap, [2]), (Ev.swdlDone, [2]),
   (Ev.swdlFailed, [2, 1]), (Ev.mcastTableFull, [1]), (Ev.mcastLimit, [2]), (Ev.cfmCcm, [4, 2]), (Ev.cfmDefect, [4, 1]),
   (Ev.loopDetected, [4, 2, 2]), (Ev.fittingStoreError, [2, 2]), (Ev.eccCorrected, []), (Ev.eccUncorrectable, [1, 1]),
   (Ev.deepPanFault, [1]), (Ev.eventRingOverflow, [4, 4]), (Ev.counterWrap, [1]), (Ev.rakeLate, []), (Ev.debugAccess, [])]

/-- The offset and width of each argument: aligned to its width, after the one before it (R382). -/
def argLayout : Nat → List Nat → List Nat
  | _, [] => []
  | next, w :: t => [ceilDiv next w * w, w] ++ argLayout (ceilDiv next w * w + w) t

/-- A range of counter indices. -/
def ctrSpan (first count : Nat) : List Nat := (List.range count).map (· + first)

/-- The counters j of each group that the device counts (log entry 7). -/
def ctrIndices (group : Nat) : List Nat :=
  match group with
  | 0 => ctrSpan 0 8 ++ ctrSpan 9 33 ++ ctrSpan 49 33 ++ ctrSpan 88 20
  | 1 => ctrSpan 0 19 ++ [20, 22, 23, 24, 25] ++ ctrSpan 32 16
  | 2 => ctrSpan 0 5
  | 3 => ctrSpan 1 4 ++ ctrSpan 7 3
  | 4 => [0, 2, 3, 4, 5, 6, 9, 10, 11]
  | 5 => ctrSpan 0 6
  | 6 => ctrSpan 1 5
  | 7 => [0] ++ ctrSpan 3 12 ++ [16, 17, 18, 20, 21, 23] ++ ctrSpan 26 5 ++ [32, 33, 34]
  | 8 => ctrSpan 0 5 ++ ctrSpan 6 8 ++ ctrSpan 16 8
  | 9 => [0, 1, 3, 5, 6, 7]
  | 10 => [0, 1] ++ ctrSpan 3 11
  | _ => ctrSpan 0 9

/-- The registers of a block: offset and reset value of each (Tables 19.2 to 19.5, 8.6). -/
def blockSchema (block : Nat) : List Nat :=
  let zeros := fun (l : List Nat) => l.flatMap fun o => [o, 0]
  match block with
  | 0 => [0x00, 0, 0x08, Config.unitSerial.toNat % 2 ^ 32, 0x0C, Config.unitSerial.toNat / 2 ^ 32, 0x10, 0, 0x14, 0]
  | 1 => zeros ((List.range 4096).map (4 * ·)) ++ zeros ((List.range 64).map (0x4000 + 4 * ·)) ++ zeros ((List.range 64).map (0x4100 + 4 * ·))
  | 2 => (List.range 16).flatMap fun r => (List.range 11).flatMap fun i => [0x40 * r + 4 * i, (readRingReg {} (4 * i)).toNat]
  | 3 => (List.range 16).flatMap fun r => (List.range 11).flatMap fun i => [0x40 * r + 4 * i, (readRingReg {} (4 * i)).toNat]
  | 4 => [0x00, idleItem.toNat, 0x04, 0, 0x08, 0]
  | 5 => [0x00, idleItem.toNat, 0x04, 0, 0x08, 0]
  | 6 => [0x00, 10, 0x04, 10, 0x10, 9, 0x14, 0, 0x18, 0, 0x1C, 0]
  | 7 => (List.range 16).flatMap fun b => [4 * b, (fmtLockWord {}).toNat]
  | 8 => (List.range 16).flatMap fun b => [4 * b, (fmtLockWord {}).toNat]
  | n => Config.blockRegisters n

/-- The column and the row of a ball, which are its name: the balls row by row, 99 in each (R428, R429). -/
def ballSchema (n : Nat) : List Nat := [n % 99 + 1, n / 99 + 1]

/-- SCHEMA of an event, a counter group, a ball, a register block or an object kind (R372, R382, R394, R446). The names are left out. -/
def schemaAnswer (kind key : Nat) : Option (List Nat) :=
  match kind with
  | 0xFF => ((eventWidths.find? fun p => p.1 == key).map (·.2)).map (argLayout 0)
  | 0xFE => if key < ctrGroups then some (ctrIndices key) else none
  | 0xFD => if key < 9801 then some (ballSchema key) else none
  | 0xFC => if key < 31 then some (blockSchema key) else none
  | _ => if Schema.known kind then some (schemaResult kind key) else none

/-! ### QUERY -/

/-- A margin query: of a lane without signal or lock a scan ends with a lane-down status at once. -/
def marginQuery (lane : Nat) (scan : Bool) (s : State) : Served :=
  if 68 ≤ lane then fail St.handle s
  else if !scan then .done (marginAnswer s lane) s
  else if (laneOf s lane).los || (laneOf s lane).lol then fail St.laneDown s
  else .wait (.scan lane) (Time.ms 100) (askScan lane s)

/-- A result, or HANDLE for a key that names nothing. -/
def answerIf (known : Bool) (result : List Nat) (s : State) : Served :=
  if known then .done { result := result } s else fail St.handle s

def answerSome (result : Option (List Nat)) (s : State) : Served :=
  match result with
  | none => fail St.handle s
  | some l => .done { result := l } s

def queryBody (key : QueryKey) (s : State) : Served :=
  match key with
  | .placement kind num => answerIf (handleKnown s kind num) (placementResult s kind num) s
  | .stitchStatus n => answerSome (stitchResult? s n) s
  | .channelState ch => answerIf (decide (ch < Config.nChannels)) (channelResult s ch) s
  | .profileState ch rate => answerIf (decide (ch < Config.nChannels) && (channelRates ch).contains rate) (profileResult s ch rate) s
  | .terminal t => answerIf ((cfgOf s).has Kind.terminal t) (terminalResult s t) s
  | .fitting t => answerIf (s.pon.fits.find? t).isSome ((fitBytes (fitOf s t)).map (·.toNat)) s
  | .bobbinState b => answerIf (decide (b < Config.nBobbins)) (bobbinResult s b) s
  | .row die entry =>
    let n := 65536 * dieNum die + entry
    if (rowResult? s n).isSome then answerSome (rowResult? s n) (clearMulti n s) else fail St.handle s
  | .fmtEntry die tenant vid mac =>
    answerSome ((fmtFind s die tenant vid mac).map fun e => [e.bank, e.index] ++ (fmtEntryBytes e).map (·.toNat)) s
  | .keySlot die slot => answerIf (decide (slot < Config.keySlots)) (slotResult s (slotKey die slot)) s
  | .keyOwner die kind owner => answerSome ((slotFor? s die kind owner).map (slotResult s)) s
  | .timeBase n => answerIf (decide (n < 8)) (baseResult s n) s
  | .todState tree => answerIf (decide (tree < Config.nTrees)) (todResult s tree) s
  | .twin => .done { result := twinResult s } s
  | .laneMargin lane scan => marginQuery lane scan s
  | .schema kind k => answerSome (schemaAnswer kind k) s
  | .unit => .done { result := unitResult } s

def execQuery (dt : Nat) (h : Hdr) (key : QueryKey) (s : State) : Host.Outcome State Fault Refusal :=
  .next <| hostCmd dt Op.query h (queryBody key) s

end Sys2Proof.Machine
end

