-- ==== Sys2Proof/Machine/Dispatch.lean ====
section
/-! DEFINITION. The dispatch of the commands: one arm per constructor of Instr, each one call of the command's meaning. -/

namespace Sys2Proof.Machine
open Sys2Proof

/-- The effect of a command on everything but the queue of waiting commands. -/
def exec (i : Instr) (s : State) : Host.Outcome State Fault Refusal :=
  match i with
  | .sessionOpen dt h lowest highest agent => Sys2Proof.Machine.execSessionOpen dt h lowest highest agent s
  | .sessionClose dt h => Sys2Proof.Machine.execSessionClose dt h s
  | .hostRings dt h kind addr entries mask => Sys2Proof.Machine.execHostRings dt h kind addr entries mask s
  | .baste dt h rec => Sys2Proof.Machine.execBaste dt h rec s
  | .discard dt h => Sys2Proof.Machine.execDiscard dt h s
  | .stitch dt h yieldIn => Sys2Proof.Machine.execStitch dt h yieldIn s
  | .query dt h key => Sys2Proof.Machine.execQuery dt h key s
  | .laneTestStart dt h lane pattern inject => Sys2Proof.Machine.execLaneTestStart dt h lane pattern inject s
  | .laneTestStop dt h lane => Sys2Proof.Machine.execLaneTestStop dt h lane s
  | .laneInject dt h subport n => Sys2Proof.Machine.execLaneInject dt h subport n s
  | .omciRequest dt h term msgType cls inst prio contents => Sys2Proof.Machine.execOmciRequest dt h term msgType cls inst prio contents s
  | .swdlStart dt h term image inst window => Sys2Proof.Machine.execSwdlStart dt h term image inst window s
  | .imageActivate dt h term inst => Sys2Proof.Machine.execImageActivate dt h term inst s
  | .imageCommit dt h term inst => Sys2Proof.Machine.execImageCommit dt h term inst s
  | .fittingReset dt h term empty => Sys2Proof.Machine.execFittingReset dt h term empty s
  | .terminalEnable dt h term => Sys2Proof.Machine.execTerminalEnable dt h term s
  | .imageOpen dt h die image length => Sys2Proof.Machine.execImageOpen dt h die image length s
  | .imageWindow dt h die offset => Sys2Proof.Machine.execImageWindow dt h die offset s
  | .imageClose dt h die crc => Sys2Proof.Machine.execImageClose dt h die crc s
  | .imageDelete dt h die image => Sys2Proof.Machine.execImageDelete dt h die image s
  | .loopClear dt h flow => Sys2Proof.Machine.execLoopClear dt h flow s
  | .cfmLbm dt h mep target count => Sys2Proof.Machine.execCfmLbm dt h mep target count s
  | .cfmLtm dt h mep target ttl => Sys2Proof.Machine.execCfmLtm dt h mep target ttl s
  | .hint dt h alloc sf bytes => Sys2Proof.Machine.execHint dt h alloc sf bytes s
  | .flush dt h queue => Sys2Proof.Machine.execFlush dt h queue s
  | .portSend dt h dest frame launch cls => Sys2Proof.Machine.execPortSend dt h dest frame launch cls s
  | .fmtInsert dt h dieMask tenant vid mac dtype dvalue => Sys2Proof.Machine.execFmtInsert dt h dieMask tenant vid mac dtype dvalue s
  | .fmtDelete dt h die tenant vid mac => Sys2Proof.Machine.execFmtDelete dt h die tenant vid mac s
  | .matchStep dt h die wide key cursor => Sys2Proof.Machine.execMatchStep dt h die wide key cursor s
  | .keyImport dt h record => Sys2Proof.Machine.execKeyImport dt h record s
  | .jumpAccept dt h base => Sys2Proof.Machine.execJumpAccept dt h base s
  | .jumpRefuse dt h base => Sys2Proof.Machine.execJumpRefuse dt h base s
  | .timeSet dt h base secs ns => Sys2Proof.Machine.execTimeSet dt h base secs ns s
  | .asymmetrySet dt h ch asymPs confirm => Sys2Proof.Machine.execAsymmetrySet dt h ch asymPs confirm s
  | .handover dt h yieldIn => Sys2Proof.Machine.execHandover dt h yieldIn s
  | .disarm dt h => Sys2Proof.Machine.execDisarm dt h s
  | .resync dt h => Sys2Proof.Machine.execResync dt h s
  | .seamTestStart dt h lane pattern inject => Sys2Proof.Machine.execSeamTestStart dt h lane pattern inject s
  | .seamTestStop dt h lane => Sys2Proof.Machine.execSeamTestStop dt h lane s
  | .counterRead dt h range clearWrap => Sys2Proof.Machine.execCounterRead dt h range clearWrap s
  | .counterClear dt h range => Sys2Proof.Machine.execCounterClear dt h range s
  | .userReadGrant dt h group grant => Sys2Proof.Machine.execUserReadGrant dt h group grant s
  | .abort dt entry => Sys2Proof.Machine.execAbort dt entry s
  | .commandExpired dt port ring => Sys2Proof.Machine.execCommandExpired dt port ring s
  | .unpickScan dt found => Sys2Proof.Machine.execUnpickScan dt found s
  | .thimbleClaim dt port n agent => Sys2Proof.Machine.execThimbleClaim dt port n agent s
  | .thimbleRelease dt port n agent => Sys2Proof.Machine.execThimbleRelease dt port n agent s
  | .thimbleTimeout dt n => Sys2Proof.Machine.execThimbleTimeout dt n s
  | .fmtLockClaim dt port die bank agent timeoutBits => Sys2Proof.Machine.execFmtLockClaim dt port die bank agent timeoutBits s
  | .fmtLockRelease dt port die bank agent => Sys2Proof.Machine.execFmtLockRelease dt port die bank agent s
  | .fmtLockTimeoutSet dt port die bank timeout => Sys2Proof.Machine.execFmtLockTimeoutSet dt port die bank timeout s
  | .tableLockTimeout dt die bank => Sys2Proof.Machine.execTableLockTimeout dt die bank s
  | .ringEnable dt writer port ring log2 => Sys2Proof.Machine.execRingEnable dt writer port ring log2 s
  | .ringDisable dt writer port ring => Sys2Proof.Machine.execRingDisable dt writer port ring s
  | .ringCmdProd dt writer port ring v => Sys2Proof.Machine.execRingCmdProd dt writer port ring v s
  | .ringRplCons dt writer port ring v => Sys2Proof.Machine.execRingRplCons dt writer port ring v s
  | .puntFifo dt reader port => Sys2Proof.Machine.execPuntFifo dt reader port s
  | .puntReturn dt writer port index => Sys2Proof.Machine.execPuntReturn dt writer port index s
  | .evtPinStatus dt writer pin v => Sys2Proof.Machine.execEvtPinStatus dt writer pin v s
  | .registerWrite dt writer offset bytes v => Sys2Proof.Machine.execRegisterWrite dt writer offset bytes v s
  | .tableDmaWrite dt port addr data => Sys2Proof.Machine.execTableDmaWrite dt port addr data s
  | .imageWindowWrite dt port addr data => Sys2Proof.Machine.execImageWindowWrite dt port addr data s
  | .bar2StrayWrite dt port addr => Sys2Proof.Machine.execBar2StrayWrite dt port addr s
  | .porstNAssert dt width => Sys2Proof.Machine.execPorstNAssert dt width s
  | .porstNRelease dt side tokenIn yieldIn => Sys2Proof.Machine.execPorstNRelease dt side tokenIn yieldIn s
  | .startupPhaseDone dt failed => Sys2Proof.Machine.execStartupPhaseDone dt failed s
  | .tokenClaim dt tokenInQuietSince => Sys2Proof.Machine.execTokenClaim dt tokenInQuietSince s
  | .tokenGuardEnd dt stayedInactive => Sys2Proof.Machine.execTokenGuardEnd dt stayedInactive s
  | .tokenInFall dt => Sys2Proof.Machine.execTokenInFall dt s
  | .tokenConflict dt => Sys2Proof.Machine.execTokenConflict dt s
  | .laserRaise dt => Sys2Proof.Machine.execLaserRaise dt s
  | .takeoverFirstFrame dt => Sys2Proof.Machine.execTakeoverFirstFrame dt s
  | .handoverYield dt => Sys2Proof.Machine.execHandoverYield dt s
  | .watchdogExpiry dt die what => Sys2Proof.Machine.execWatchdogExpiry dt die what s
  | .eccUncorrectable dt die place => Sys2Proof.Machine.execEccUncorrectable dt die place s
  | .bridgeDown dt => Sys2Proof.Machine.execBridgeDown dt s
  | .deepPanFault dt die => Sys2Proof.Machine.execDeepPanFault dt die s
  | .supplyReset dt rail mv => Sys2Proof.Machine.execSupplyReset dt rail mv s
  | .supplyResetEnd dt => Sys2Proof.Machine.execSupplyResetEnd dt s
  | .dipBegin dt rail mv => Sys2Proof.Machine.execDipBegin dt rail mv s
  | .supplyDip dt rail minMv duration => Sys2Proof.Machine.execSupplyDip dt rail minMv duration s
  | .supplyMargin dt rail marginMv => Sys2Proof.Machine.execSupplyMargin dt rail marginMv s
  | .thermalWarning dt die sensor celsius => Sys2Proof.Machine.execThermalWarning dt die sensor celsius s
  | .thermalClear dt => Sys2Proof.Machine.execThermalClear dt s
  | .thermalReset dt => Sys2Proof.Machine.execThermalReset dt s
  | .thermalResetEnd dt => Sys2Proof.Machine.execThermalResetEnd dt s
  | .hostPortDown dt port => Sys2Proof.Machine.execHostPortDown dt port s
  | .hostPortLinkUp dt port => Sys2Proof.Machine.execHostPortLinkUp dt port s
  | .debugAccess dt => Sys2Proof.Machine.execDebugAccess dt s
  | .refclkCheck dt readings => Sys2Proof.Machine.execRefclkCheck dt readings s
  | .gridBoundary dt => Sys2Proof.Machine.execGridBoundary dt s
  | .upstreamFrameEnd dt ch gapsWithEnergy => Sys2Proof.Machine.execUpstreamFrameEnd dt ch gapsWithEnergy s
  | .feederSearchResult dt ch answers => Sys2Proof.Machine.execFeederSearchResult dt ch answers s
  | .bobbinWake dt bob => Sys2Proof.Machine.execBobbinWake dt bob s
  | .mapBuildStart dt ch => Sys2Proof.Machine.execMapBuildStart dt ch s
  | .batchSteal dt thief home => Sys2Proof.Machine.execBatchSteal dt thief home s
  | .mapBuildDone dt ch => Sys2Proof.Machine.execMapBuildDone dt ch s
  | .mapDeadline dt ch => Sys2Proof.Machine.execMapDeadline dt ch s
  | .buildInputLate dt ch => Sys2Proof.Machine.execBuildInputLate dt ch s
  | .budgetPeriodEnd dt => Sys2Proof.Machine.execBudgetPeriodEnd dt s
  | .bobbinFault dt bob yieldIn => Sys2Proof.Machine.execBobbinFault dt bob yieldIn s
  | .cuePulse dt ch => Sys2Proof.Machine.execCuePulse dt ch s
  | .fittingPreload dt ch storeError => Sys2Proof.Machine.execFittingPreload dt ch storeError s
  | .burstGuardStart dt ch => Sys2Proof.Machine.execBurstGuardStart dt ch s
  | .burstReceive dt ch obs => Sys2Proof.Machine.execBurstReceive dt ch obs s
  | .terminalBurstLoss dt term => Sys2Proof.Machine.execTerminalBurstLoss dt term s
  | .upstreamLos dt ch => Sys2Proof.Machine.execUpstreamLos dt ch s
  | .burstLaneLol dt ch => Sys2Proof.Machine.execBurstLaneLol dt ch s
  | .burstLaneLolClear dt ch => Sys2Proof.Machine.execBurstLaneLolClear dt ch s
  | .upstreamBerInterval dt term => Sys2Proof.Machine.execUpstreamBerInterval dt term s
  | .fittingSweep dt => Sys2Proof.Machine.execFittingSweep dt s
  | .serialNumberOnu dt ch serial rate arrival => Sys2Proof.Machine.execSerialNumberOnu dt ch serial rate arrival s
  | .registration dt term arrival => Sys2Proof.Machine.execRegistration dt term arrival s
  | .acknowledge dt term what => Sys2Proof.Machine.execAcknowledge dt term what s
  | .keyReport dt term fragment key => Sys2Proof.Machine.execKeyReport dt term fragment key s
  | .sleepRequest dt term mode => Sys2Proof.Machine.execSleepRequest dt term mode s
  | .ploamIntegrity dt term => Sys2Proof.Machine.execPloamIntegrity dt term s
  | .ploamBacklogRelease dt ch => Sys2Proof.Machine.execPloamBacklogRelease dt ch s
  | .activationFailed dt term => Sys2Proof.Machine.execActivationFailed dt term s
  | .rangingCorrectionTimeout dt term => Sys2Proof.Machine.execRangingCorrectionTimeout dt term s
  | .terminalLost dt term => Sys2Proof.Machine.execTerminalLost dt term s
  | .rogueSuspect dt ch gain => Sys2Proof.Machine.execRogueSuspect dt ch gain s
  | .rogueCandidateCheck dt ch energy => Sys2Proof.Machine.execRogueCandidateCheck dt ch energy s
  | .profileAckTimeout dt term => Sys2Proof.Machine.execProfileAckTimeout dt term s
  | .discoveryPeriodExpiry dt ch => Sys2Proof.Machine.execDiscoveryPeriodExpiry dt ch s
  | .channelActive dt ch => Sys2Proof.Machine.execChannelActive dt ch s
  | .channelQuiet dt ch => Sys2Proof.Machine.execChannelQuiet dt ch s
  | .quietWake dt ch => Sys2Proof.Machine.execQuietWake dt ch s
  | .quietSleep dt ch => Sys2Proof.Machine.execQuietSleep dt ch s
  | .channelDark dt ch => Sys2Proof.Machine.execChannelDark dt ch s
  | .channelFault dt ch moduleFault yieldIn => Sys2Proof.Machine.execChannelFault dt ch moduleFault yieldIn s
  | .stitchOpen dt => Sys2Proof.Machine.execStitchOpen dt s
  | .stitchConfirmCheck dt unconfirmed => Sys2Proof.Machine.execStitchConfirmCheck dt unconfirmed s
  | .stitchQuarantine dt unconfirmed => Sys2Proof.Machine.execStitchQuarantine dt unconfirmed s
  | .stitchClose dt => Sys2Proof.Machine.execStitchClose dt s
  | .classifierBankWrite dt die => Sys2Proof.Machine.execClassifierBankWrite dt die s
  | .bankRelease dt die lastFrameDone => Sys2Proof.Machine.execBankRelease dt die lastFrameDone s
  | .placementMoveDone dt kind num => Sys2Proof.Machine.execPlacementMoveDone dt kind num s
  | .cipherLoadRebalance dt lane loadPercent => Sys2Proof.Machine.execCipherLoadRebalance dt lane loadPercent s
  | .pipelinePass dt dir ingress frame tag parity => Sys2Proof.Machine.execPipelinePass dt dir ingress frame tag parity s
  | .recirculation dt die dir pipe => Sys2Proof.Machine.execRecirculation dt die dir pipe s
  | .holdWindowClose dt die tenant vid mac => Sys2Proof.Machine.execHoldWindowClose dt die tenant vid mac s
  | .ageSweep dt die => Sys2Proof.Machine.execAgeSweep dt die s
  | .queueEnqueue dt die => Sys2Proof.Machine.execQueueEnqueue dt die s
  | .schedulerDequeue dt ch ctx => Sys2Proof.Machine.execSchedulerDequeue dt ch ctx s
  | .shaperRefill dt => Sys2Proof.Machine.execShaperRefill dt s
  | .policerRefill dt => Sys2Proof.Machine.execPolicerRefill dt s
  | .cutThroughStart dt ch present => Sys2Proof.Machine.execCutThroughStart dt ch present s
  | .cutThroughFrameEnd dt ch arrived icvOk => Sys2Proof.Machine.execCutThroughFrameEnd dt ch arrived icvOk s
  | .timedLaunch dt isPort dest => Sys2Proof.Machine.execTimedLaunch dt isPort dest s
  | .uplinkTransmit dt port => Sys2Proof.Machine.execUplinkTransmit dt port s
  | .fcInAssert dt pin => Sys2Proof.Machine.execFcInAssert dt pin s
  | .fcInDeassert dt pin => Sys2Proof.Machine.execFcInDeassert dt pin s
  | .fcInStuck dt pin => Sys2Proof.Machine.execFcInStuck dt pin s
  | .fcOutHoldEnd dt pin => Sys2Proof.Machine.execFcOutHoldEnd dt pin s
  | .cipherLaneFault dt lane item yieldIn => Sys2Proof.Machine.execCipherLaneFault dt lane item yieldIn s
  | .keySlotFault dt die slot copyOk => Sys2Proof.Machine.execKeySlotFault dt die slot copyOk s
  | .keyRefresh dt term => Sys2Proof.Machine.execKeyRefresh dt term s
  | .keyReportTimeout dt term => Sys2Proof.Machine.execKeyReportTimeout dt term s
  | .keyExchangeRetry dt term => Sys2Proof.Machine.execKeyExchangeRetry dt term s
  | .keySwitch dt term => Sys2Proof.Machine.execKeySwitch dt term s
  | .keyClear dt term => Sys2Proof.Machine.execKeyClear dt term s
  | .keySpent dt broadcast owner => Sys2Proof.Machine.execKeySpent dt broadcast owner s
  | .broadcastKeyRefresh dt tenant ch => Sys2Proof.Machine.execBroadcastKeyRefresh dt tenant ch s
  | .broadcastKeySwitch dt tenant ch => Sys2Proof.Machine.execBroadcastKeySwitch dt tenant ch s
  | .omciMessageReceive dt term micOk msg swdl => Sys2Proof.Machine.execOmciMessageReceive dt term micOk msg swdl s
  | .omciTimeout dt term prio => Sys2Proof.Machine.execOmciTimeout dt term prio s
  | .swdlWindowTimeout dt term => Sys2Proof.Machine.execSwdlWindowTimeout dt term s
  | .swdlEndRetry dt term => Sys2Proof.Machine.execSwdlEndRetry dt term s
  | .serviceFrame dt die msg => Sys2Proof.Machine.execServiceFrame dt die msg s
  | .mcastQueryTimer dt die tenant vid => Sys2Proof.Machine.execMcastQueryTimer dt die tenant vid s
  | .ccmSend dt mep => Sys2Proof.Machine.execCcmSend dt mep s
  | .cfmCcmLoss dt mep remote => Sys2Proof.Machine.execCfmCcmLoss dt mep remote s
  | .loopProbeSend dt die tenant vid => Sys2Proof.Machine.execLoopProbeSend dt die tenant vid s
  | .loopHoldEnd dt flow => Sys2Proof.Machine.execLoopHoldEnd dt flow s
  | .sync dt base t1 t2 t3 t4 correction complete => Sys2Proof.Machine.execSync dt base t1 t2 t3 t4 correction complete s
  | .announce dt base port master dataset => Sys2Proof.Machine.execAnnounce dt base port master dataset s
  | .ptpSend dt base port => Sys2Proof.Machine.execPtpSend dt base port s
  | .announceReceiptTimeout dt base => Sys2Proof.Machine.execAnnounceReceiptTimeout dt base s
  | .timeJumpHeld dt base => Sys2Proof.Machine.execTimeJumpHeld dt base s
  | .timeLock dt base => Sys2Proof.Machine.execTimeLock dt base s
  | .holdoverBudgetExpiry dt base => Sys2Proof.Machine.execHoldoverBudgetExpiry dt base s
  | .timeJumpApplied dt base => Sys2Proof.Machine.execTimeJumpApplied dt base s
  | .timeSetApply dt base => Sys2Proof.Machine.execTimeSetApply dt base s
  | .ppsInEdge dt input => Sys2Proof.Machine.execPpsInEdge dt input s
  | .ppsInLoss dt input => Sys2Proof.Machine.execPpsInLoss dt input s
  | .ppsOutPulse dt output => Sys2Proof.Machine.execPpsOutPulse dt output s
  | .rclkResume dt output => Sys2Proof.Machine.execRclkResume dt output s
  | .todDelivery dt term => Sys2Proof.Machine.execTodDelivery dt term s
  | .laneLos dt lane => Sys2Proof.Machine.execLaneLos dt lane s
  | .laneLosClear dt lane => Sys2Proof.Machine.execLaneLosClear dt lane s
  | .laneLol dt lane => Sys2Proof.Machine.execLaneLol dt lane s
  | .laneLolClear dt lane => Sys2Proof.Machine.execLaneLolClear dt lane s
  | .portLinkUp dt subport => Sys2Proof.Machine.execPortLinkUp dt subport s
  | .pcsAlignmentLoss dt subport localFault => Sys2Proof.Machine.execPcsAlignmentLoss dt subport localFault s
  | .laneTrainingDone dt lane => Sys2Proof.Machine.execLaneTrainingDone dt lane s
  | .laneTrainFail dt lane => Sys2Proof.Machine.execLaneTrainFail dt lane s
  | .laneRetrain dt lane => Sys2Proof.Machine.execLaneRetrain dt lane s
  | .trainingFrame dt lane control status crc => Sys2Proof.Machine.execTrainingFrame dt lane control status crc s
  | .laneDegradeInterval dt lane errors symbols codewords uncorrectable => Sys2Proof.Machine.execLaneDegradeInterval dt lane errors symbols codewords uncorrectable s
  | .laneSnapshotRefresh dt lane => Sys2Proof.Machine.execLaneSnapshotRefresh dt lane s
  | .laneFence dt lane value => Sys2Proof.Machine.execLaneFence dt lane value s
  | .laneMarginScanDone dt lane margins => Sys2Proof.Machine.execLaneMarginScanDone dt lane margins s
  | .hello dt sh lowest highest minimum serial role digest => Sys2Proof.Machine.execHello dt sh lowest highest minimum serial role digest s
  | .grid dt sh count phasePs digest => Sys2Proof.Machine.execGrid dt sh count phasePs digest s
  | .seamStitch dt sh part => Sys2Proof.Machine.execSeamStitch dt sh part s
  | .buildInput dt sh ch sf shortTerms share => Sys2Proof.Machine.execBuildInput dt sh ch sf shortTerms share s
  | .mapDigest dt sh ch sf digest => Sys2Proof.Machine.execMapDigest dt sh ch sf digest s
  | .ranging dt sh term ch onu st rtd eqd arrival => Sys2Proof.Machine.execRanging dt sh term ch onu st rtd eqd arrival s
  | .hostEvent dt sh ev => Sys2Proof.Machine.execHostEvent dt sh ev s
  | .keyContext dt sh die kind owner index keyState key wrapOk => Sys2Proof.Machine.execKeyContext dt sh die kind owner index keyState key wrapOk s
  | .timeCompare dt sh base value st => Sys2Proof.Machine.execTimeCompare dt sh base value st s
  | .timeCompareSend dt => Sys2Proof.Machine.execTimeCompareSend dt s
  | .allocState dt sh ch pointer allocs hints => Sys2Proof.Machine.execAllocState dt sh ch pointer allocs hints s
  | .seamResync dt sh msg => Sys2Proof.Machine.execSeamResync dt sh msg s
  | .ack dt sh seqs digestAgrees => Sys2Proof.Machine.execAck dt sh seqs digestAgrees s
  | .yieldNotice dt sh cause => Sys2Proof.Machine.execYieldNotice dt sh cause s
  | .burstTally dt sh entries yieldIn => Sys2Proof.Machine.execBurstTally dt sh entries yieldIn s
  | .burstTallySend dt => Sys2Proof.Machine.execBurstTallySend dt s
  | .seamIntegrity dt => Sys2Proof.Machine.execSeamIntegrity dt s
  | .seamDown dt => Sys2Proof.Machine.execSeamDown dt s
  | .twinSeamLoss dt => Sys2Proof.Machine.execTwinSeamLoss dt s
  | .stitchAckTimeout dt => Sys2Proof.Machine.execStitchAckTimeout dt s
  | .gridDriftCheck dt driftPpb => Sys2Proof.Machine.execGridDriftCheck dt driftPpb s
  | .twinResyncFailed dt step => Sys2Proof.Machine.execTwinResyncFailed dt step s
  | .resyncRetry dt => Sys2Proof.Machine.execResyncRetry dt s
  | .rakeGather dt => Sys2Proof.Machine.execRakeGather dt s
  | .rakeGatherDone dt => Sys2Proof.Machine.execRakeGatherDone dt s
  | .eventDelivery dt consumed => Sys2Proof.Machine.execEventDelivery dt consumed s
  | .eventRingOverflow dt port ring consumed => Sys2Proof.Machine.execEventRingOverflow dt port ring consumed s
  | .vectorHoldoffEnd dt port vector => Sys2Proof.Machine.execVectorHoldoffEnd dt port vector s
  | .powerExitDone dt unitKind unit => Sys2Proof.Machine.execPowerExitDone dt unitKind unit s
  | .cipherPoolNap dt pool => Sys2Proof.Machine.execCipherPoolNap dt pool s
  | .cipherPoolSleep dt pool => Sys2Proof.Machine.execCipherPoolSleep dt pool s
  | .alterationPassStart dt => Sys2Proof.Machine.execAlterationPassStart dt s
  | .alterationDone dt eastMonitors westMonitors slopeUvPerDay => Sys2Proof.Machine.execAlterationDone dt eastMonitors westMonitors slopeUvPerDay s
  | .supplyRailRise dt rail => Sys2Proof.Machine.execSupplyRailRise dt rail s

end Sys2Proof.Machine
end

