-- ==== Sys2Proof/Safety.lean ====
section
/-! DEFINITION. The words that the claims are stated in: what a command leads to, what it leaves alone, what a ring answers and which event was raised; and what counts as a safe state of the block. -/

namespace Sys2Proof.Machine
open Sys2Proof

/-! ### What a command leads to, and what it leaves alone -/

/-- The command answers a next state, and of that state `P` holds. -/
def goesTo (c : Instr) (s : State) (P : State → Prop) : Prop := ∃ t, exec c s = .next t ∧ P t

/-- The parts of the state beside the queue, the time, the draw counter and the output. -/
inductive Part | ev | ctr | host | stitch | pon | q | tab | svc | ciph | time | lane | twin | pwr
  deriving DecidableEq, Repr

/-- A part of the state is the same in both states. -/
def Part.same (s t : State) : Part → Prop
  | .ev => t.ev = s.ev
  | .ctr => t.ctr = s.ctr
  | .host => t.host = s.host
  | .stitch => t.stitch = s.stitch
  | .pon => t.pon = s.pon
  | .q => t.q = s.q
  | .tab => t.tab = s.tab
  | .svc => t.svc = s.svc
  | .ciph => t.ciph = s.ciph
  | .time => t.time = s.time
  | .lane => t.lane = s.lane
  | .twin => t.twin = s.twin
  | .pwr => t.pwr = s.pwr

/-- The command's time has passed and no part but those named may differ; the queue of waiting commands never does. -/
def only (ps : List Part) (dt : Nat) (s t : State) : Prop :=
  t.pending = s.pending ∧ t.now = s.now + dt ∧ ∀ p, p ∈ ps ∨ p.same s t

/-- A table differs at no key but one. -/
def onlyKey {α : Type} (k : Nat) (a b : Tab α) : Prop := ∀ j, j ≠ k → b.find? j = a.find? j

/-! ### What a command ring answers -/

/-- The ring can start the command, and nothing turns it away before its own rules: the session is the ring's, the role
accepts its family and its stitch number is current (R319, R361, R362, R366, R367). -/
abbrev serves (opcode : Nat) (h : Hdr) (s : State) : Prop :=
  canStart s h.port h.ring = true ∧ gateStatus opcode h s = none

/-- The ring has taken one entry and written one reply, with the stitch number that a baste must now name. -/
def replied (opcode : Nat) (h : Hdr) (a : Answer) (s t : State) : Prop :=
  (ringOf t h.port h.ring).replies = (ringOf s h.port h.ring).replies
      ++ [⟨opcode, a.status, h.seq, h.session, stagingNumber t, a.detail, a.result⟩]
    ∧ (ringOf t h.port h.ring).rplProd = (ringOf s h.port h.ring).rplProd + 1
    ∧ (ringOf t h.port h.ring).cmdCons = (ringHead (ringOf s h.port h.ring)).cmdCons + 1

/-- Of the host part nothing but the command rings may differ, and of them only the command's own. -/
def ringsOnly (h : Hdr) (s t : State) : Prop :=
  t.host = { s.host with rings := t.host.rings } ∧ onlyKey (ringKey h.port h.ring) s.host.rings t.host.rings

/-- The ring has taken one entry and written one reply, it keeps its session and its registers and stands idle, and nothing else of
the host part has changed. -/
def answered (opcode : Nat) (h : Hdr) (a : Answer) (s t : State) : Prop :=
  replied opcode h a s t ∧ ringsOnly h s t ∧
  ringOf t h.port h.ring = { ringHead (ringOf s h.port h.ring) with
    cmdCons := (ringOf t h.port h.ring).cmdCons, replies := (ringOf t h.port h.ring).replies,
    rplProd := (ringOf t h.port h.ring).rplProd }

/-- The ring has taken one entry and runs the command until its wait ends; no reply is written yet. -/
def waitsFor (opcode : Nat) (h : Hdr) (w : Wait) (max : Time) (s t : State) : Prop :=
  ringOf t h.port h.ring = { ringHead (ringOf s h.port h.ring) with
      cmdCons := (ringHead (ringOf s h.port h.ring)).cmdCons + 1
      running := some ⟨opcode, h.seq, h.session, h.signal, t.now, max, w, false⟩ }
    ∧ ringsOnly h s t

/-! ### Events -/

/-- Exactly one event record was added to those held for delivery: this source, die and arguments, and not a clear. -/
def raised (num : Nat) (die : DieId) (args : List Arg) (s t : State) : Prop :=
  ∃ r, t.ev.held = s.ev.held ++ [r] ∧ r.num = num ∧ r.clear = false ∧ r.die = die ∧ r.args = args

/-- Exactly one clear record was added to those held for delivery. -/
def cleared (num : Nat) (die : DieId) (args : List Arg) (s t : State) : Prop :=
  ∃ r, t.ev.held = s.ev.held ++ [r] ∧ r.num = num ∧ r.clear = true ∧ r.die = die ∧ r.args = args

/-- Among the records added to those held for delivery is one of this source, die and arguments that is not a clear. -/
def raisedAmong (num : Nat) (die : DieId) (args : List Arg) (s t : State) : Prop :=
  ∃ l r l', t.ev.held = s.ev.held ++ l ++ r :: l' ∧ r.num = num ∧ r.clear = false ∧ r.die = die ∧ r.args = args

/-- Of the event part nothing but the held records and the status of the pins may differ. -/
def heldOnly (s t : State) : Prop :=
  t.ev = { s.ev with held := t.ev.held, status0 := t.ev.status0, status1 := t.ev.status1 }

/-! ### Keys and PLOAM -/

/-- The place of an owner's keys in the Key Cellar: the slot it has, under its name, or the die's lowest free one. -/
def keyPlace (s : State) (d : DieId) (kind owner : Nat) : Prop :=
  match slotFor? s d kind owner with
  | some k => ∃ x, s.ciph.slots.find? k = some x ∧ x.kind = kind ∧ x.owner = owner
  | none => s.ciph.slots.find? (freeSlot s d) = none ∧ freeSlot s d / Config.keySlots = dieNum d

/-- A downstream PLOAM message waits on a channel. -/
def ploamWaits (c : Nat) (m : Ploam) (t : State) : Prop := m ∈ (chOf t c).ploam ++ (chOf t c).ploamHeld

/-! ### The Seam -/

/-- The unit hears a message: it is ready, the lane is up, the tag passes, a pairing key was imported and the sequence is new (R313,
R314). -/
abbrev hears (hello : Bool) (sh : SeamHdr) (dt : Nat) (s : State) : Prop :=
  s.pwr.ready = true ∧ sh.lane < 4 ∧ seamLaneUp (tick dt s) sh.lane = true ∧ badSeam hello sh s = false

/-- A paired standby that the message does not send into a resync. -/
abbrev standsBy (s : State) : Prop :=
  s.twin.paired = true ∧ s.twin.held = false ∧
  (s.twin.role = .armed ∨ s.twin.role = .syncing ∨ (s.twin.role = .disarmed ∧ s.twin.lastCause ≠ Cause.seamLoss))

/-- The message has shown the Seam to be up: its lane's sequence and the time of the last message follow it. -/
abbrev heard (sh : SeamHdr) (t : State) : Prop :=
  t.twin.rxSeq.getD sh.lane 0 = sh.seq ∧ t.twin.lastMsg = t.now ∧ t.twin.seamUp = true

/-! ### Resets -/

/-- The unit has gone into a device reset of this cause: everything is as at reset, but for the time bases, the Thimbles, the pins
and the supervisors, which the rules of the reset name (R413, R417, R458). -/
def inResetBy (by_ dt : Nat) (s t : State) : Prop :=
  t.pending = s.pending ∧ t.now = s.now + dt ∧ t.pwr.inReset = true ∧ t.pwr.resetBy = by_ ∧ t.pwr.ready = false ∧ t.pwr.stage = 0 ∧
  t.twin.held = false ∧ t.twin.tokenOut = false ∧ t.twin.yieldOut = true ∧ t.twin.lasers = [] ∧ t.twin.role = .solo ∧
  t.host.linkA = false ∧ t.host.linkB = false ∧ t.host.rings = [] ∧ t.ev.held = [] ∧
  t.stitch = State.reset.stitch ∧ t.pon = State.reset.pon ∧ t.q = State.reset.q ∧ t.tab = State.reset.tab ∧ t.svc = State.reset.svc ∧
  t.ciph = State.reset.ciph ∧ t.lane = State.reset.lane

/-- A time base has kept its value through a reset; one that followed a source or held a jump is in HOLDOVER (R458). -/
def baseKept (b dt : Nat) (s t : State) : Prop :=
  baseVal (baseOf t b) t.now = baseVal (baseOf s b) (s.now + dt) ∧
  (baseOf t b).st = if (baseOf s b).st = .unset ∨ (baseOf s b).st = .freeRun then (baseOf s b).st else .holdover

/-! ### Frames -/

/-- The first pass of a frame that enters the upstream pipeline of its flow (R188, R211). -/
def upFirst (s : State) (flow : Nat) (b : List Byte) : Pass :=
  let c := bankCfg s
  { die := dieOfTree (c.valN Kind.terminal (c.valN Kind.flow flow Fld.flTerm) Fld.trmTree)
    dir := .up
    cfg := c
    stitch := bankStitch s
    frame := { bytes := b, dir := .up, tenant := c.valN Kind.flow flow Fld.flTenant, ingress := flow, stitch := bankStitch s, arrival := baseNs s 0 }
    pipe := upPipe flow }

/-- The frames of a queue in the order in which they leave: what its old instance still holds comes first (R21). -/
def inOrder (s : State) (q : Nat) : List Frame := (queueOf s q).oldFrames ++ (queueOf s q).frames

/-- A queue is the only one that a channel's scheduler can choose: one privileged queue alone, or the one candidate of the hierarchy. -/
def soleQueue (s : State) (ch q : Nat) : Prop :=
  (contenders s ch = [0] ∧ (chOf s ch).expressQ = some q) ∨ (contenders s ch = [1] ∧ (chOf s ch).mgmtQ = some q) ∨
  (contenders s ch = [2] ∧ queueCands s ch = [q] ∧
    (cfgOf s).valN Kind.svcNode (svcNodeOf ch (nodeOf s q)) Fld.shBand < 8 ∧
    (cfgOf s).valN Kind.subscriber (nodeOf s q) Fld.shBand < 8 ∧ (cfgOf s).valN Kind.queue q Fld.shBand < 8)

/-! ### Safe states -/

/-- A LASER_EN output is active only while the unit holds the token and its filtered TOKEN_IN is inactive (R308). -/
def lightOnlyWithToken (s : State) : Prop := s.twin.lasers ≠ [] → s.twin.held = true ∧ s.twin.tokenIn = false

/-- The image store of each die is in its canonical form. -/
def imagesWf (s : State) : Prop := memWf s.host.imagesE.mem = true ∧ memWf s.host.imagesW.mem = true

/-- What no run may break: the light and the canonical form of the image stores. -/
def Inv (s : State) : Prop := lightOnlyWithToken s ∧ imagesWf s

end Sys2Proof.Machine
end

