-- ==== Sys2Proof/Certificates/Slice0/Obligations.lean ====
section
/-! DEFINITION. The statements about the block, for the provers. -/

open Sys2Proof Sys2Proof.Machine

/-- With a command c at the front of the queue, a step is exec of c on the state with the queue's rest. With an empty queue, a
step answers the state as it is; that idling is the model's choice (log entry 1). (95_what_each_step_holds.md; 00_scope.md) -/
def Obligations.StepRunsTheFrontCommand : Prop :=
  (∀ (c : Instr) (rest : List Instr) (s : State), s.pending = c :: rest → step s = exec c { s with pending := rest }) ∧
  (∀ s : State, s.pending = [] → step s = .next s)

/-- For every state in which every active LASER_EN output implies that the unit holds the token and its filtered TOKEN_IN is
inactive, and in which the image store of each die is in its canonical form, whatever the command at the front of the queue
is, the state that a step answers has both properties again. (12_twin.md, the token pins (R306 to R308)) -/
def Obligations.LightInvariantIsKeptByEveryStep : Prop :=
  ∀ s t : State, Inv s → step s = .next t → Inv t

/-- The invariant of the light and of the image stores holds in the state after reset. (12_twin.md, the token pins (R306 to
R308); 17_power_clocks_reset.md, resets (R417)) -/
def Obligations.ResetMeetsTheInvariant : Prop :=
  Inv State.reset

/-- Whatever the command and the state, the next state of the command has the same waiting commands. The queue of commands is the
model's (log entry 1). (95_what_each_step_holds.md; 00_scope.md) -/
def Obligations.NoCommandTouchesTheQueue : Prop :=
  ∀ (c : Instr) (s t : State), exec c s = .next t → t.pending = s.pending

/-- After reset the current stitch number is 0, the staging set is empty, no stitch is pending and the next number is 1; no
object is configured; every channel is DARK, every terminal ABSENT, every fitting record EMPTY, and every time base UNSET;
the unit is SOLO without the token, TOKEN_OUT is inactive, YIELD_OUT is active and no LASER_EN output is active; every
Thimble and every bank lock is free, no ring is enabled and none has a session; the device is not ready; both host links are
down; every counter is 0; the interrupt masks are 0x0009 and 0x0000 and no status bit is set. (01_organisation.md, handles
and stitch numbers; 02_channels.md, channel states; 12_twin.md, the token pins; 14_host_commands.md, Thimbles;
15_events_counters.md, pins; 17_power_clocks_reset.md, resets) -/
def Obligations.ResetState : Prop :=
  let s := State.reset
  s.stitch.current = 0 ∧ s.stitch.staging = [] ∧ s.stitch.pend = [] ∧ stagingNumber s = 1 ∧ s.stitch.cfg = [] ∧
  (∀ c, (chOf s c).st = .dark) ∧ (∀ x, (termOf s x).st = .absent) ∧ (∀ x, (fitOf s x).st = .empty) ∧
  (∀ b, (baseOf s b).st = .unset) ∧
  s.twin.role = .solo ∧ s.twin.held = false ∧ s.twin.tokenOut = false ∧ s.twin.yieldOut = true ∧ s.twin.lasers = [] ∧
  (∀ n, (thimbleOf s n).owner = none) ∧ (∀ d b, (lockOf s d b).owner = none) ∧
  (∀ p r, (ringOf s p r).enable = false ∧ (ringOf s p r).session = none) ∧
  s.pwr.ready = false ∧ (∀ p, linkOf s p = false) ∧ (∀ g o j, ctrVal s g o j = 0) ∧
  s.ev.mask0 = 0x0009 ∧ s.ev.mask1 = 0x0000 ∧ s.ev.status0 = 0 ∧ s.ev.status1 = 0 ∧ s.pending = []

/-- When a ring without a session can start a SESSION_OPEN with an agent of 0 to 63: with a version common to the host's range
and 0x0100 to 0x0102, the ring has a session with that agent, the highest common version and a non-zero identifier, and the
reply gives the version, the identifier, the device's range, the firmware version and the unit serial number; without one,
the reply is VERSION and there is still no session. (14_host_commands.md, Sessions (R367); 14_host_commands.md, Packets
(R365)) -/
def Obligations.SessionsOpenUnderTheHighestCommonVersion : Prop :=
  (∀ dt h lowest highest agent s, serves Op.sessionOpen h s → agent < 64 → max lowest 0x0100 ≤ min highest 0x0102 →
    goesTo (.sessionOpen dt h lowest highest agent) s fun t => ∃ id : Word, id ≠ 0 ∧
      (ringOf t h.port h.ring).session = some { id := id, agent := agent, version := min highest 0x0102 } ∧
      replied Op.sessionOpen h { result := [min highest 0x0102, id.toNat, 0x0100, 0x0102, Config.firmwareVersion.toNat,
        Config.unitSerial.toNat] } s t ∧ ringsOnly h s t ∧ only [.host, .ev] dt s t) ∧
  (∀ dt h lowest highest agent s, serves Op.sessionOpen h s → agent < 64 → min highest 0x0102 < max lowest 0x0100 →
    goesTo (.sessionOpen dt h lowest highest agent) s fun t =>
      answered Op.sessionOpen h { status := St.version } s t ∧ only [.host, .ev] dt s t)

/-- A served HOST_RINGS is answered OK. A notice, OMCI or launch ring becomes the session's ring of that kind with its address
and entries, or none when the entries are 0. An event ring of a power-of-two size from 64 to 65,536 entries with a 16-bit
group mask is attached when the port has another event ring already, and is detached with 0 entries. The port's punt pool is
attached with 1 to 65,535 buffers when no session has one, with nothing in the descriptor FIFO and no buffer handed out, and
detached with 0. (14_host_commands.md, Rings (R363); 14_host_commands.md, Opcodes (HOST_RINGS); 15_events_counters.md, event
rings (R383)) -/
def Obligations.HostRingsAttachAndDetach : Prop :=
  (∀ dt h kind addr entries mask s se, serves Op.hostRings h s → (ringOf s h.port h.ring).session = some se →
    kind = .notice ∨ kind = .omci ∨ kind = .launch →
    goesTo (.hostRings dt h kind addr entries mask) s fun t =>
      (ringOf t h.port h.ring).session = some (match kind with
        | .notice => { se with notice := deliveryOf addr entries }
        | .omci => { se with omci := deliveryOf addr entries }
        | _ => { se with launch := deliveryOf addr entries }) ∧
      replied Op.hostRings h {} s t ∧ ringsOnly h s t ∧ only [.host, .ev] dt s t) ∧
  (∀ dt h addr entries mask s se, serves Op.hostRings h s → (ringOf s h.port h.ring).session = some se →
    pow2In entries 64 65536 = true → mask ≤ 65535 → ringsWith s h.port .event ≠ [] →
    goesTo (.hostRings dt h .event addr entries mask) s fun t =>
      (ringOf t h.port h.ring).session = some { se with eventRing := some { addr := addr, entries := entries, mask := mask } } ∧
      replied Op.hostRings h {} s t ∧ ringsOnly h s t ∧ only [.host, .ev] dt s t) ∧
  (∀ dt h addr mask s se, serves Op.hostRings h s → (ringOf s h.port h.ring).session = some se →
    goesTo (.hostRings dt h .event addr 0 mask) s fun t =>
      (ringOf t h.port h.ring).session = some { se with eventRing := none } ∧
      replied Op.hostRings h {} s t ∧ ringsOnly h s t ∧ only [.host, .ev] dt s t) ∧
  (∀ dt h addr entries mask s se, serves Op.hostRings h s → (ringOf s h.port h.ring).session = some se →
    (puntOf s h.port).pool = none → 1 ≤ entries → entries ≤ 65535 →
    goesTo (.hostRings dt h .punt addr entries mask) s fun t =>
      puntOf t h.port = { pool := some (addr, entries), ring := h.ring, fifo := [], out := [] } ∧
      (ringOf t h.port h.ring).session = some { se with punt := true } ∧
      replied Op.hostRings h {} s t ∧ only [.host, .ev] dt s t) ∧
  (∀ dt h addr mask s se, serves Op.hostRings h s → (ringOf s h.port h.ring).session = some se → se.punt = true →
    goesTo (.hostRings dt h .punt addr 0 mask) s fun t =>
      (puntOf t h.port).pool = none ∧ (puntOf t h.port).fifo = [] ∧ (puntOf t h.port).out = [] ∧
      (ringOf t h.port h.ring).session = some { se with punt := false } ∧
      replied Op.hostRings h {} s t ∧ only [.host, .ev] dt s t)

/-- On a port whose link is up, a read of a claim address of a free Thimble makes the reading port's agent its owner and returns
GRANTED with that owner and no waits; a read by the owner returns GRANTED and ALREADY with the refused claims so far; a read
by any other agent leaves the owner, counts one refused claim and returns the owner with that count, saturating at 0xFFFF,
and neither bit. A write by the owner frees the Thimble; a write by anyone else leaves it and counts one ignored write. A
Thimble owned for longer than the timeout in force, which was taken at its claim and does not limit it when 0, is released,
and THIMBLE_TIMEOUT names it and the owner. No other Thimble changes. On a device that is ready and a port whose link is up,
a write with LOCK set to the lock of a free bank makes the port and agent its owner from now on under the timeout that the
register held; a write with RELEASE by the owner frees it; a write with neither to a free lock sets the timeout of the next
claim. A lock held for longer than the timeout in force is released and TABLE_LOCK_TIMEOUT names the die, the bank and the
owner. Where no command waits for a lock, nothing but the lock changes. (14_host_commands.md, Thimbles (R359, R360);
14_host_commands.md, Table 14.3; 08_forwarding_tables.md, writing the table (R232); 19_register_map.md, blocks 7 and 8
(R457); 08_forwarding_tables.md, Table 8.6) -/
def Obligations.ThimblesAndBankLocks : Prop :=
  (∀ dt p n a s, linkOf s p = true → (thimbleOf s n).owner = none →
    goesTo (.thimbleClaim dt p n a) s fun t =>
      thimbleOf t n = { thimbleOf s n with owner := some (p, a), waits := 0, since := s.now + dt,
                                           inForce := (thimbleOf s n).timeout.toNat } ∧
      t.out = [.read (thimbleWord true false (some (p, a)) 0)] ∧
      (∀ m, m ≠ n → thimbleOf t m = thimbleOf s m) ∧ only [.host] dt s t) ∧
  (∀ dt p n a s, linkOf s p = true → (thimbleOf s n).owner = some (p, a) →
    goesTo (.thimbleClaim dt p n a) s fun t =>
      t.out = [.read (thimbleWord true true (some (p, a)) (thimbleOf s n).waits)] ∧ only [] dt s t) ∧
  (∀ dt p n a s o, linkOf s p = true → (thimbleOf s n).owner = some o → o ≠ (p, a) →
    goesTo (.thimbleClaim dt p n a) s fun t =>
      thimbleOf t n = { thimbleOf s n with waits := (thimbleOf s n).waits + 1 } ∧
      t.out = [.read (thimbleWord false false (some o) ((thimbleOf s n).waits + 1))] ∧
      (∀ m, m ≠ n → thimbleOf t m = thimbleOf s m) ∧ only [.host] dt s t) ∧
  (∀ dt p n a s, linkOf s p = true → (thimbleOf s n).owner = some (p, a) →
    goesTo (.thimbleRelease dt p n a) s fun t =>
      (thimbleOf t n).owner = none ∧ (thimbleOf t n).waits = 0 ∧
      (∀ m, m ≠ n → thimbleOf t m = thimbleOf s m) ∧ only [.host] dt s t) ∧
  (∀ dt p n a s, linkOf s p = true → (thimbleOf s n).owner ≠ some (p, a) → ctrVal s 0 0 Cn.ignoredWrites + 1 < 2 ^ 48 →
    goesTo (.thimbleRelease dt p n a) s fun t =>
      ctrVal t 0 0 Cn.ignoredWrites = ctrVal s 0 0 Cn.ignoredWrites + 1 ∧ only [.ctr] dt s t) ∧
  (∀ dt n s p a, (thimbleOf s n).owner = some (p, a) → (thimbleOf s n).inForce ≠ 0 →
    (thimbleOf s n).since + Time.us (100 * (thimbleOf s n).inForce) < s.now + dt →
    goesTo (.thimbleTimeout dt n) s fun t =>
      (thimbleOf t n).owner = none ∧ (∀ m, m ≠ n → thimbleOf t m = thimbleOf s m) ∧
      raised Ev.thimbleTimeout .east [.u8 n, .u8 (portNum p), .u8 a] s t ∧ only [.host, .ev] dt s t) ∧
  (∀ dt p d b a tb s, s.pwr.ready = true → linkOf s p = true → (lockOf s d b).owner = none → a < 64 →
    goesTo (.fmtLockClaim dt p d b a tb) s fun t =>
      lockOf t d b = { lockOf s d b with owner := some (p, a), since := s.now + dt, inForce := (lockOf s d b).timeout.toNat } ∧
      onlyKey (lockKey d b) s.host.locks t.host.locks ∧ only [.host] dt s t) ∧
  (∀ dt p d b a s, s.pwr.ready = true → linkOf s p = true → (lockOf s d b).owner = some (p, a) → a < 64 → ringsWaiting s waitsForBank = [] →
    goesTo (.fmtLockRelease dt p d b a) s fun t =>
      lockOf t d b = { lockOf s d b with owner := none } ∧
      onlyKey (lockKey d b) s.host.locks t.host.locks ∧ only [.host] dt s t) ∧
  (∀ dt p d b v s, s.pwr.ready = true → linkOf s p = true → (lockOf s d b).owner = none →
    goesTo (.fmtLockTimeoutSet dt p d b v) s fun t =>
      lockOf t d b = { lockOf s d b with timeout := v } ∧
      onlyKey (lockKey d b) s.host.locks t.host.locks ∧ only [.host] dt s t) ∧
  (∀ dt d b s p a, (lockOf s d b).owner = some (p, a) → (lockOf s d b).inForce ≠ 0 →
    (lockOf s d b).since + Time.us (100 * (lockOf s d b).inForce) < s.now + dt → ringsWaiting s waitsForBank = [] →
    goesTo (.tableLockTimeout dt d b) s fun t =>
      lockOf t d b = { lockOf s d b with owner := none } ∧
      raised Ev.tableLockTimeout d [.u8 (dieNum d), .u8 b, .u8 (portNum p), .u8 a] s t ∧ only [.host, .ev] dt s t)

/-- On a port whose link is up and through that port: a write of 1 to ENABLE of an idle, disabled ring with aligned addresses and
a size of 4 to 12 sets its size, all four indices to 0 and enables it; with a misaligned address it sets ERROR, leaves the
ring disabled and raises RING_ERROR. A write of 0 disables the ring and ends its session. A RING_CMD_PROD write that does not
overrun the reply consumer index becomes the producer index once the device is ready, and an overrunning one is not taken,
disables the ring, sets ERROR and raises RING_ERROR; before the device is ready the write is ignored and counted. A
RING_RPL_CONS write up to the reply producer index becomes the consumer index. The other port's writes are ignored and
counted. No other ring changes. (19_register_map.md, Command rings (R451 to R453); 14_host_commands.md, Rings (R361)) -/
def Obligations.RingRegistersStartAndStopRings : Prop :=
  (∀ dt p r lg s, linkOf s p = true → ringAligned (ringOf s p r) = true → (ringOf s p r).enable = false →
    (ringOf s p r).running = none → 4 ≤ lg → lg ≤ 12 →
    goesTo (.ringEnable dt p p r lg) s fun t =>
      ringOf t p r = { ringOf s p r with log2 := lg, enable := true, cmdProd := 0, cmdCons := 0, rplProd := 0, rplCons := 0,
                                         replies := [], abortsDone := [] } ∧
      onlyKey (ringKey p r) s.host.rings t.host.rings ∧ only [.host] dt s t) ∧
  (∀ dt p r lg s, linkOf s p = true → ringAligned (ringOf s p r) = false → lg = (ringOf s p r).log2 →
    goesTo (.ringEnable dt p p r lg) s fun t =>
      (ringOf t p r).enable = false ∧ (ringOf t p r).error = true ∧
      raised Ev.ringError (if p = .a then .east else .west) [.u8 (portNum p), .u8 r] s t ∧
      onlyKey (ringKey p r) s.host.rings t.host.rings ∧ only [.host, .ev] dt s t) ∧
  (∀ dt p r s, linkOf s p = true →
    goesTo (.ringDisable dt p p r) s fun t => (ringOf t p r).enable = false ∧ (ringOf t p r).session = none) ∧
  (∀ dt p r v s, linkOf s p = true → s.pwr.ready = true →
    (BitVec.ofNat 16 v.toNat - (ringOf s p r).rplCons).toNat ≤ ringEntries (ringOf s p r) →
    goesTo (.ringCmdProd dt p p r v) s fun t =>
      ringOf t p r = { ringOf s p r with cmdProd := BitVec.ofNat 16 v.toNat } ∧
      onlyKey (ringKey p r) s.host.rings t.host.rings ∧ only [.host] dt s t) ∧
  (∀ dt p r v s, linkOf s p = true → s.pwr.ready = true → (ringOf s p r).enable = true →
    ringEntries (ringOf s p r) < (BitVec.ofNat 16 v.toNat - (ringOf s p r).rplCons).toNat →
    goesTo (.ringCmdProd dt p p r v) s fun t =>
      ringOf t p r = { ringOf s p r with enable := false, error := true } ∧
      raised Ev.ringError (if p = .a then .east else .west) [.u8 (portNum p), .u8 r] s t ∧
      onlyKey (ringKey p r) s.host.rings t.host.rings ∧ only [.host, .ev] dt s t) ∧
  (∀ dt p r v s, linkOf s p = true → s.pwr.ready = false → ctrVal s 0 0 Cn.ignoredWrites + 1 < 2 ^ 48 →
    goesTo (.ringCmdProd dt p p r v) s fun t =>
      ctrVal t 0 0 Cn.ignoredWrites = ctrVal s 0 0 Cn.ignoredWrites + 1 ∧ only [.ctr] dt s t) ∧
  (∀ dt p r v s, linkOf s p = true →
    (BitVec.ofNat 16 v.toNat - (ringOf s p r).rplCons).toNat ≤ ((ringOf s p r).rplProd - (ringOf s p r).rplCons).toNat →
    ((ringOf s p r).rplProd - (ringOf s p r).rplCons).toNat ≤ ringEntries (ringOf s p r) →
    goesTo (.ringRplCons dt p p r v) s fun t =>
      ringOf t p r = { ringOf s p r with
        rplCons := BitVec.ofNat 16 v.toNat
        replies := (ringOf s p r).replies.drop (BitVec.ofNat 16 v.toNat - (ringOf s p r).rplCons).toNat } ∧
      onlyKey (ringKey p r) s.host.rings t.host.rings ∧ only [.host] dt s t) ∧
  (∀ dt p q r v s, linkOf s q = true → q ≠ p → ctrVal s 0 0 Cn.ignoredWrites + 1 < 2 ^ 48 →
    goesTo (.ringCmdProd dt q p r v) s fun t =>
      ctrVal t 0 0 Cn.ignoredWrites = ctrVal s 0 0 Cn.ignoredWrites + 1 ∧ only [.ctr] dt s t)

/-- On a ready device whose link to the reader is up: a read of PUNT_FIFO through its own port returns the head descriptor item,
removes it and notes its buffer as handed out; an empty FIFO and a read through the other port return the idle item
0xFFFF0000 and change nothing. With a pool attached, a PUNT_RETURN write of a buffer that was handed out takes it back; of
any other buffer, or without a pool, it is ignored and counted. The other port's punt block does not change.
(19_register_map.md, Punted frames (R454); 19_register_map.md, Block map (R447, R448)) -/
def Obligations.PuntedFramesAreHandedOutOnceAndReturned : Prop :=
  (∀ dt p w rest s, linkOf s p = true → s.pwr.ready = true → (puntOf s p).fifo = w :: rest →
    goesTo (.puntFifo dt p p) s fun t =>
      t.out = [.read w] ∧
      puntOf t p = { puntOf s p with fifo := rest, out := (puntOf s p).out ++ [itemBuffer w] } ∧
      puntOf t (otherPort p) = puntOf s (otherPort p) ∧ only [.host] dt s t) ∧
  (∀ dt q p s, linkOf s q = true → s.pwr.ready = true → q ≠ p ∨ (puntOf s p).fifo = [] →
    goesTo (.puntFifo dt q p) s fun t => t.out = [.read 0xFFFF0000] ∧ only [] dt s t) ∧
  (∀ dt p i s, linkOf s p = true → s.pwr.ready = true → (puntOf s p).pool ≠ none → i.toNat ∈ (puntOf s p).out →
    goesTo (.puntReturn dt p p i) s fun t =>
      puntOf t p = { puntOf s p with out := (puntOf s p).out.erase i.toNat } ∧
      puntOf t (otherPort p) = puntOf s (otherPort p) ∧ only [.host] dt s t) ∧
  (∀ dt p i s, linkOf s p = true → i.toNat ∉ (puntOf s p).out ∨ (puntOf s p).pool = none →
    ctrVal s 0 0 Cn.ignoredWrites + 1 < 2 ^ 48 →
    goesTo (.puntReturn dt p p i) s fun t =>
      ctrVal t 0 0 Cn.ignoredWrites = ctrVal s 0 0 Cn.ignoredWrites + 1 ∧ only [.ctr] dt s t)

/-- On a port whose link is up: a W1C write to EVT_PIN_STATUS0 or 1 clears exactly the status bits written as 1, and the other
pin's status and both masks stay; a write to EVT_PIN_MASK0 or 1 sets the mask to the low 16 bits; a write to THIMBLE_CFG n
sets its timeout for the next claim and nothing else of the Thimble; a write to the holdoff register of the writing port of
at most 1,000 us is taken; a write to RING_CMD_BASE_LO of a ring of the writing port that is neither enabled nor busy sets
the address. A write that is not one aligned 32-bit word, and a write to blocks 9 to 31, is ignored and counts one ignored
write. On a port whose link is up: a 16-byte write to the place of a flow/MAC entry that meets the conditions of a DMA write,
from the port that owns the bank's lock, changes that entry as the write says, or deletes it, and no other entry; a write to
a place that holds no entry changes no entry and is counted as rejected. An aligned write through the image window of a die
with an open image, within the image and the window, stores its bytes at the window's offset, and every other byte of that
store and of the other die's store reads as before. A write outside the windows is counted and changes nothing.
(19_register_map.md, Block map (R445, R446); 19_register_map.md, Thimbles (R450); 19_register_map.md, Event delivery (R455);
14_host_commands.md, The two ports (R357, R358); 08_forwarding_tables.md, writing the table (R231)) -/
def Obligations.RegisterAndWindowWrites : Prop :=
  (∀ dt w v s, linkOf s w = true →
    goesTo (.evtPinStatus dt w 0 v) s fun t =>
      t.ev = { s.ev with status0 := s.ev.status0 &&& ~~~BitVec.ofNat 16 v.toNat } ∧ only [.ev] dt s t) ∧
  (∀ dt w v s, linkOf s w = true →
    goesTo (.evtPinStatus dt w 1 v) s fun t =>
      t.ev = { s.ev with status1 := s.ev.status1 &&& ~~~BitVec.ofNat 16 v.toNat } ∧ only [.ev] dt s t) ∧
  (∀ dt w v s, linkOf s w = true →
    goesTo (.registerWrite dt w 0x300010 4 v) s fun t =>
      t.ev = { s.ev with mask0 := BitVec.ofNat 16 v.toNat } ∧ only [.ev] dt s t) ∧
  (∀ dt w v s, linkOf s w = true →
    goesTo (.registerWrite dt w 0x300014 4 v) s fun t =>
      t.ev = { s.ev with mask1 := BitVec.ofNat 16 v.toNat } ∧ only [.ev] dt s t) ∧
  (∀ dt w n v s, linkOf s w = true → n < 64 →
    goesTo (.registerWrite dt w (0x84100 + 4 * n) 4 v) s fun t =>
      thimbleOf t n = { thimbleOf s n with timeout := BitVec.ofNat 16 v.toNat } ∧
      (∀ m, m ≠ n → thimbleOf t m = thimbleOf s m) ∧ only [.host] dt s t) ∧
  (∀ dt v s, linkOf s .a = true → v.toNat % 1024 ≤ 1000 →
    goesTo (.registerWrite dt .a 0x300000 4 v) s fun t =>
      t.ev = { s.ev with holdoffA := v.toNat % 1024 } ∧ only [.ev] dt s t) ∧
  (∀ dt r v s, linkOf s .a = true → r < 16 → (ringOf s .a r).enable = false → (ringOf s .a r).running = none →
    goesTo (.registerWrite dt .a (0x100000 + 0x40 * r) 4 v) s fun t =>
      ringOf t .a r = { ringOf s .a r with cmdBaseLo := v } ∧
      onlyKey (ringKey .a r) s.host.rings t.host.rings ∧ only [.host] dt s t) ∧
  (∀ dt w off bytes v s, linkOf s w = true → bytes ≠ 4 ∨ off % 4 ≠ 0 ∨ 9 ≤ off / 0x80000 →
    ctrVal s 0 0 Cn.ignoredWrites + 1 < 2 ^ 48 →
    goesTo (.registerWrite dt w off bytes v) s fun t =>
      ctrVal t 0 0 Cn.ignoredWrites = ctrVal s 0 0 Cn.ignoredWrites + 1 ∧ only [.ctr] dt s t) ∧
  (∀ dt p d off data s e e', linkOf s p = true → off % 16 = 0 → off < 0x400000 → data.length = 16 →
    dmaEntry s p d off (leNat (sliceBytes data 0 16)) = some (e, e') →
    goesTo (.tableDmaWrite dt p (off + 0x8000000 * dieNum d) data) s fun t =>
      fmtOf t d = (match e' with
        | none => (fmtOf s d).erase e
        | some n => (fmtOf s d).map fun x => if x = e then n else x) ∧
      fmtOf t (dieOf (1 - dieNum d)) = fmtOf s (dieOf (1 - dieNum d)) ∧ only [.tab] dt s t) ∧
  (∀ dt p d off data s, linkOf s p = true → off % 16 = 0 → off < 0x400000 → data.length = 16 → entryAt s d off = none →
    ctrVal s 3 (64 * dieNum d) Cn.dmaReject + 1 < 2 ^ 48 →
    goesTo (.tableDmaWrite dt p (off + 0x8000000 * dieNum d) data) s fun t =>
      ctrVal t 3 (64 * dieNum d) Cn.dmaReject = ctrVal s 3 (64 * dieNum d) Cn.dmaReject + 1 ∧ only [.ctr, .ev] dt s t) ∧
  (∀ dt p d off data s image length q, linkOf s p = true → (imagesOf s d).opened = some (image, length, q) →
    off % 4 = 0 → off < mib 64 → data.length % 4 = 0 → off + data.length ≤ mib 64 →
    (imagesOf s d).offset + off + data.length ≤ length →
    goesTo (.imageWindowWrite dt p (0x4000000 + off + 0x8000000 * dieNum d) data) s fun t =>
      (∀ i, i < data.length →
        imageByte (imagesOf t d).mem (imageAddr image ((imagesOf s d).offset + off + i)) = data.getD i 0) ∧
      (∀ a, (∀ i, i < data.length → a ≠ imageAddr image ((imagesOf s d).offset + off + i)) →
        imageByte (imagesOf t d).mem a = imageByte (imagesOf s d).mem a) ∧
      imagesOf t (dieOf (1 - dieNum d)) = imagesOf s (dieOf (1 - dieNum d)) ∧ only [.host] dt s t) ∧
  (∀ dt p addr s, linkOf s p = true → fmtWindow? addr = none → imageWindow? addr = none →
    ctrVal s 0 0 Cn.strayWrites + 1 < 2 ^ 48 →
    goesTo (.bar2StrayWrite dt p addr) s fun t =>
      ctrVal t 0 0 Cn.strayWrites = ctrVal s 0 0 Cn.strayWrites + 1 ∧ only [.ctr] dt s t)

/-- A served IMAGE_OPEN of an image of 0 to 31 of at most 256 MiB on a die with no open image opens it for the port with the
window at 0, removes what the image held and is answered OK, when no download uses the image and the store has room; with an
image open on the die it fails with BUSY and changes nothing. IMAGE_WINDOW with an offset of 0, 64, 128 or 192 MiB moves the
window of the open image. IMAGE_CLOSE whose CRC-32 is that of the image's bytes closes it and lists its length and CRC.
IMAGE_DELETE of a listed image that no download uses removes it and its bytes. The other die's store never changes.
(14_host_commands.md, The two ports (R358); 09_service_engines.md, software images (R239)) -/
def Obligations.ImagesAreOpenedWindowedClosedAndDeleted : Prop :=
  (∀ dt h d image length s, serves Op.imageOpen h s → image < 32 → length ≤ mib 256 → (imagesOf s d).opened = none →
    imageInUse s d image = false →
    storeBytes { imagesOf s d with images := (imagesOf s d).images.del image } + length ≤ mib 1024 →
    goesTo (.imageOpen dt h d image length) s fun t =>
      (imagesOf t d).opened = some (image, length, h.port) ∧ (imagesOf t d).offset = 0 ∧
      (imagesOf t d).images = (imagesOf s d).images.del image ∧
      (imagesOf t d).mem = wipeImage image (imagesOf s d).mem ∧
      imagesOf t (dieOf (1 - dieNum d)) = imagesOf s (dieOf (1 - dieNum d)) ∧
      replied Op.imageOpen h {} s t ∧ only [.host, .ev] dt s t) ∧
  (∀ dt h d image length s, serves Op.imageOpen h s → image < 32 → length ≤ mib 256 → (imagesOf s d).opened ≠ none →
    goesTo (.imageOpen dt h d image length) s fun t =>
      answered Op.imageOpen h { status := St.busy } s t ∧ only [.host, .ev] dt s t) ∧
  (∀ dt h d k s, serves Op.imageWindow h s → k < 4 → (imagesOf s d).opened ≠ none →
    goesTo (.imageWindow dt h d (mib 64 * k)) s fun t =>
      imagesOf t d = { imagesOf s d with offset := mib 64 * k } ∧
      imagesOf t (dieOf (1 - dieNum d)) = imagesOf s (dieOf (1 - dieNum d)) ∧
      replied Op.imageWindow h {} s t ∧ only [.host, .ev] dt s t) ∧
  (∀ dt h d s image length q, serves Op.imageClose h s → (imagesOf s d).opened = some (image, length, q) →
    goesTo (.imageClose dt h d (imageCrc (imagesOf s d).mem image length)) s fun t =>
      (imagesOf t d).opened = none ∧
      (imagesOf t d).images.find? image = some (length, imageCrc (imagesOf s d).mem image length) ∧
      (imagesOf t d).mem = (imagesOf s d).mem ∧
      imagesOf t (dieOf (1 - dieNum d)) = imagesOf s (dieOf (1 - dieNum d)) ∧
      replied Op.imageClose h {} s t ∧ only [.host, .ev] dt s t) ∧
  (∀ dt h d image s, serves Op.imageDelete h s → (imagesOf s d).images.find? image ≠ none → imageInUse s d image = false →
    goesTo (.imageDelete dt h d image) s fun t =>
      (imagesOf t d).images = (imagesOf s d).images.del image ∧
      (imagesOf t d).mem = wipeImage image (imagesOf s d).mem ∧
      imagesOf t (dieOf (1 - dieNum d)) = imagesOf s (dieOf (1 - dieNum d)) ∧
      replied Op.imageDelete h {} s t ∧ only [.host, .ev] dt s t)

/-- Outside a reset, a port's link comes up and nothing else changes. When the link of a port goes down, its link is down, none
of its rings has a session, every command of its rings that runs has its reply discarded and none waits to start, no Thimble
and no bank lock is owned by the port, no image that the port opened is open, HOST_PORT_DOWN is among the held events, and
the staging set, the stitches and the configured objects are as before. (14_host_commands.md, The two ports (R356);
14_host_commands.md, The two ports (R358)) -/
def Obligations.HostPortLinks : Prop :=
  (∀ dt p s, s.pwr.inReset = false →
    goesTo (.hostPortLinkUp dt p) s fun t =>
      linkOf t p = true ∧ linkOf t (otherPort p) = linkOf s (otherPort p) ∧
      t.host.rings = s.host.rings ∧ t.host.thimbles = s.host.thimbles ∧ t.host.locks = s.host.locks ∧ only [.host] dt s t) ∧
  (∀ dt p s, linkOf s p = true →
    goesTo (.hostPortDown dt p) s fun t =>
      linkOf t p = false ∧ linkOf t (otherPort p) = linkOf s (otherPort p) ∧
      (∀ r, r < 16 → (ringOf t p r).session = none ∧ (ringOf t p r).cmdCons = (ringOf t p r).cmdProd ∧
        ∀ c, (ringOf t p r).running = some c → c.discard = true) ∧
      (∀ n, n < 64 → ∀ a, (thimbleOf t n).owner ≠ some (p, a)) ∧
      (∀ d b, b < 16 → ∀ a, (lockOf t d b).owner ≠ some (p, a)) ∧
      (∀ d image length, (imagesOf t d).opened ≠ some (image, length, p)) ∧
      (∃ r ∈ t.ev.held, r.num = Ev.hostPortDown ∧ r.args = [.u8 (portNum p)]) ∧ t.stitch = s.stitch)

/-- A served BASTE that names the staging number, with room in the set and a well-formed record, adds the record at the end of
the set under the next record index. A delete of an existing object, other than a privileged queue or a sub-port still named,
is answered OK with that index. A modify of an existing object whose rules allow it is answered with that index, as
OK_REPLACED with DETAIL 1 when it sets a field that an earlier record set, which then loses that field. A create takes the
next number of its kind, and the reply gives the number, the identifier that the device chose, if any, and the index. A BASTE
that names another number fails with STALE_STITCH, and one that finds 65,536 records staged fails with STAGING_FULL; neither
changes the set. The configuration and the pending stitches never change. What the rules of an object are is the model's
reading of the parameter tables. (01_organisation.md, stitch numbers and staging (R28 to R31); 01_organisation.md, handles
(R6); 14_host_commands.md, Baste records (R371, R372)) -/
def Obligations.BastesAreStagedInOrder : Prop :=
  (∀ dt h r s, serves Op.baste h s → h.stitch = stagingNumber s → s.stitch.staging.length < 65536 → recForm r = true → r.op = 3 →
    (stagedCfg s).has r.kind r.handle = true → (r.kind = Kind.queue → privileged s r.handle = false) →
    (r.kind = Kind.subport → portNamed (stagedCfg s) r.handle = false) →
    goesTo (.baste dt h r) s fun t =>
      t.stitch.staging = s.stitch.staging ++ [⟨r, r.handle, none, s.stitch.nextIndex, setFields [] r.fields⟩] ∧
      t.stitch.nextIndex = s.stitch.nextIndex + 1 ∧ t.stitch.cfg = s.stitch.cfg ∧ t.stitch.pend = s.stitch.pend ∧
      answered Op.baste h { result := [s.stitch.nextIndex] } s t ∧ only [.stitch, .twin, .host, .ev] dt s t) ∧
  (∀ dt h r s, serves Op.baste h s → h.stitch = stagingNumber s → s.stitch.staging.length < 65536 → recForm r = true → r.op = 2 →
    (stagedCfg s).has r.kind r.handle = true → objectStatus s (trialCfg s r r.handle none) r r.handle = St.ok →
    goesTo (.baste dt h r) s fun t =>
      let replaced := s.stitch.staging.any (replaces r.kind r.handle (setFields [] r.fields))
      t.stitch.staging = s.stitch.staging.map (stripRec r.kind r.handle (setFields [] r.fields))
        ++ [⟨r, r.handle, none, s.stitch.nextIndex, setFields [] r.fields⟩] ∧
      t.stitch.nextIndex = s.stitch.nextIndex + 1 ∧ t.stitch.cfg = s.stitch.cfg ∧ t.stitch.pend = s.stitch.pend ∧
      answered Op.baste h { status := if replaced then St.okReplaced else St.ok, detail := if replaced then 1 else 0,
                            result := [s.stitch.nextIndex] } s t ∧ only [.stitch, .twin, .host, .ev] dt s t) ∧
  (∀ dt h r s num u, serves Op.baste h s → h.stitch = stagingNumber s → s.stitch.staging.length < 65536 → recForm r = true →
    r.op = 1 → issueNum r s = some (num, u) → (stagedCfg s).has r.kind num = false →
    ((idField r.kind).isSome = true → namedId r = none → (chosenFor s (trialCfg s r num none) num r).isSome = true) →
    objectStatus s (trialCfg s r num (chosenFor s (trialCfg s r num none) num r)) r num = St.ok →
    goesTo (.baste dt h r) s fun t =>
      let chosen := chosenFor s (trialCfg s r num none) num r
      t.stitch.staging = s.stitch.staging ++ [⟨r, num, chosen, s.stitch.nextIndex, setFields [] r.fields⟩] ∧
      t.stitch.nextIndex = s.stitch.nextIndex + 1 ∧ t.stitch.cfg = s.stitch.cfg ∧ t.stitch.pend = s.stitch.pend ∧
      (∀ k d, poolOf t k d = poolOf u k d) ∧
      answered Op.baste h { result := [num] ++ chosen.toList ++ [s.stitch.nextIndex] } s t ∧
      only [.stitch, .twin, .host, .ev] dt s t) ∧
  (∀ dt h r s, serves Op.baste h s → h.stitch ≠ stagingNumber s →
    goesTo (.baste dt h r) s fun t => answered Op.baste h { status := St.staleStitch } s t ∧ only [.host, .ev] dt s t) ∧
  (∀ dt h r s, serves Op.baste h s → h.stitch = stagingNumber s → 65536 ≤ s.stitch.staging.length →
    goesTo (.baste dt h r) s fun t => answered Op.baste h { status := St.stagingFull } s t ∧ only [.host, .ev] dt s t)

/-- A served DISCARD empties the staging set, starts the record indices again, and answers how many records it discarded. A
served STITCH that names the staging number, with at most one stitch pending, no change of a profile under way and no failing
record, appends a pending stitch of that number with the staged records and empties the set: its B1 is the first grid
boundary at least 40 us after the command when no stitch is pending, and 375 us after the last B1 otherwise, and its B2 is
125 us after its B1. The reply gives the time of day of B1, at once or, when the unit mirrors to an ARMED partner, once the
partner has acknowledged. A failing set is answered with its first failing record, and a third stitch with BUSY; the staging
set, the pending stitches and the configuration then stay as they were. (01_organisation.md, stitch numbers and staging (R32,
R33 to R38); 12_twin.md, configuration on the Seam (R316)) -/
def Obligations.StagedRecordsAreDiscardedOrStitched : Prop :=
  (∀ dt h s, serves Op.discard h s →
    goesTo (.discard dt h) s fun t =>
      t.stitch.staging = [] ∧ t.stitch.nextIndex = 0 ∧ t.stitch.cfg = s.stitch.cfg ∧ t.stitch.pend = s.stitch.pend ∧
      answered Op.discard h { result := [s.stitch.staging.length] } s t ∧ only [.stitch, .twin, .host, .ev] dt s t) ∧
  (∀ dt h y s, serves Op.stitch h s → h.stitch = stagingNumber s → s.stitch.pend.length < 2 →
    profileBusy s s.stitch.staging = false →
    firstCharge (refCharges s (stagedCfg s) s.stitch.staging ++ limitCharges s s.stitch.staging) = none →
    goesTo (.stitch dt h y) s fun t =>
      ∃ p : PendStitch, t.stitch.pend = s.stitch.pend ++ [p] ∧ p.number = h.stitch ∧ p.recs = s.stitch.staging ∧
        p.b1 = (match s.stitch.pend.getLast? with
          | some q => q.b1 + Time.us 375
          | none => boundaryFrom s (s.now + dt + Time.us 40)) ∧
        p.b2 = p.b1 + Time.us 125 ∧ p.opened = false ∧
        t.stitch.staging = [] ∧ t.stitch.nextIndex = 0 ∧ t.stitch.cfg = s.stitch.cfg ∧ t.stitch.current = s.stitch.current ∧
        (mirrors s = false ∨ y = true → answered Op.stitch h { result := [todOf (tick dt s) p.b1] } s t) ∧
        (mirrors s = true → y = false → waitsFor Op.stitch h (.stitchAck [todOf (tick dt s) p.b1]) (Time.ms 2) s t)) ∧
  (∀ dt h y s i st, serves Op.stitch h s → h.stitch = stagingNumber s → s.stitch.pend.length < 2 →
    profileBusy s s.stitch.staging = false →
    firstCharge (refCharges s (stagedCfg s) s.stitch.staging ++ limitCharges s s.stitch.staging) = some (i, st) →
    goesTo (.stitch dt h y) s fun t =>
      answered Op.stitch h { status := st, detail := i } s t ∧ t.stitch = s.stitch ∧ only [.ctr, .twin, .host, .ev] dt s t) ∧
  (∀ dt h y s, serves Op.stitch h s → h.stitch = stagingNumber s → 2 ≤ s.stitch.pend.length →
    goesTo (.stitch dt h y) s fun t =>
      answered Op.stitch h { status := St.busy } s t ∧ t.stitch = s.stitch ∧ only [.twin, .host, .ev] dt s t)

/-- A served QUERY that is neither of a row nor of a margin with a scan is answered at once by what its kind gives and changes no
part of the state but the ring. UNIT gives the serial number, the firmware version and the Galub and Seam version ranges;
TWIN starts with the role and the cause of its last change; a channel above 511 fails with HANDLE; a flow/MAC key with an
entry gives its bank, its index and its 16 bytes. A margin query with a scan of a lane with signal and lock waits up to 100
ms for the scan; of a lane without, it fails with LANE_DOWN. Of a classifier row that exists it leaves the tables as they are
but for that row's MULTI bit, which it clears. The order of the numbers in a result is the model's (log entry 7).
(14_host_commands.md, Opcodes (R370, Table 14.7); 13_serial_lanes.md, eye margins (R353)) -/
def Obligations.QueriesAnswerAndChangeNothing : Prop :=
  (∀ dt h key s, serves Op.query h s → (∀ l, key ≠ .laneMargin l true) → (∀ d e, key ≠ .row d e) →
    goesTo (.query dt h key) s fun t =>
      ∃ a : Answer, queryBody key s = .done a s ∧ answered Op.query h a s t ∧ only [.host, .ev] dt s t) ∧
  (∀ dt h s, serves Op.query h s →
    goesTo (.query dt h .unit) s fun t =>
      answered Op.query h { result := [Config.unitSerial.toNat, Config.firmwareVersion.toNat, 0x0100, 0x0102, 1, 3] } s t) ∧
  (∀ dt h s, serves Op.query h s →
    goesTo (.query dt h .twin) s fun t => ∃ rest : List Nat,
      answered Op.query h { result := [roleNum s.twin.role, s.twin.lastCause] ++ rest } s t) ∧
  (∀ dt h ch s, serves Op.query h s → 512 ≤ ch →
    goesTo (.query dt h (.channelState ch)) s fun t => answered Op.query h { status := St.handle } s t) ∧
  (∀ dt h d tenant vid mac s e, serves Op.query h s → fmtFind s d tenant vid mac = some e →
    goesTo (.query dt h (.fmtEntry d tenant vid mac)) s fun t =>
      answered Op.query h { result := [e.bank, e.index] ++ (fmtEntryBytes e).map (·.toNat) } s t) ∧
  (∀ dt h l s, serves Op.query h s → l < 68 → (laneOf s l).los = false → (laneOf s l).lol = false →
    goesTo (.query dt h (.laneMargin l true)) s fun t => waitsFor Op.query h (.scan l) (Time.ms 100) s t ∧
      (∃ x ∈ t.lane.scans, x.1 = l)) ∧
  (∀ dt h l s, serves Op.query h s → l < 68 → (laneOf s l).los = true ∨ (laneOf s l).lol = true →
    goesTo (.query dt h (.laneMargin l true)) s fun t => answered Op.query h { status := St.laneDown } s t) ∧
  (∀ dt h d e s l, serves Op.query h s → rowResult? s (65536 * dieNum d + e) = some l →
    goesTo (.query dt h (.row d e)) s fun t =>
      (∃ x y, s.tab.rows.find? (rowVersion s (65536 * dieNum d + e) true) = some x ∧
        t.tab.rows.find? (rowVersion s (65536 * dieNum d + e) true) = some y ∧ y = { x with multi := false }) ∧
      onlyKey (rowVersion s (65536 * dieNum d + e) true) s.tab.rows t.tab.rows ∧
      answered Op.query h { result := l } s t ∧ only [.tab, .host, .ev] dt s t)

/-- A served FMT_INSERT on one die of a key without an entry, with an allowed destination, a tenant below its quota and a bank
with room while no bank of the die is locked, adds exactly that entry as dynamic with HIT clear, in a bank with room at a
free index of the key's bucket, and answers the die, OK, the bank and the index. For a key with a dynamic entry in an
unlocked bank it rewrites that entry's destination only. FMT_DELETE of a dynamic entry in an unlocked bank removes that entry
only; of a key without an entry it fails with HANDLE; with the bank locked it waits at most 10 ms. A served MATCH_STEP with a
key of the width asked for is answered with at most four rows of three numbers and a cursor, and changes no part of the state
but the ring. The choice among the admissible places is free. (08_forwarding_tables.md, writing the table (R219 to R221,
R230, R232); 14_host_commands.md, Opcodes (FMT_INSERT, FMT_DELETE, MATCH_STEP)) -/
def Obligations.FlowMacEntriesByCommand : Prop :=
  (∀ dt h d tenant vid mac dtype dvalue s, serves Op.fmtInsert h s → tenant < 64 → vid < 4096 → mac < 2 ^ 48 →
    destStatus s tenant dtype dvalue = St.ok → fmtFind s d tenant vid mac = none →
    tableUse s d tenant < quotaOf s d tenant 1 → banksFor s d tenant (fmtKey tenant vid mac) ≠ [] →
    (∀ b, (lockOf s d b).owner = none) →
    goesTo (.fmtInsert dt h (2 ^ dieNum d) tenant vid mac dtype dvalue) s fun t => ∃ b i,
      b ∈ banksFor s d tenant (fmtKey tenant vid mac) ∧ i ∈ freeIndices s d b (fmtKey tenant vid mac) ∧
      fmtOf t d = { mac := mac, vid := vid, tenant := tenant, dtype := dtype, dvalue := dvalue, bank := b, index := i } :: fmtOf s d ∧
      fmtOf t (dieOf (1 - dieNum d)) = fmtOf s (dieOf (1 - dieNum d)) ∧
      answered Op.fmtInsert h { result := [dieNum d, St.ok, b, i] } s t ∧ only [.tab, .host, .ev] dt s t) ∧
  (∀ dt h d tenant vid mac dtype dvalue s e, serves Op.fmtInsert h s → tenant < 64 → vid < 4096 → mac < 2 ^ 48 →
    destStatus s tenant dtype dvalue = St.ok → fmtFind s d tenant vid mac = some e → e.isStatic = false →
    (lockOf s d e.bank).owner = none →
    goesTo (.fmtInsert dt h (2 ^ dieNum d) tenant vid mac dtype dvalue) s fun t =>
      fmtOf t d = (fmtOf s d).map (fun x => if x = e then { e with dtype := dtype, dvalue := dvalue } else x) ∧
      fmtOf t (dieOf (1 - dieNum d)) = fmtOf s (dieOf (1 - dieNum d)) ∧
      answered Op.fmtInsert h { result := [dieNum d, St.ok, e.bank, e.index] } s t ∧ only [.tab, .host, .ev] dt s t) ∧
  (∀ dt h d tenant vid mac s e, serves Op.fmtDelete h s → tenant < 64 → vid < 4096 → mac < 2 ^ 48 →
    fmtFind s d tenant vid mac = some e → e.isStatic = false → (lockOf s d e.bank).owner = none →
    goesTo (.fmtDelete dt h d tenant vid mac) s fun t =>
      fmtOf t d = (fmtOf s d).erase e ∧ fmtOf t (dieOf (1 - dieNum d)) = fmtOf s (dieOf (1 - dieNum d)) ∧
      answered Op.fmtDelete h {} s t ∧ only [.tab, .host, .ev] dt s t) ∧
  (∀ dt h d tenant vid mac s, serves Op.fmtDelete h s → tenant < 64 → vid < 4096 → mac < 2 ^ 48 →
    fmtFind s d tenant vid mac = none →
    goesTo (.fmtDelete dt h d tenant vid mac) s fun t =>
      answered Op.fmtDelete h { status := St.handle } s t ∧ only [.host, .ev] dt s t) ∧
  (∀ dt h d tenant vid mac s e, serves Op.fmtDelete h s → tenant < 64 → vid < 4096 → mac < 2 ^ 48 →
    fmtFind s d tenant vid mac = some e → e.isStatic = false → (lockOf s d e.bank).owner ≠ none →
    goesTo (.fmtDelete dt h d tenant vid mac) s fun t =>
      waitsFor Op.fmtDelete h (.fmtDelete d tenant vid mac) (Time.ms 10) s t ∧ only [.host] dt s t) ∧
  (∀ dt h d wide key cursor s, serves Op.matchStep h s → key < 2 ^ (if wide = true then 640 else 320) →
    goesTo (.matchStep dt h d wide key cursor) s fun t => ∃ l : List Nat, ∃ next : Nat,
      l.length ≤ 12 ∧ l.length % 3 = 0 ∧ answered Op.matchStep h { result := l ++ [next] } s t ∧ only [.host, .ev] dt s t)

/-- A served COUNTER_READ of block counters of one of the 12 groups is answered with the number of the last snapshot and the
counters of the range as that snapshot holds them, and without a clear of WRAP changes nothing but the ring. COUNTER_CLEAR of
a group sets every counter of the range to 0 and leaves every other counter, every statistic and the last snapshot as they
were; the reply gives the number of the first snapshot that holds only counts made from now on: the one after next while a
gather runs, else the next. USER_READ_GRANT opens the group's page for user code or closes it, and no other group's.
(15_events_counters.md, counters and the Rake (R390 to R396)) -/
def Obligations.CountersAreReadClearedAndOpened : Prop :=
  (∀ dt h g s, serves Op.counterRead h s → g.flowStats = false → g.group < 12 →
    goesTo (.counterRead dt h g false) s fun t =>
      answered Op.counterRead h { result := s.ctr.snapshot.number.toNat :: ctrList g s.ctr.snapshot.counters } s t ∧
      only [.host, .ev] dt s t) ∧
  (∀ dt h g s, serves Op.counterClear h s → g.flowStats = false → g.group < 12 →
    goesTo (.counterClear dt h g) s fun t =>
      (∀ k, (t.ctr.counters.filter fun p => p.1 == k) =
        if inCtrRange g k = true then [] else s.ctr.counters.filter fun p => p.1 == k) ∧
      t.ctr.stats = s.ctr.stats ∧ t.ctr.snapshot = s.ctr.snapshot ∧
      answered Op.counterClear h
        { result := [s.ctr.snapshot.number.toNat + if s.ctr.latched.isSome = true then 2 else 1] } s t ∧
      only [.ctr, .host, .ev] dt s t) ∧
  (∀ dt h group grant s, serves Op.userReadGrant h s → group < 12 →
    goesTo (.userReadGrant dt h group grant) s fun t =>
      (∀ g, g ∈ t.ctr.openGroups ↔ if g = group then grant = true else g ∈ s.ctr.openGroups) ∧
      t.ctr.counters = s.ctr.counters ∧ t.ctr.snapshot = s.ctr.snapshot ∧
      answered Op.userReadGrant h {} s t ∧ only [.ctr, .host, .ev] dt s t)

/-- An ABORT that is visible between a ring's indices, with room for its reply and with its ring's session, is carried out and
its place is noted so that the ring skips it: with no command of that sequence running on the ring it names it is answered
NOT_ACTIVE. A running lock wait of another ring that it names is ended with status ABORTED and nothing is left running there,
and the ABORT is answered OK with the commit points that the command had passed. A scan by Unpick at least 2 us after the
last one notes its time, and with nothing found changes nothing else. A command that has run for its maximum time while it
waits for a bank's lock is ended with BUSY, nothing is left running on its ring, and COMMAND_EXPIRED names the port, the
ring, the opcode and the sequence. (14_host_commands.md, ABORT and Unpick (R375 to R378); 14_host_commands.md, Packets
(R366)) -/
def Obligations.AbortsAndExpiriesEndCommands : Prop :=
  (∀ dt e s p r q, abortVisible s e = true → abortRoom s e = true → gateStatus Op.abort (abortHdr e) s = none →
    e.target = .command p r q → (∀ c, (ringOf s p r).running = some c → c.seq ≠ q) → mirrors s = false →
    goesTo (.abort dt e) s fun t =>
      (ringOf t e.port e.ring).replies = (ringOf s e.port e.ring).replies
        ++ [⟨Op.abort, St.notActive, e.seq, e.session, stagingNumber t, 0, []⟩] ∧
      e.idx ∈ (ringOf t e.port e.ring).abortsDone ∧
      onlyKey (ringKey e.port e.ring) s.host.rings t.host.rings ∧ only [.host, .ev] dt s t) ∧
  (∀ dt e s p r c d tenant vid mac, abortVisible s e = true → abortRoom s e = true →
    gateStatus Op.abort (abortHdr e) s = none → e.target = .command p r c.seq → (ringOf s p r).running = some c →
    c.wait = .fmtDelete d tenant vid mac → c.discard = false → linkOf s p = true → (e.port, e.ring) ≠ (p, r) → e.ring < 16 → r < 16 →
    mirrors s = false →
    goesTo (.abort dt e) s fun t =>
      (ringOf t p r).running = none ∧
      (ringOf t p r).replies = (ringOf s p r).replies
        ++ [⟨c.opcode, St.aborted, c.seq, c.session, stagingNumber t, 0, []⟩] ∧
      (ringOf t e.port e.ring).replies = (ringOf s e.port e.ring).replies
        ++ [⟨Op.abort, St.ok, e.seq, e.session, stagingNumber t, 0, []⟩] ∧ only [.host, .ev] dt s t) ∧
  (∀ dt s, s.host.lastScan + Time.us 2 ≤ s.now + dt →
    goesTo (.unpickScan dt []) s fun t => t.host = { s.host with lastScan := s.now + dt } ∧ only [.host] dt s t) ∧
  (∀ dt p r s c d tenant vid mac, (ringOf s p r).running = some c → c.wait = .fmtDelete d tenant vid mac →
    c.started + c.maxTime ≤ s.now + dt → c.discard = false → linkOf s p = true →
    goesTo (.commandExpired dt p r) s fun t =>
      (ringOf t p r).running = none ∧
      (ringOf t p r).replies = (ringOf s p r).replies ++ [⟨c.opcode, St.busy, c.seq, c.session, stagingNumber t, 0, []⟩] ∧
      raised Ev.commandExpired .east [.u8 (portNum p), .u8 r, .u16 c.opcode, .u32 c.seq.toNat] s t ∧
      onlyKey (ringKey p r) s.host.rings t.host.rings ∧ only [.host, .ev] dt s t)

/-- PORST_N low for 1 µs or more, a rail at its reset level and Tj at 125 °C put the unit in reset: it is not ready, holds no
token, TOKEN_OUT is inactive, YIELD_OUT is active, no LASER_EN is active, both host links are down and every command ring,
the stitched configuration, the channels, the queues, the tables, the services, the keys and the lanes are as State.reset has
them. At a power-on reset, and at a supply reset of a rail of the always-on domain, every time base is UNSET at 0; at a
thermal reset, and at a supply reset of another rail, it keeps its value, and LOCKED, ACQUIRING and JUMP_HELD become
HOLDOVER. A shorter pulse on PORST_N does nothing. The rail and minimum of a supply reset are kept. PORST_N rising after a
power-on reset, and the end of the other resets, start the unit at phase 0 with no failure code. In a unit in start-up that
has not failed: the end of one of the first three phases leads to the next and changes nothing else; the end of the fourth
leads to the block-start phase, in which, with no reference faulted, both core rails stand at the fused set point, both
storage keys are 32 bytes long, the time-stamp clock runs and the grid runs; the end of the fifth makes the unit ready from
now on, and DEVICE_READY is raised. A phase that fails leaves the unit not ready with code 4, 1, 2 or 3 for the boot ROM and
the three phases after it, INT_N0 active, TOKEN_OUT inactive and YIELD_OUT active. (17_power_clocks_reset.md, start-up and
reset (R413, R417, R419, R423); 19_register_map.md, reset (R458); 17_power_clocks_reset.md, start-up and reset (R415, R416);
12_twin.md, pairing (R311); 15_events_counters.md, event sources (R380)) -/
def Obligations.ResetsAndStartup : Prop :=
  (∀ dt width s, Time.us 1 ≤ width → goesTo (.porstNAssert dt width) s fun t =>
    inResetBy 0 dt s t ∧ ∀ b, b < 8 → (baseOf t b).st = .unset ∧ baseVal (baseOf t b) t.now = 0) ∧
  (∀ dt width s, width < Time.us 1 → goesTo (.porstNAssert dt width) s fun t => only [] dt s t) ∧
  (∀ dt rail mv s, s.pwr.inReset = false → goesTo (.supplyReset dt rail mv) s fun t =>
    inResetBy 1 dt s t ∧ t.pwr.resetRail = some (rail, mv) ∧
    ∀ b, b < 8 → if aonRail rail then (baseOf t b).st = .unset ∧ baseVal (baseOf t b) t.now = 0 else baseKept b dt s t) ∧
  (∀ dt s, s.pwr.inReset = false → goesTo (.thermalReset dt) s fun t =>
    inResetBy 2 dt s t ∧ ∀ b, b < 8 → baseKept b dt s t) ∧
  (∀ dt side tok yld s, s.pwr.inReset = true → s.pwr.resetBy = 0 → goesTo (.porstNRelease dt side tok yld) s fun t =>
    t.pwr = { s.pwr with inReset := false, stage := 0, fail := 0, ready := false, releasedAt := t.now, side := side } ∧
    t.twin = { s.twin with tokenIn := tok, yieldIn := yld, lasers := [] } ∧ only [.pwr, .twin] dt s t) ∧
  (∀ dt s, s.pwr.inReset = true → s.pwr.resetBy = 1 → goesTo (.supplyResetEnd dt) s fun t =>
    t.pwr = { s.pwr with inReset := false, stage := 0, fail := 0, ready := false, releasedAt := t.now } ∧ only [.pwr] dt s t) ∧
  (∀ dt s, s.pwr.inReset = true → s.pwr.resetBy = 2 → goesTo (.thermalResetEnd dt) s fun t =>
    t.pwr = { s.pwr with inReset := false, stage := 0, fail := 0, ready := false, releasedAt := t.now } ∧ only [.pwr] dt s t) ∧
  (∀ dt s, s.pwr.inReset = false → s.pwr.ready = false → s.pwr.fail = 0 → s.pwr.stage < 3 →
    goesTo (.startupPhaseDone dt false) s fun t =>
      t.pwr = { s.pwr with stage := s.pwr.stage + 1 } ∧ only [.pwr] dt s t) ∧
  (∀ dt s, s.pwr.inReset = false → s.pwr.ready = false → s.pwr.fail = 0 → s.pwr.stage = 3 →
    goesTo (.startupPhaseDone dt false) s fun t =>
      t.pwr.stage = 4 ∧ t.pwr.ready = false ∧
      ((∀ r, r < 8 → refFaulted s r = false) →
        t.pwr.setPointE = fusedMv ∧ t.pwr.setPointW = fusedMv ∧ t.ciph.storageE.length = 32 ∧ t.ciph.storageW.length = 32 ∧
        t.time = { s.time with stampClock := true } ∧ t.pon.gridOn = true ∧
        only [.pwr, .pon, .ciph, .svc, .time, .lane, .twin] dt s t)) ∧
  (∀ dt s, s.pwr.inReset = false → s.pwr.ready = false → s.pwr.fail = 0 → s.pwr.stage = 4 →
    goesTo (.startupPhaseDone dt false) s fun t =>
      t.pwr.stage = 5 ∧ t.pwr.ready = true ∧ t.pwr.readyAt = t.now ∧ raisedAmong Ev.deviceReady .east [] s t ∧
      t.twin.held = s.twin.held ∧ only [.pwr, .ev, .twin] dt s t) ∧
  (∀ dt s, s.pwr.inReset = false → s.pwr.ready = false → s.pwr.fail = 0 → s.pwr.stage < 4 →
    goesTo (.startupPhaseDone dt true) s fun t =>
      t.pwr = { s.pwr with fail := [4, 1, 2, 3].getD s.pwr.stage 0 } ∧ pinActive t 0 = true ∧
      t.twin = { s.twin with tokenOut := false, yieldOut := true } ∧
      t.ev = { s.ev with forceInt0 := true } ∧ only [.pwr, .ev, .twin] dt s t)

/-- A dip that begins on a rail without one, of a unit that is not in reset, is noted with its level, joins the dips of the last
second, suspends flash and fuse writes and abandons an alteration pass; a unit that is ready and counts three yields its
token. A dip that ends raises SUPPLY_DIP with the rail, the minimum, the duration, the dips of the last second and no reset
flag; one of more than 1 ms starts a margin check of the rail, a shorter one does not unless a check was pending. A margin
check that has run for 2 ms raises SUPPLY_MARGIN with the rail and the margin, and flags a rail with less than 15 mV. A rail
that rises is present, and the rail VDDIO_33 rises with every LASER_EN low. (17_power_clocks_reset.md, supply supervision
(R418, R420, R421, R422); 18_package_electrical.md, pin state (R433); 12_twin.md, Table 12.5 (R322)) -/
def Obligations.SupplyDipsAndMargins : Prop :=
  (∀ dt rail mv s, s.pwr.inReset = false → (railOf s rail).dipSince = none →
    goesTo (.dipBegin dt rail mv) s fun t =>
      (railOf t rail).dipSince = some t.now ∧ (railOf t rail).minMv = mv ∧ t.pwr.writesSuspended = true ∧ t.pwr.passSince = none ∧
      t.pwr.dips = (s.pwr.dips.filter fun d => decide (t.now < d + Time.sec 1)) ++ [t.now] ∧
      onlyKey rail s.pwr.rails t.pwr.rails ∧
      (if s.pwr.ready = true ∧ 3 ≤ t.pwr.dips.length then
        t.twin.held = false ∧ t.twin.role = .disarmed ∧ raisedAmong Ev.twinYield .east [.u8 Cause.supplyDips] s t ∧
          only [.pwr, .ev, .ctr, .pon, .twin] dt s t
      else only [.pwr] dt s t)) ∧
  (∀ dt rail mv dur s, (railOf s rail).dipSince ≠ none →
    goesTo (.supplyDip dt rail mv dur) s fun t =>
      (railOf t rail).dipSince = none ∧ (railOf t rail).minMv = mv ∧
      ((railOf t rail).marginSince = if Time.ms 1 < dur ∨ (railOf s rail).marginPending = true then some t.now else none) ∧
      onlyKey rail s.pwr.rails t.pwr.rails ∧
      raised Ev.supplyDip .east [.u8 rail, .u16 mv, .u64 (dur / 1000),
        .u8 (s.pwr.dips.filter fun d => decide (t.now < d + Time.sec 1)).length, .u8 0] s t ∧ only [.pwr, .ev] dt s t) ∧
  (∀ dt rail mv since s, (railOf s rail).marginSince = some since → since + Time.ms 2 ≤ s.now + dt →
    goesTo (.supplyMargin dt rail mv) s fun t =>
      railOf t rail = { railOf s rail with marginSince := none, marginFlag := (railOf s rail).marginFlag || decide (mv < 15) } ∧
      onlyKey rail s.pwr.rails t.pwr.rails ∧ raised Ev.supplyMargin .east [.u8 rail, .u16 mv] s t ∧
      only [.pwr, .ev] dt s t) ∧
  (∀ dt rail s, goesTo (.supplyRailRise dt rail) s fun t =>
      railOf t rail = { railOf s rail with present := true } ∧ onlyKey rail s.pwr.rails t.pwr.rails ∧
      t.twin = { s.twin with lasers := if rail = 17 then [] else s.twin.lasers } ∧ only [.pwr, .twin] dt s t)

/-- In a unit that is ready, each of the four fatal findings (the bridge and a deep pan when they were not down before) leads to
a unit that does not hold the token, in the role DISARMED, with TOKEN_OUT inactive, YIELD_OUT active and TWIN_YIELD raised
with the finding's cause; the bridge counts it and is down, and the deep pan raises DEEP_PAN_FAULT and is marked faulted, and
the uncorrectable error raises ECC_UNCORRECTABLE with the die and place. At the holder every LASER_EN is low and no channel
still sends: ACTIVE, QUIET and STARTING become SHADOW, DRAINING becomes DARK and other states stay. A sensor at 110 °C or
more raises THERMAL with its die, its number and the temperature; a unit that was hot and has cooled raises the clear, once.
A JTAG port that leaves its reset state raises DEBUG_ACCESS, also before the unit is ready. Nothing else changes.
(12_twin.md, yield (R309, R322) and Table 12.5; 02_channels.md, channel states (R77); 17_power_clocks_reset.md, temperature
(R423); 15_events_counters.md, event sources (R380)) -/
def Obligations.FatalFindingsAndThermalWarnings : Prop :=
  (∃ lostToken : ChState → ChState,
    lostToken .active = .shadow ∧ lostToken .quiet = .shadow ∧ lostToken .starting = .shadow ∧ lostToken .draining = .dark ∧
    lostToken .dark = .dark ∧ lostToken .shadow = .shadow ∧ lostToken .faulted = .faulted ∧
    ∀ dt s, s.pwr.ready = true →
      let yields := fun (cause : Nat) (t : State) =>
        t.twin.held = false ∧ t.twin.role = .disarmed ∧ t.twin.tokenOut = false ∧ t.twin.yieldOut = true ∧
        raisedAmong Ev.twinYield .east [.u8 cause] s t ∧
        (s.twin.held = true → t.twin.lasers = [] ∧ ∀ c, (chOf t c).st = lostToken (chOf s c).st)
      (∀ die what, goesTo (.watchdogExpiry dt die what) s fun t =>
        yields Cause.watchdog t ∧ only [.ev, .ctr, .pon, .twin] dt s t) ∧
      (∀ die place, goesTo (.eccUncorrectable dt die place) s fun t =>
        yields Cause.eccError t ∧ raisedAmong Ev.eccUncorrectable die [.u8 (dieNum die), .u8 (eccPlaceNum place)] s t ∧
        only [.ev, .ctr, .pon, .twin] dt s t) ∧
      (s.pwr.bridgeUp = true → goesTo (.bridgeDown dt) s fun t =>
        yields Cause.bridgeDown t ∧ t.pwr = { s.pwr with bridgeUp := false } ∧
        only [.ev, .ctr, .pon, .twin, .pwr] dt s t) ∧
      (∀ die, deepFaulted s die = false → goesTo (.deepPanFault dt die) s fun t =>
        yields Cause.deepPan t ∧ raisedAmong Ev.deepPanFault die [.u8 (dieNum die)] s t ∧ deepFaulted t die = true ∧
        only [.ev, .ctr, .pon, .twin, .q] dt s t)) ∧
  (∀ dt die sensor c s, 110 ≤ c → goesTo (.thermalWarning dt die sensor c) s fun t =>
    t.pwr = { s.pwr with thermalHigh := true } ∧
    raised Ev.thermal die [.u8 (dieNum die), .u8 sensor, .u8 c] s t ∧ heldOnly s t ∧ only [.pwr, .ev] dt s t) ∧
  (∀ dt s, s.pwr.thermalHigh = true → goesTo (.thermalClear dt) s fun t =>
    t.pwr = { s.pwr with thermalHigh := false } ∧ cleared Ev.thermal .east [] s t ∧ heldOnly s t ∧ only [.pwr, .ev] dt s t) ∧
  (∀ dt s, s.pwr.thermalHigh = false → goesTo (.thermalClear dt) s fun t => only [] dt s t) ∧
  (∀ dt s, goesTo (.debugAccess dt) s fun t => raised Ev.debugAccess .east [] s t ∧ heldOnly s t ∧ only [.ev] dt s t)

/-- A reading of one reference that faults it raises REFCLK: past the block start a PON reference takes all 128 channels of its
quadrant that are not DARK to FAULTED and unlocks their burst lanes; the Ethernet reference stops the time-stamp clock and
takes every LOCKED time base to HOLDOVER. A reading that ends the fault raises the clear. The grid source is then the lowest
quadrant whose reference is healthy. An alteration pass that is due starts in a ready unit that has none running and nothing
that blocks it; its end counts the pass, sets both core rails by their monitors and flags, and raises ALTERATION_DONE with
them. A cipher-lane pool that was a spare for 1 s goes to NAP; one that has been in NAP for 60 s goes to SLEEP while a second
pool of its die rests in NAP; a pool, a channel and a bobbin whose exit is complete is awake. (13_serial_lanes.md, references
(R338, R339) and Table 13.3; 17_power_clocks_reset.md, power ladder (R405, R410) and ageing (R424, R425, R426)) -/
def Obligations.ReferencesPassesAndPools : Prop :=
  (∀ dt (r : RefReading) s, readsFaulted r = true → refFaulted s r.ref = false →
    goesTo (.refclkCheck dt [r]) s fun t =>
      refFaulted t r.ref = true ∧ raisedAmong Ev.refclk .east [.u8 r.ref] s t ∧ t.pwr.gridSource = healthyQuadrant t ∧
      (r.ref < 4 → 4 ≤ s.pwr.stage → ∀ i, i < 128 → (chOf t (128 * r.ref + i)).lol = true ∧
        ((chOf t (128 * r.ref + i)).st = .faulted ∨ (chOf t (128 * r.ref + i)).st = .dark)) ∧
      (r.ref = 4 → t.time.stampClock = false ∧
        ∀ b, b < 8 → (baseOf t b).st = if (baseOf s b).st = .locked then .holdover else (baseOf s b).st)) ∧
  (∀ dt (r : RefReading) s, readsFaulted r = false → refFaulted s r.ref = true →
    goesTo (.refclkCheck dt [r]) s fun t =>
      refFaulted t r.ref = false ∧ cleared Ev.refclk .east [.u8 r.ref] s t ∧ t.pwr.gridSource = healthyQuadrant t ∧
      t.time = { s.time with stampClock := if r.ref = 4 then decide (4 ≤ s.pwr.stage) else s.time.stampClock } ∧
      only [.pwr, .pon, .ev, .time] dt s t) ∧
  (∀ dt s, s.pwr.ready = true → s.pwr.passSince = none → s.pwr.passWanted = true → passBlocked s = false →
    goesTo (.alterationPassStart dt) s fun t =>
      t.pwr = { s.pwr with passSince := some t.now, lastPass := t.now, passWanted := false } ∧ only [.pwr] dt s t) ∧
  (∀ dt e w slope s, s.pwr.passSince ≠ none →
    goesTo (.alterationDone dt e w slope) s fun t =>
      t.pwr.passSince = none ∧ t.pwr.passes = s.pwr.passes + 1 ∧
      t.pwr.setPointE = nextSetPoint s.pwr.setPointE e (railOf s 0).marginFlag ∧
      t.pwr.setPointW = nextSetPoint s.pwr.setPointW w (railOf s 1).marginFlag ∧
      (railOf t 0).marginFlag = false ∧ (railOf t 1).marginFlag = false ∧
      raisedAmong Ev.alterationDone .east [.u32 t.pwr.passes, .u16 t.pwr.setPointE, .u16 t.pwr.setPointW,
        .u16 (min (yearsLeft t.pwr.setPointE slope) (yearsLeft t.pwr.setPointW slope))] s t ∧
      only [.pwr, .pon, .lane, .ev] dt s t) ∧
  (∀ dt pool s since, (cpoolOf s pool).spareSince = some since → since + Time.sec 1 ≤ s.now + dt → spareable s pool = true →
    poolEmptiable s pool = true → goesTo (.cipherPoolNap dt pool) s fun t =>
      (cpoolOf t pool).st = .nap ∧ (cpoolOf t pool).napSince = t.now ∧ only [.ciph, .stitch] dt s t) ∧
  (∀ dt pool s, (cpoolOf s pool).st = .nap → (cpoolOf s pool).waking = none → (cpoolOf s pool).napSince + Time.sec 60 ≤ s.now + dt →
    2 ≤ (restingIn s (poolDie pool) .nap).length →
    goesTo (.cipherPoolSleep dt pool) s fun t =>
      cpoolOf t pool = { cpoolOf s pool with st := .sleep } ∧ onlyKey pool s.ciph.pools t.ciph.pools ∧ only [.ciph] dt s t) ∧
  (∀ dt pool s to_ due, (cpoolOf s pool).waking = some (to_, due) → due ≤ s.now + dt →
    goesTo (.powerExitDone dt 2 pool) s fun t =>
      (cpoolOf t pool).st = to_ ∧ (cpoolOf t pool).waking = none ∧ only [.ciph] dt s t) ∧
  (∀ dt c s, (chOf s c).readyAt ≤ s.now + dt → goesTo (.powerExitDone dt 0 c) s fun t =>
      chOf t c = { chOf s c with readyAt := 0 } ∧ onlyKey c s.pon.channels t.pon.channels ∧ only [.pon] dt s t) ∧
  (∀ dt b s due, (bobOf s b).wakeDue = some due → due ≤ s.now + dt → goesTo (.powerExitDone dt 1 b) s fun t =>
      bobOf t b = { bobOf s b with wakeDue := none } ∧ onlyKey b s.pon.bobbins t.pon.bobbins ∧ only [.pon] dt s t)

/-- When the held records are delivered and a port has one event ring that takes the group of the only record held: with room and
no loss to report, the record is appended under the ring's next SEQUENCE and the producer index advances; with the ring full,
the record is not written, takes its SEQUENCE, and the lost-record counter and the losses to be reported grow by one, the
first loss keeping the SEQUENCE of the first. For a port without an event ring each die's records, in the order of delivery,
are kept, the newest 1,024 of them. When the host returns an entry of a full ring with losses, EVENT_RING_OVERFLOW is written
first, with the number lost and the SEQUENCE of the first, under a SEQUENCE of its own. A vector whose holdoff has ended
fires once more when its index advanced during it, with a new holdoff of its port, and stays silent otherwise. At a grid
boundary whose superframe count is a multiple of 8 and with no gather in progress, all counters are latched under the next
snapshot number; a gather still in progress from an earlier boundary makes the next one raise RAKE_LATE and latch nothing. A
complete gather replaces the snapshot. (15_events_counters.md, Delivery (R383, R385, R386); 15_events_counters.md, vectors
(R388); 15_events_counters.md, the Rake (R393, R394)) -/
def Obligations.EventDeliveryVectorsAndTheRake : Prop :=
  (∀ dt s r n se e, s.ev.held = [r] → ringsWith s .a .event = [n] → ringsWith s .b .event = [] →
    (ringOf s .a n).session = some se → se.eventRing = some e → maskTakes e.mask r.num = true → e.lostPending = 0 → evRoom e = true →
    goesTo (.eventDelivery dt []) s fun t =>
      (ringOf t .a n).session = some { se with eventRing := some { e with
        recs := e.recs ++ [(e.nextSeq, r)], nextSeq := e.nextSeq + 1, prod := e.prod + 1 } } ∧
      t.ev.held = [] ∧ onlyKey (ringKey .a n) s.host.rings t.host.rings ∧ only [.ev, .host] dt s t) ∧
  (∀ dt s r n se e, s.ev.held = [r] → ringsWith s .a .event = [n] → ringsWith s .b .event = [] →
    (ringOf s .a n).session = some se → se.eventRing = some e → maskTakes e.mask r.num = true → evRoom e = false →
    goesTo (.eventDelivery dt []) s fun t =>
      (ringOf t .a n).session = some { se with eventRing := some { e with
        nextSeq := e.nextSeq + 1, lost := e.lost + 1, lostPending := e.lostPending + 1,
        firstLost := if e.lostPending = 0 then e.nextSeq else e.firstLost } } ∧
      t.ev.held = [] ∧ onlyKey (ringKey .a n) s.host.rings t.host.rings ∧ only [.ev, .host] dt s t) ∧
  (∀ dt s p d, ringsWith s .a .event = [] → ringsWith s .b .event = [] → (s.ev.kept.getD (keptKey p d) []).length ≤ 1024 →
    goesTo (.eventDelivery dt []) s fun t =>
      t.ev.kept.getD (keptKey p d) []
        = lastN 1024 (s.ev.kept.getD (keptKey p d) [] ++ (sortEv s.ev.held).filter fun r => r.die == d) ∧
      t.ev.held = [] ∧ only [.ev] dt s t) ∧
  (∀ dt s p n k se e, (ringOf s p n).session = some se → se.eventRing = some e → e.lostPending ≠ 0 → evRoom e = false →
    e.cons < e.prod → 1 ≤ k →
    goesTo (.eventRingOverflow dt p n k) s fun t => ∃ e' rec,
      (ringOf t p n).session = some { se with eventRing := some e' } ∧
      e'.recs.getLast? = some (e.nextSeq, rec) ∧ rec.num = Ev.eventRingOverflow ∧ rec.clear = false ∧
      rec.args = [.u32 e.lostPending, .u32 e.firstLost] ∧ e'.nextSeq = e.nextSeq + 1 ∧ e'.lostPending = 0 ∧
      e'.cons = e.cons + min k (e.prod - e.cons) ∧
      onlyKey (ringKey p n) s.host.rings t.host.rings ∧ only [.ev, .host] dt s t) ∧
  (∀ dt p v s, (s.ev.vectors.getD (vecKey p v) {}).holdEnd ≤ s.now + dt →
    goesTo (.vectorHoldoffEnd dt p v) s fun t =>
      (if (s.ev.vectors.getD (vecKey p v) {}).advanced = true then
        t.ev.vectors.getD (vecKey p v) {}
            = ⟨(s.ev.vectors.getD (vecKey p v) {}).fired + 1, t.now + Time.us (holdoffUs s p), false⟩
          ∧ onlyKey (vecKey p v) s.ev.vectors t.ev.vectors ∧ t.out = [.vector p v]
      else t.ev = s.ev ∧ t.out = []) ∧ only [.ev] dt s t) ∧
  (∀ dt s, s.pon.gridOn = true → s.pon.sf.toNat % 8 = 0 → s.ctr.latched = none → s.ctr.snapshot.number = 0 ∨ s.ctr.snapshot.sf ≠ s.pon.sf →
    goesTo (.rakeGather dt) s fun t => ∃ l,
      t.ctr = { s.ctr with latched := some l } ∧ l.number = s.ctr.snapshot.number + 1 ∧ l.sf = s.pon.sf ∧
      l.counters = s.ctr.counters ∧ l.time = baseNs t 0 ∧ only [.ctr] dt s t) ∧
  (∀ dt s l, s.pon.gridOn = true → s.pon.sf.toNat % 8 = 0 → s.ctr.latched = some l → l.sf ≠ s.pon.sf →
    goesTo (.rakeGather dt) s fun t => raised Ev.rakeLate .east [] s t ∧ only [.ev] dt s t) ∧
  (∀ dt s l, s.ctr.latched = some l →
    goesTo (.rakeGatherDone dt) s fun t => t.ctr = { s.ctr with latched := none, snapshot := l } ∧ only [.ctr] dt s t)

/-- A served LANE_TEST_START of a known pattern and injection on an uplink or PON lane whose sub-port is disabled or whose
channel is DARK puts the lane under that test; on another it is answered STATE. A served SEAM_TEST_START does so on a Seam
lane of a unit that is SOLO or DISARMED, and is answered STATE in any other role. A served stop of a running test ends it and
returns three counts of 48 bits; of none, STATE. A served LANE_INJECT with 0, or with 4 to 12 on a sub-port that is up, sets
the sub-port's injection. No other lane and no other sub-port changes. (13_serial_lanes.md, Pattern generators and checkers
(R350 to R352); 14_host_commands.md, Opcodes (LANE_TEST, LANE_INJECT, SEAM_TEST)) -/
def Obligations.PatternTestsStartAndStopByCommand : Prop :=
  (∀ dt h lane pat inj s, serves Op.laneTestStart h s → testLane lane = true → pat < patterns lane → injectOk inj = true →
    goesTo (.laneTestStart dt h lane pat inj) s fun t =>
      if testAllowed s lane = true then
        laneOf t lane = { laneOf s lane with test := some ⟨pat, inj⟩ } ∧ onlyKey lane s.lane.lanes t.lane.lanes ∧
        answered Op.laneTestStart h {} s t ∧ only [.lane, .host, .ev] dt s t
      else answered Op.laneTestStart h { status := St.state } s t ∧ only [.host, .ev] dt s t) ∧
  (∀ dt h lane pat inj s, serves Op.seamTestStart h s → lane < 4 → pat < patterns (64 + lane) → injectOk inj = true →
    goesTo (.seamTestStart dt h lane pat inj) s fun t =>
      if s.twin.role = .solo ∨ s.twin.role = .disarmed then
        laneOf t (64 + lane) = { laneOf s (64 + lane) with test := some ⟨pat, inj⟩ } ∧
        onlyKey (64 + lane) s.lane.lanes t.lane.lanes ∧ (seamLane? t 0 = none → t.twin.seamUp = false) ∧
        answered Op.seamTestStart h {} s t ∧ only [.lane, .host, .ev, .twin] dt s t
      else answered Op.seamTestStart h { status := St.state } s t ∧ only [.host, .ev] dt s t) ∧
  (∀ dt h lane s, serves Op.laneTestStop h s → testLane lane = true →
    goesTo (.laneTestStop dt h lane) s fun t =>
      if (laneOf s lane).test = none then answered Op.laneTestStop h { status := St.state } s t ∧ only [.host, .ev] dt s t
      else laneOf t lane = { laneOf s lane with test := none } ∧ onlyKey lane s.lane.lanes t.lane.lanes ∧
        (∃ bits errors symbols, bits < 2 ^ 48 ∧ errors < 2 ^ 48 ∧ symbols < 2 ^ 48 ∧
          answered Op.laneTestStop h { result := [bits, errors, symbols] } s t) ∧ only [.lane, .host, .ev] dt s t) ∧
  (∀ dt h lane s, serves Op.seamTestStop h s → lane < 4 → (laneOf s (64 + lane)).test ≠ none →
    goesTo (.seamTestStop dt h lane) s fun t =>
      laneOf t (64 + lane) = { laneOf s (64 + lane) with test := none } ∧ onlyKey (64 + lane) s.lane.lanes t.lane.lanes ∧
      (∃ bits errors symbols, bits < 2 ^ 48 ∧ errors < 2 ^ 48 ∧ symbols < 2 ^ 48 ∧
        answered Op.seamTestStop h { result := [bits, errors, symbols] } s t) ∧ only [.lane, .host, .ev] dt s t) ∧
  (∀ dt h p n s, serves Op.laneInject h s → (cfgOf s).has Kind.subport p = true → n = 0 ∨ (4 ≤ n ∧ n ≤ 12) →
    goesTo (.laneInject dt h p n) s fun t =>
      if n = 0 ∨ (subportOf s p).up = true then
        subportOf t p = { subportOf s p with injectN := n } ∧ onlyKey p s.lane.subports t.lane.subports ∧
        answered Op.laneInject h {} s t ∧ only [.lane, .host, .ev] dt s t
      else answered Op.laneInject h { status := St.state } s t ∧ only [.host, .ev] dt s t)

/-- A detector that asserts on a lane is noted and raised with the lane; the sub-port of an uplink lane is down with remote fault
due, the Seam is down when its last lane is gone, and every recovered-clock output that selects the lane is squelched. A
detector that clears (LOL only while the lane's reference is healthy) is noted and its clear is raised; with the other one
clear too, the lane works from its snapshot again. A sub-port that is enabled and down comes up when all its lanes carry,
with the clear of PORT_LINK_DOWN; one whose PCS loses alignment goes down, keeping whether a local fault is present.
(13_serial_lanes.md, sub-ports (R343); 13_serial_lanes.md, Loss of signal (R313, R348); 11_time.md, recovered clock (R290)) -/
def Obligations.LaneDetectorsTakeThePortWithThem : Prop :=
  (∀ dt lane s, (laneOf s lane).los = false →
    goesTo (.laneLos dt lane) s fun t =>
      laneOf t lane = { laneOf s lane with los := true } ∧ raisedAmong Ev.laneLos (dieOfSerial lane) [.u8 lane] s t ∧
      (∀ p, isSeamLane lane = false → laneSubport? s lane = some p → (subportOf t p).up = false ∧ (subportOf t p).aligned = false) ∧
      (isSeamLane lane = true → seamLane? t 0 = none → t.twin.seamUp = false) ∧
      (∀ i, i ∈ rclkOf s lane → t.time.squelched.getD i false = true) ∧
      onlyKey lane s.lane.lanes t.lane.lanes ∧ only [.lane, .ev, .twin, .time, .host] dt s t) ∧
  (∀ dt lane s, (laneOf s lane).lol = false →
    goesTo (.laneLol dt lane) s fun t =>
      laneOf t lane = { laneOf s lane with lol := true, lolSince := t.now } ∧
      raisedAmong Ev.laneLol (dieOfSerial lane) [.u8 lane] s t ∧
      (∀ p, isSeamLane lane = false → laneSubport? s lane = some p → (subportOf t p).up = false ∧ (subportOf t p).aligned = false) ∧
      (isSeamLane lane = true → seamLane? t 0 = none → t.twin.seamUp = false) ∧
      (∀ i, i ∈ rclkOf s lane → t.time.squelched.getD i false = true) ∧
      onlyKey lane s.lane.lanes t.lane.lanes ∧ only [.lane, .ev, .twin, .time, .host] dt s t) ∧
  (∀ dt lane s, (laneOf s lane).los = true →
    goesTo (.laneLosClear dt lane) s fun t =>
      (laneOf t lane).los = false ∧ (laneOf t lane).losCleared = true ∧
      ((laneOf t lane).work = if (laneOf s lane).lol = true then (laneOf s lane).work else (laneOf s lane).snap) ∧
      cleared Ev.laneLos (dieOfSerial lane) [.u8 lane] s t ∧
      onlyKey lane s.lane.lanes t.lane.lanes ∧ only [.lane, .ev, .time] dt s t) ∧
  (∀ dt lane s, (laneOf s lane).lol = true → laneRefFault s lane = false →
    goesTo (.laneLolClear dt lane) s fun t =>
      (laneOf t lane).lol = false ∧
      ((laneOf t lane).work = if (laneOf s lane).los = true then (laneOf s lane).work else (laneOf s lane).snap) ∧
      cleared Ev.laneLol (dieOfSerial lane) [.u8 lane] s t ∧
      onlyKey lane s.lane.lanes t.lane.lanes ∧ only [.lane, .ev, .time] dt s t) ∧
  (∀ dt p s, subportOn s p = true → (subportOf s p).up = false →
    (∀ l, l ∈ subportLanes (cfgOf s) p → laneCarries (tick dt s) l = true) →
    goesTo (.portLinkUp dt p) s fun t =>
      subportOf t p = { subportOf s p with up := true, aligned := true, localFault := false } ∧
      cleared Ev.portLink (dieOfPort p) [.u16 p] s t ∧
      onlyKey p s.lane.subports t.lane.subports ∧ only [.lane, .ev] dt s t) ∧
  (∀ dt p lf s, (subportOf s p).up = true →
    goesTo (.pcsAlignmentLoss dt p lf) s fun t =>
      subportOf t p = { subportOf s p with up := false, aligned := false, localFault := lf } ∧
      raised Ev.portLink (dieOfPort p) [.u16 p] s t ∧ t.out = [.remoteFault p] ∧
      onlyKey p s.lane.subports t.lane.subports ∧ only [.lane, .ev] dt s t)

/-- A Seam lane that trains ignores a frame whose CRC fails. A new request for a preset sets it and is answered as applied; a
step of a tap that keeps every range and c(0) is applied and answered "updated", one that does not is answered "at limit" and
changes nothing, and the reserved action is "not supported"; while the same request stands the same answer stands, and hold
is answered "not updated". A training lane with neither LOS nor LOL, and on the Seam with three ready frames seen, comes up
with its data 64 frames later and a fresh snapshot. A lane that has trained for 500 ms raises LANE_TRAIN_FAIL and stays down.
A lane that is due trains again from preset 1 and its starting point. (13_serial_lanes.md, Lane training (R345 to R347) and
Tables 13.6, 13.7) -/
def Obligations.LaneTrainingAnswersRequests : Prop :=
  (∀ dt lane c st crc s, isSeamLane lane = true → (laneOf s lane).training = true →
    goesTo (.trainingFrame dt lane c st crc) s fun t =>
      only [.lane] dt s t ∧ onlyKey lane s.lane.lanes t.lane.lanes ∧
      if crc ≠ trainCrc c st then t.lane = s.lane ∧ t.out = []
      else
        let x := laneOf s lane
        let y := laneOf t lane
        y.readySeen = (if tcReady c = true then x.readySeen + 1 else 0) ∧
        t.out = [.trainStatus lane (y.answer.getD 0)] ∧
        if tcAsks c = false then y.answer = none ∧ y.taps = x.taps ∧ y.preset = x.preset
        else if x.answer ≠ none then y.answer = x.answer ∧ y.taps = x.taps ∧ y.preset = x.preset
        else if tcPreset c ≠ 0 then y.preset = tcPreset c ∧ y.taps = presetTaps (tcPreset c) ∧ y.answer = some (trainStatus 0 1 true)
        else
          let step := setAt x.taps (tcTap c - 1) (x.taps.getD (tcTap c - 1) 0 + if tcAction c = 1 then 1 else -1)
          y.preset = x.preset ∧
          if tcAction c = 3 then y.taps = x.taps ∧ y.answer = some (trainStatus (tcTap c) 3 false)
          else if tapsOk step = true then y.taps = step ∧ y.answer = some (trainStatus (tcTap c) 1 false)
          else y.taps = x.taps ∧ y.answer = some (trainStatus (tcTap c) 2 false)) ∧
  (∀ dt lane s, (laneOf s lane).training = true → (laneOf s lane).los = false → (laneOf s lane).lol = false →
    laneRefFault s lane = false → isSeamLane lane = false ∨ 3 ≤ (laneOf s lane).readySeen →
    goesTo (.laneTrainingDone dt lane) s fun t =>
      (laneOf t lane).training = false ∧ (laneOf t lane).up = true ∧ (laneOf t lane).dataAt = t.now + trainTail ∧
      (laneOf t lane).snap = (laneOf t lane).work ∧ (laneOf t lane).snapAt = t.now ∧
      onlyKey lane s.lane.lanes t.lane.lanes ∧ only [.lane] dt s t) ∧
  (∀ dt lane s, (laneOf s lane).training = true → (laneOf s lane).trainSince + Time.ms 500 ≤ s.now + dt →
    goesTo (.laneTrainFail dt lane) s fun t =>
      laneOf t lane = { laneOf s lane with training := false, failedAt := some t.now } ∧
      raised Ev.laneTrainFail (dieOfSerial lane) [.u8 lane] s t ∧
      onlyKey lane s.lane.lanes t.lane.lanes ∧ only [.lane, .ev] dt s t) ∧
  (∀ dt lane s, trains s lane = true → (laneOf s lane).training = false → retrainDue (tick dt s) (laneOf s lane) = true →
    goesTo (.laneRetrain dt lane) s fun t =>
      (laneOf t lane).training = true ∧ (laneOf t lane).trainSince = t.now ∧ (laneOf t lane).up = false ∧
      (laneOf t lane).preset = 1 ∧ (laneOf t lane).taps = [0, 0, 0, 0] ∧ (laneOf t lane).work = (laneOf s lane).start ∧
      onlyKey lane s.lane.lanes t.lane.lanes ∧ only [.lane, .ev, .twin] dt s t)

/-- On a lane that carries data: an interval above the degrade threshold of a lane that was not degraded degrades it and raises
LANE_DEGRADE; the third interval in a row at or below it ends this with the clear; a fence crossing restores the working set
from the snapshot, counts, and raises LANE_FENCE with the lane and the value; each interval counts the lane's corrected
symbols, corrected codewords and uncorrectable codewords; and after 1 s without an interval above the threshold the snapshot
is refreshed. A scan that has run 20 ms on a lane with neither LOS nor LOL keeps its margins with the superframe count, and
is over. (13_serial_lanes.md, degrade (R349) and Eye margins (R353); 03_burst_reception.md, lane fence (R103)) -/
def Obligations.LaneIntervalsFencesAndEyeScans : Prop :=
  (∀ dt lane e n w u s, laneCarries (tick dt s) lane = true → (laneOf s lane).degraded = false → aboveDegrade s lane e n = true →
    goesTo (.laneDegradeInterval dt lane e n w u) s fun t =>
      (laneOf t lane).degraded = true ∧ (laneOf t lane).degRun = 0 ∧
      raisedAmong Ev.laneDegrade (dieOfSerial lane) [.u8 lane] s t ∧
      onlyKey lane s.lane.lanes t.lane.lanes ∧ only [.lane, .ev, .ctr] dt s t) ∧
  (∀ dt lane e n w u s, laneCarries (tick dt s) lane = true → (laneOf s lane).degraded = true → aboveDegrade s lane e n = false →
    ctrVal s 8 lane Cn.laneErrors + e < 2 ^ 48 → ctrVal s 8 lane Cn.laneCodewords + w < 2 ^ 48 →
    ctrVal s 8 lane Cn.laneUncorrectable + u < 2 ^ 48 →
    goesTo (.laneDegradeInterval dt lane e n w u) s fun t =>
      (if 2 ≤ (laneOf s lane).degRun then
        (laneOf t lane).degraded = false ∧ cleared Ev.laneDegrade (dieOfSerial lane) [.u8 lane] s t
      else (laneOf t lane).degraded = true ∧ (laneOf t lane).degRun = (laneOf s lane).degRun + 1 ∧ t.ev = s.ev) ∧
      ctrVal t 8 lane Cn.laneErrors = ctrVal s 8 lane Cn.laneErrors + e ∧
      ctrVal t 8 lane Cn.laneCodewords = ctrVal s 8 lane Cn.laneCodewords + w ∧
      ctrVal t 8 lane Cn.laneUncorrectable = ctrVal s 8 lane Cn.laneUncorrectable + u ∧
      onlyKey lane s.lane.lanes t.lane.lanes ∧ only [.lane, .ev, .ctr] dt s t) ∧
  (∀ dt lane v s, laneCarries (tick dt s) lane = true → ctrVal s 8 lane Cn.fenceHits + 1 < 2 ^ 48 →
    goesTo (.laneFence dt lane v) s fun t =>
      laneOf t lane = { laneOf s lane with work := (laneOf s lane).snap, fenceCount := (laneOf s lane).fenceCount + 1 } ∧
      ctrVal t 8 lane Cn.fenceHits = ctrVal s 8 lane Cn.fenceHits + 1 ∧
      raised Ev.laneFence (dieOfSerial lane) [.u8 lane, .u8 v] s t ∧
      onlyKey lane s.lane.lanes t.lane.lanes ∧ only [.lane, .ev, .ctr] dt s t) ∧
  (∀ dt lane s, laneCarries (tick dt s) lane = true → belowDegrade (laneOf s lane) = true →
    (laneOf s lane).snapAt + Time.sec 1 ≤ s.now + dt →
    goesTo (.laneSnapshotRefresh dt lane) s fun t =>
      (laneOf t lane).snap = (laneOf t lane).work ∧ (laneOf t lane).snapAt = t.now ∧
      onlyKey lane s.lane.lanes t.lane.lanes ∧ only [.lane] dt s t) ∧
  (∀ dt lane m since s, s.lane.scans.find? (fun x => x.1 == lane) = some (lane, some since) → since + Time.ms 20 ≤ s.now + dt →
    (laneOf s lane).los = false → (laneOf s lane).lol = false →
    goesTo (.laneMarginScanDone dt lane m) s fun t =>
      laneOf t lane = { laneOf s lane with margins := m, marginSf := s.pon.sf } ∧
      (∀ x, x ∈ t.lane.scans → x.1 ≠ lane) ∧
      (∀ p r c, (p, r) ∈ ringsWaiting s (fun w => w == .scan lane) → linkOf s p = true → (ringOf s p r).running = some c →
        c.discard = false → (ringOf t p r).running = none ∧
        ∃ rep, rep ∈ (ringOf t p r).replies ∧ rep.seq = c.seq ∧ rep.status = 0 ∧ rep.result = s.pon.sf.toNat :: m) ∧
      onlyKey lane s.lane.lanes t.lane.lanes ∧ only [.lane, .host, .ev] dt s t)

/-- For a base whose source is a port in SLAVE and is not ignored: an incomplete exchange is only counted. The first complete
sample of an UNSET base steps its value by the offset of the four stamps and makes it ACQUIRING, with TIME_STATE; a sample
within the jump threshold of a base without a held jump leaves its value as it runs at that moment, keeps LOCKED or ACQUIRING
and takes HOLDOVER and FREE_RUN to ACQUIRING; one beyond the threshold is counted as an outlier and joins the last eight such
samples, with the value and the state as they were. ACQUIRING with the offset within the lock limit for 10 s becomes LOCKED.
Eight samples beyond the threshold that agree within 100 ns are held: JUMP_HELD with their median. HOLDOVER or JUMP_HELD
whose budget has run out becomes FREE_RUN. Every change of state raises TIME_STATE with the base, the old and the new state.
(11_time.md, time bases and states (R282, R284) and Table 11.2; 11_time.md, Precision Time Protocol (R289); 11_time.md, Jumps
(R294, R296)) -/
def Obligations.TimeBasesFollowTheirSource : Prop :=
  (∀ dt n p t1 t2 t3 t4 c s, sourceOf s n = (1, p) → (cfgOf s).valN Kind.ptpPort p Fld.ptState = 2 →
    goesTo (.sync dt n t1 t2 t3 t4 c false) s fun t => only [.ctr, .ev] dt s t ∧
      (ctrVal s 5 n Cn.incomplete + 1 < 2 ^ 48 → ctrVal t 5 n Cn.incomplete = ctrVal s 5 n Cn.incomplete + 1)) ∧
  (∀ dt n p t1 t2 t3 t4 c s, sourceOf s n = (1, p) → (cfgOf s).valN Kind.ptpPort p Fld.ptState = 2 → (baseOf s n).ignored = false →
    let off := offsetOf s p t1 t2 t3 t4 c
    let b := baseOf s n
    ((b.st = .unset → goesTo (.sync dt n t1 t2 t3 t4 c true) s fun t =>
        (baseOf t n).st = .acquiring ∧ (baseOf t n).offset = off ∧
        baseVal (baseOf t n) t.now = baseVal b (s.now + dt) + off ∧
        raisedAmong Ev.timeState .east [.u8 n, .u8 (baseStNum .unset), .u8 (baseStNum .acquiring)] s t) ∧
     (b.st ≠ .unset → b.heldJump = none → off.natAbs ≤ 65536 * tbValN s n Fld.tbJumpNs →
      goesTo (.sync dt n t1 t2 t3 t4 c true) s fun t =>
        (baseOf t n).offset = off ∧ baseVal (baseOf t n) t.now = baseVal b (s.now + dt) ∧ (baseOf t n).beyond = [] ∧
        ((baseOf t n).st = if b.st = .locked ∧ b.fresh = false then .locked else .acquiring) ∧ only [.time, .ev] dt s t) ∧
     (b.st ≠ .unset → b.heldJump = none → 65536 * tbValN s n Fld.tbJumpNs < off.natAbs →
      goesTo (.sync dt n t1 t2 t3 t4 c true) s fun t =>
        baseOf t n = { b with lastSample := t.now, offset := off, beyond := (off :: b.beyond).take 8, inLimitSince := none } ∧
        onlyKey n s.time.bases t.time.bases ∧ only [.time, .ctr, .ev] dt s t))) ∧
  (∀ dt n s since, (baseOf s n).st = .acquiring → (baseOf s n).inLimitSince = some since → since + Time.sec 10 ≤ s.now + dt →
    goesTo (.timeLock dt n) s fun t =>
      (baseOf t n).st = .locked ∧ (baseOf t n).everLocked = true ∧
      raised Ev.timeState .east [.u8 n, .u8 (baseStNum .acquiring), .u8 (baseStNum .locked)] s t ∧ only [.time, .ev] dt s t) ∧
  (∀ dt n s, (baseOf s n).st ≠ .jumpHeld → (baseOf s n).heldJump = none → (baseOf s n).beyond.length = 8 →
    allAgree (baseOf s n).beyond = true → (sourceOf s n).1 ≠ 4 →
    goesTo (.timeJumpHeld dt n) s fun t =>
      (baseOf t n).st = .jumpHeld ∧ (baseOf t n).heldJump = some (medianInt (baseOf s n).beyond) ∧
      baseVal (baseOf t n) t.now = baseVal (baseOf s n) (s.now + dt) ∧
      raisedAmong Ev.timeJumpHeld .east [.u8 n, nsArg (medianInt (baseOf s n).beyond)] s t ∧ only [.time, .ev] dt s t) ∧
  (∀ dt n s since, (baseOf s n).st = .holdover ∨ (baseOf s n).st = .jumpHeld → (baseOf s n).holdSince = some since →
    since + Time.sec (60 * tbValN s n Fld.tbHoldMin) ≤ s.now + dt →
    goesTo (.holdoverBudgetExpiry dt n) s fun t =>
      (baseOf t n).st = .freeRun ∧ (baseOf t n).heldJump = (baseOf s n).heldJump ∧
      raised Ev.timeState .east [.u8 n, .u8 (baseStNum (baseOf s n).st), .u8 (baseStNum .freeRun)] s t ∧ only [.time, .ev] dt s t)

/-- A served JUMP_ACCEPT of a base that holds a jump not yet accepted is answered with the superframe count of the first grid
boundary at least 50 µs from now, kept as its boundary; when that has come, the base steps by the jump then held, holds none,
becomes ACQUIRING, counts it and raises TIME_JUMP_APPLIED with the step. A served JUMP_REFUSE discards the jump, makes a base
in JUMP_HELD hold over, ignores its source and raises TIME_JUMP_REFUSED. Both are answered STATE by a base that holds no
jump. A served TIME_SET keeps the value for such a boundary; when that has come, the base reads it (only its seconds where
the source is a PPS input) and TIME_SET is raised. A served ASYMMETRY_SET of a channel of a split-path tree sets the
channel's asymmetry, and the tree's time of day is no longer UNVERIFIED once both channels are confirmed. (11_time.md, Jumps
(R295 to R297); 14_host_commands.md, Opcodes (JUMP_ACCEPT, JUMP_REFUSE, TIME_SET, ASYMMETRY_SET); 04_activation_ranging.md,
split-path trees (R123, R124)) -/
def Obligations.JumpsAndTimeSetsAreAnswered : Prop :=
  (∀ dt h n j s, serves Op.jumpAccept h s → n < 8 → (baseOf s n).heldJump = some j → (baseOf s n).acceptAt = none →
    goesTo (.jumpAccept dt h n) s fun t =>
      baseOf t n = { baseOf s n with acceptAt := some (boundaryFrom s (t.now + Time.us 50)) } ∧
      onlyKey n s.time.bases t.time.bases ∧
      answered Op.jumpAccept h { result := [(sfAt s (boundaryFrom s (t.now + Time.us 50))).toNat] } s t ∧
      only [.time, .twin, .host, .ev] dt s t) ∧
  (∀ dt h n s, serves Op.jumpAccept h s → n < 8 → (baseOf s n).heldJump = none →
    goesTo (.jumpAccept dt h n) s fun t => answered Op.jumpAccept h { status := St.state } s t ∧ only [.host, .ev] dt s t) ∧
  (∀ dt n j at_ s, (baseOf s n).heldJump = some j → (baseOf s n).acceptAt = some at_ → at_ ≤ s.now + dt → (sourceOf s n).1 ≠ 4 →
    goesTo (.timeJumpApplied dt n) s fun t =>
      (baseOf t n).heldJump = none ∧ (baseOf t n).acceptAt = none ∧ (baseOf t n).st = .acquiring ∧
      baseVal (baseOf t n) t.now = baseVal (baseOf s n) (s.now + dt) + j ∧
      raisedAmong Ev.timeJumpApplied .east [.u8 n, nsArg j] s t) ∧
  (∀ dt h n j s, serves Op.jumpRefuse h s → n < 8 → (baseOf s n).heldJump = some j →
    goesTo (.jumpRefuse dt h n) s fun t =>
      (baseOf t n).heldJump = none ∧ (baseOf t n).acceptAt = none ∧ (baseOf t n).ignored = true ∧
      ((baseOf t n).st = if (baseOf s n).st = .jumpHeld then .holdover else (baseOf s n).st) ∧
      raisedAmong Ev.timeJumpRefused .east [.u8 n] s t ∧ answered Op.jumpRefuse h {} s t ∧
      only [.time, .twin, .host, .ev] dt s t) ∧
  (∀ dt h n s, serves Op.jumpRefuse h s → n < 8 → (baseOf s n).heldJump = none →
    goesTo (.jumpRefuse dt h n) s fun t => answered Op.jumpRefuse h { status := St.state } s t ∧ only [.host, .ev] dt s t) ∧
  (∀ dt h n secs ns s, serves Op.timeSet h s → n < 8 → ns < 10 ^ 9 → secs < 2 ^ 48 →
    goesTo (.timeSet dt h n secs ns) s fun t =>
      baseOf t n = { baseOf s n with
        setAt := some (boundaryFrom s (t.now + Time.us 50), secs * 10 ^ 9 + ns, (sourceOf s n).1 == 2) } ∧
      onlyKey n s.time.bases t.time.bases ∧
      answered Op.timeSet h { result := [(sfAt s (boundaryFrom s (t.now + Time.us 50))).toNat] } s t ∧
      only [.time, .twin, .host, .ev] dt s t) ∧
  (∀ dt n v secs s, (baseOf s n).setAt = some (s.now + dt, v, secs) → (sourceOf s n).1 ≠ 4 →
    goesTo (.timeSetApply dt n) s fun t =>
      (baseOf t n).setAt = none ∧
      baseVal (baseOf t n) t.now = (if secs = true then ((v / 10 ^ 9 : Nat) : Int) * second16 + baseVal (baseOf s n) t.now % second16 else u16 v) ∧
      raisedAmong Ev.timeSet .east [.u8 n] s t) ∧
  (∀ dt h ch a cf s, serves Op.asymmetrySet h s → ch < 512 → splitPath s (treeOf ch) = true →
    goesTo (.asymmetrySet dt h ch a cf) s fun t =>
      (chOf t ch).asym = a ∧ (chOf t ch).asymConfirmed = ((chOf s ch).asymConfirmed || cf) ∧
      ((chOf t (wideOf (treeOf ch))).asymConfirmed = true → (chOf t (narrowOf (treeOf ch))).asymConfirmed = true →
        t.pon.todUnverified.find? (treeOf ch) = none) ∧
      answered Op.asymmetrySet h {} s t ∧ only [.pon, .host, .ev] dt s t)

/-- An Announce of a master that the port has no record of adds one, while there are fewer than 8, and raises ANNOUNCE_CHANGE; of
a known one it refreshes the record and raises the change only when the dataset differs; on a port of no such instance it is
only counted. After 3 Announce intervals of 125 ms without a refresh, the only record of a base is dropped with
ANNOUNCE_CHANGE, and a base in LOCKED or ACQUIRING under PTP without a sample for as long is in HOLDOVER. A port that is up
sends, when due, Sync every 62.5 ms and Announce every 125 ms as MASTER, and Delay_Req every 62.5 ms as SLAVE, with the
base's clockClass; it sends nothing in another state. (11_time.md, Precision Time Protocol (R287, R288) and Tables 11.2,
11.3) -/
def Obligations.PtpPortsSendAndKeepTheirMasters : Prop :=
  (∀ dt n p m d s, ptpPortOf s n p ≠ 0 → s.time.foreign.find? (fun f => f.base == n && f.port == p && f.master == m) = none →
    (s.time.foreign.filter fun f => f.base == n && f.port == p).length < 8 →
    goesTo (.announce dt n p m d) s fun t =>
      t.time = { s.time with foreign := s.time.foreign ++ [⟨n, p, m, d, t.now⟩] } ∧
      raised Ev.announceChange (dieOfPort p) [.u8 n, .u8 p] s t ∧ only [.time, .ev] dt s t) ∧
  (∀ dt n p m d f s, ptpPortOf s n p ≠ 0 → s.time.foreign.find? (fun f => f.base == n && f.port == p && f.master == m) = some f →
    goesTo (.announce dt n p m d) s fun t =>
      (⟨n, p, m, d, t.now⟩ : Foreign) ∈ t.time.foreign ∧ t.time.foreign.length = s.time.foreign.length ∧
      (if f.dataset = d then t.ev = s.ev else raised Ev.announceChange (dieOfPort p) [.u8 n, .u8 p] s t) ∧
      only [.time, .ev] dt s t) ∧
  (∀ dt n p m d s, ptpPortOf s n p = 0 → ctrVal s 5 n Cn.ptpDropped + 1 < 2 ^ 48 →
    goesTo (.announce dt n p m d) s fun t =>
      ctrVal t 5 n Cn.ptpDropped = ctrVal s 5 n Cn.ptpDropped + 1 ∧ only [.ctr] dt s t) ∧
  (∀ dt n f s, s.time.foreign = [f] → f.base = n → f.last + Time.ms 375 ≤ s.now + dt → (sourceOf s n).1 = 1 →
    (baseOf s n).lastSample + Time.ms 375 ≤ s.now + dt →
    goesTo (.announceReceiptTimeout dt n) s fun t =>
      t.time.foreign = [] ∧ raisedAmong Ev.announceChange (dieOfPort f.port) [.u8 n, .u8 f.port] s t ∧
      ((baseOf t n).st = if (baseOf s n).st = .locked ∨ (baseOf s n).st = .acquiring then .holdover else (baseOf s n).st) ∧
      only [.time, .ev] dt s t) ∧
  (∀ dt n p s, portUp s p = true → (∀ k, k < 3 → s.time.lastSend.find? (4 * p + k) = none) →
    goesTo (.ptpSend dt n p) s fun t =>
      t.out = (match ptpPortOf s n p with
        | 1 => [.ptp p 0 (clockClass s n), .ptp p 1 (clockClass s n)]
        | 2 => [.ptp p 2 (clockClass s n)]
        | _ => []) ∧ only [.time] dt s t) ∧
  (∀ dt n p a b s, portUp s p = true → ptpPortOf s n p = 1 → s.time.lastSend.find? (4 * p) = some a →
    s.time.lastSend.find? (4 * p + 1) = some b →
    goesTo (.ptpSend dt n p) s fun t =>
      t.out = (if a + Time.us 62500 ≤ t.now then [.ptp p 0 (clockClass s n)] else [])
        ++ (if b + Time.ms 125 ≤ t.now then [.ptp p 1 (clockClass s n)] else []) ∧ only [.time] dt s t)

/-- A PPS input edge less than 0.9 s after the last is counted and ignored; another is kept as the last one and ends a loss with
its clear. An input without an edge for 1.5 s in a ready unit raises PPS_IN_LOSS, once. A PPS output whose programmed instant
has come pulses with its width, unless its base squelches and is not LOCKED. A squelched recovered-clock output whose lane's
lock returned 1 s ago resumes with RCLK_SQUELCH_CLEAR. At the holder, an OPERATIONAL terminal that is provisioned for time of
day, is due and has no set outstanding is sent one, and is due again after its tree's period. (11_time.md, SyncE and
recovered clocks (R290); 11_time.md, One pulse per second (R292, R293); 11_time.md, Time of day to terminals (R298, R300)) -/
def Obligations.PulsesClocksAndTimeOfDay : Prop :=
  (∀ dt i last s, s.time.ppsLast.find? i = some last → s.now + dt < last + Time.ms 900 → ctrVal s 5 (16 + i) Cn.edgesIgnored + 1 < 2 ^ 48 →
    goesTo (.ppsInEdge dt i) s fun t =>
      ctrVal t 5 (16 + i) Cn.edgesIgnored = ctrVal s 5 (16 + i) Cn.edgesIgnored + 1 ∧ only [.ctr] dt s t) ∧
  (∀ dt i s, (∀ last, s.time.ppsLast.find? i = some last → last + Time.ms 900 ≤ s.now + dt) → basesOfPps s i = [] →
    goesTo (.ppsInEdge dt i) s fun t =>
      t.time = { s.time with ppsLast := s.time.ppsLast.set i t.now, ppsLost := s.time.ppsLost.del i } ∧
      (if s.time.ppsLost.getD i false = true then cleared Ev.ppsIn .east [.u8 i] s t else t.ev = s.ev) ∧ only [.time, .ev] dt s t) ∧
  (∀ dt i s, s.pwr.ready = true → s.time.ppsLost.getD i false = false → s.time.ppsLast.getD i s.pwr.readyAt + Time.ms 1500 ≤ s.now + dt →
    goesTo (.ppsInLoss dt i) s fun t =>
      t.time.ppsLost.getD i false = true ∧ raisedAmong Ev.ppsIn .east [.u8 i] s t ∧
      (∀ n, n ∈ basesOfPps s i → (baseOf t n).st ≠ .locked ∧ (baseOf t n).st ≠ .acquiring) ∧ only [.time, .ev] dt s t) ∧
  (∀ dt o s, pulseNow (tick dt s) o = true → (∀ last, s.time.ppsOutLast.find? o = some last → last + Time.ns 4 < s.now + dt) →
    tbVal s ((cfgOf s).valN Kind.ppsOut o Fld.ppBase) Fld.tbSquelch ≠ 1 ∨ (baseOf s ((cfgOf s).valN Kind.ppsOut o Fld.ppBase)).st = .locked →
    goesTo (.ppsOutPulse dt o) s fun t =>
      t.out = [.pps o (Time.ns (100 * (cfgOf s).valN Kind.ppsOut o Fld.ppWidth))] ∧
      t.time = { s.time with ppsOutLast := s.time.ppsOutLast.set o t.now } ∧ only [.time] dt s t) ∧
  (∀ dt o since s, s.time.squelched.getD o false = true → s.time.lockBack.find? o = some since → since + Time.sec 1 ≤ s.now + dt →
    goesTo (.rclkResume dt o) s fun t =>
      t.time = { s.time with squelched := s.time.squelched.del o, lockBack := s.time.lockBack.del o } ∧
      cleared Ev.rclkSquelch .east [.u8 o] s t ∧ only [.time, .ev] dt s t) ∧
  (∀ dt x ch s, s.twin.held = true → (termOf s x).ch = some ch → (termOf s x).st = .operational → (termOf s x).todOut = false →
    (termOf s x).todDue ≤ s.now + dt → (cfgOf s).on Kind.terminal x Fld.trmTod = true →
    goesTo (.todDelivery dt x) s fun t =>
      (termOf t x).todOut = true ∧
      (termOf t x).todDue = t.now + Time.sec ((cfgOf s).valN Kind.tree (treeOf ch) Fld.treeTodS) ∧
      ∃ r, r ∈ (termOf t x).omciOut ++ (termOf t x).omciWait ∧ r.use = .tod)

/-- A served KEY_IMPORT of a record that is not 84 bytes long is answered PARAMETER. A record that does not unwrap is answered
KEY_WRAP and raises KEY_IMPORT_FAIL, and no key changes. A record that unwraps to a key is answered with its check value and:
of kind 1, the key becomes the import key and the sequence starts afresh; of kind 2 for a provisioned terminal, its EXCHANGE
slot holds the key at index 2, LOADED, and it is the terminal's master session key; of kind 3 for an association of a
configured port whose suite takes its length and which has no usable key, the association's SAK slot holds it, LOADED, and
the association starts at packet number 1; of kind 4, it is the pairing key and in the SEAM slot. Kinds 2 to 4 keep the
record's sequence number. (10_cipher.md, key import (R270 to R273); 14_host_commands.md, Opcodes (KEY_IMPORT); 10_cipher.md,
Table 10.3 (R261)) -/
def Obligations.WrappedKeysAreImported : Prop :=
  (∀ dt h r s, serves Op.keyImport h s → r.length ≠ 84 →
    goesTo (.keyImport dt h r) s fun t => answered Op.keyImport h { status := St.parameter } s t ∧ only [.host, .ev] dt s t) ∧
  ∀ dt h r s, serves Op.keyImport h s → r.length = 84 →
    let refused := fun t => answered Op.keyImport h { status := St.keyWrap } s t ∧ raisedAmong Ev.keyImportFail .east [] s t ∧
      only [.host, .ev] dt s t
    let told := fun (key : List Byte) t => ∃ slot, answered Op.keyImport h { result := [slot, checkValue key] } s t
    let loaded := fun (key : List Byte) => ({ st := .loaded, bytes := key, loadedSf := s.pon.sf } : KeyVal)
    (wkKind r = 1 → goesTo (.keyImport dt h r) s fun t =>
      match unwrap s r with
      | none => refused t
      | some key => t.ciph = { s.ciph with importKey := some key, lastSequence := none } ∧ told key t ∧ only [.host, .ev, .ciph] dt s t) ∧
    (wkKind r = 2 → (cfgOf s).has Kind.terminal (wkBinding r % 65536) = true →
      keyPlace s (dieOfTerm s (wkBinding r % 65536)) slotExchange (wkBinding r % 65536) →
      goesTo (.keyImport dt h r) s fun t =>
        match unwrap s r with
        | none => refused t
        | some key =>
          keyOf t (dieOfTerm s (wkBinding r % 65536)) slotExchange (wkBinding r % 65536) 2 = loaded key ∧
          (termOf t (wkBinding r % 65536)).msk = some key ∧ t.ciph.lastSequence = some (wkSequence r) ∧ told key t ∧
          only [.host, .ev, .ciph, .pon] dt s t) ∧
    (wkKind r = 3 → (cfgOf s).has Kind.subport (wkAssoc r / 36) = true → assocUsable s (wkAssoc r / 36) (wkAssoc r) = false →
      keyPlace s (dieOfPort (wkAssoc r / 36)) slotSak (wkAssoc r) →
      goesTo (.keyImport dt h r) s fun t =>
        match unwrap s r with
        | none => refused t
        | some key =>
          if key.length = sakBytes s (wkAssoc r / 36) then
            keyOf t (dieOfPort (wkAssoc r / 36)) slotSak (wkAssoc r) 1 = loaded key ∧
            (t.ciph.assocs.getD (wkAssoc r) {}).pn = 1 ∧ t.ciph.lastSequence = some (wkSequence r) ∧ told key t ∧
            only [.host, .ev, .ciph] dt s t
          else answered Op.keyImport h { status := St.parameter } s t ∧ only [.host, .ev] dt s t) ∧
    (wkKind r = 4 → keyPlace s .east slotSeam 0 → goesTo (.keyImport dt h r) s fun t =>
      match unwrap s r with
      | none => refused t
      | some key =>
        t.ciph.pairingKey = some key ∧ keyOf t .east slotSeam 0 1 = loaded key ∧ t.ciph.lastSequence = some (wkSequence r) ∧
        told key t ∧ only [.host, .ev, .ciph] dt s t)

/-- At the holder, for an OPERATIONAL terminal with an identifier on a channel with a PLOAM queue: a due refresh without an
exchange or a pause, and the end of a pause, start an exchange at the index that is not CURRENT, with Key_Control waiting for
it. The fragment that completes a report loads the key under the terminal's KEK at the exchange's index and a confirming
Key_Control waits; a fragment that leaves it incomplete is kept. A report incomplete for 3 s is asked for again, up to 3
times; after that the exchange is over, KEY_EXCHANGE_FAILED is raised and the next one waits 10 s. When the switch's frame
has come, the exchange's index is CURRENT from then on and the other RETIRED or FREE, and 8,000 frames later the other is
cleared. (10_cipher.md, terminal key exchanges (R264 to R268)) -/
def Obligations.KeyExchangesRunToTheirEnd : Prop :=
  (∀ dt x c o i s, s.twin.held = true → (termOf s x).st = .operational → (termOf s x).ch = some c → (termOf s x).onu = some o →
    hasPloamQueue (chOf s c).st = true → (termOf s x).exch = none → (termOf s x).exchRetryAt = none → (termOf s x).nextRefresh ≤ s.now + dt →
    currentIndex s (dieOfTerm s x) slotData x = some i →
    goesTo (.keyRefresh dt x) s fun t =>
      (termOf t x).exch = some { index := otherIndex i, startedAt := t.now } ∧
      ploamWaits c (.keyControl o false (otherIndex i)) t ∧ onlyKey x s.pon.terms t.pon.terms ∧ only [.pon, .ctr, .ev] dt s t) ∧
  (∀ dt x c o due s, s.twin.held = true → (termOf s x).st = .operational → (termOf s x).ch = some c → (termOf s x).onu = some o →
    hasPloamQueue (chOf s c).st = true → (termOf s x).exch = none → (termOf s x).exchRetryAt = some due → due ≤ s.now + dt →
    goesTo (.keyExchangeRetry dt x) s fun t =>
      (termOf t x).exch = some { index := exchangeIndex s x, startedAt := t.now } ∧ (termOf t x).exchRetryAt = none ∧
      ploamWaits c (.keyControl o false (exchangeIndex s x)) t ∧ onlyKey x s.pon.terms t.pon.terms ∧ only [.pon, .ctr, .ev] dt s t) ∧
  (∀ dt x c o e n bytes s, s.twin.held = true → (termOf s x).ch = some c → (termOf s x).onu = some o → hasPloamQueue (chOf s c).st = true →
    (termOf s x).exch = some e → exchangeLoaded s x = false → keyPlace s (dieOfTerm s x) slotData x →
    goesTo (.keyReport dt x n bytes) s fun t =>
      (termOf t x).exch = some { e with fragments := (e.fragments.filter fun p => p.1 != n) ++ [(n, bytes)] } ∧
      match wholeReport ((e.fragments.filter fun p => p.1 != n) ++ [(n, bytes)]) with
      | none => t.ciph = s.ciph
      | some b =>
        keyOf t (dieOfTerm s x) slotData x e.index
          = { st := .loaded, bytes := Config.openKeyReport (keyOf s (dieOfTerm s x) slotExchange x 1).bytes b, loadedSf := s.pon.sf } ∧
        ploamWaits c (.keyControl o true e.index) t) ∧
  (∀ dt x c o e s, s.twin.held = true → (termOf s x).ch = some c → (termOf s x).onu = some o → hasPloamQueue (chOf s c).st = true →
    (termOf s x).exch = some e → exchangeLoaded s x = false → e.startedAt + Time.sec 3 ≤ s.now + dt →
    goesTo (.keyReportTimeout dt x) s fun t =>
      if e.tries < 3 then
        (termOf t x).exch = some { e with tries := e.tries + 1, startedAt := t.now, fragments := [] } ∧
        ploamWaits c (.keyControl o false e.index) t
      else (termOf t x).exch = none ∧ (termOf t x).exchRetryAt = some (t.now + Time.sec 10) ∧
        raisedAmong Ev.keyExchangeFailed (dieOfTerm s x) [.u16 x] s t) ∧
  (∀ dt x e at_ s, (termOf s x).exch = some e → (termOf s x).switchAt = some at_ → sfReached s at_ = true →
    e.index = 1 ∨ e.index = 2 → keyPlace s (dieOfTerm s x) slotData x →
    goesTo (.keySwitch dt x) s fun t =>
      (keyOf t (dieOfTerm s x) slotData x e.index).st = .current ∧ (keyOf t (dieOfTerm s x) slotData x e.index).since = s.pon.sf ∧
      ((keyOf t (dieOfTerm s x) slotData x (otherIndex e.index)).st
        = if (keyOf s (dieOfTerm s x) slotData x (otherIndex e.index)).st = .free then .free else .retired) ∧
      (termOf t x).exch = none ∧ (termOf t x).clearAt = some (s.pon.sf + 8000)) ∧
  (∀ dt x at_ i s, (termOf s x).clearAt = some at_ → currentIndex s (dieOfTerm s x) slotData x = some i → sfReached s at_ = true →
    keyPlace s (dieOfTerm s x) slotData x →
    goesTo (.keyClear dt x) s fun t =>
      keyOf t (dieOfTerm s x) slotData x (otherIndex i) = {} ∧ currentIndex t (dieOfTerm s x) slotData x = some i ∧
      (termOf t x).clearAt = none ∧ only [.pon, .ciph, .twin] dt s t)

/-- A broadcast key that is due is generated at the index that is not CURRENT, LOADED, and its distribution to the channel's
members begins. When every member has acknowledged, or 10 s after the beginning, the index is CURRENT, the distribution is
over, and BROADCAST_KEY_LAGGING names each member that had not. A terminal's or broadcast key that reaches its lifetime is
marked spent and KEY_SPENT is raised. A key slot with a fault whose copy is good moves to the lowest free slot with
KEY_SLOT_FAULT; without one KEY_SLOT_LOST is raised, and the SEAM slot is freed with no other change. A cipher lane with a
fault is quarantined, counts it and raises CIPHER_LANE_FAULT; with fewer than 88 serviceable lanes left on its die, a holder
whose policy says so and whose partner is ARMED gives up the token. (10_cipher.md, lifetimes (R267); 10_cipher.md, broadcast
keys (R269); 10_cipher.md, faults (R257, R258, R262); 12_twin.md, Table 12.5 (R322)) -/
def Obligations.BroadcastKeysSpentKeysAndFaults : Prop :=
  (∀ dt ten ch s, bcastDue (tick dt s) ten ch = true → keyPlace s (dieOfChannel ch) slotBroadcast (bcastOwner ch ten) →
    goesTo (.broadcastKeyRefresh dt ten ch) s fun t => ∃ key i,
      key.length = 16 ∧ i = (if currentIndex s (dieOfChannel ch) slotBroadcast (bcastOwner ch ten) = some 1 then 2 else 1) ∧
      keyOf t (dieOfChannel ch) slotBroadcast (bcastOwner ch ten) i = { st := .loaded, bytes := key, loadedSf := s.pon.sf } ∧
      t.ciph.bcasts = s.ciph.bcasts ++ [⟨ten, ch, i, t.now, bcastMembers s ten ch⟩]) ∧
  (∀ dt ten ch b s, bcastOf? s ten ch = some b → b.index = 1 ∨ b.index = 2 → lagging s b = [] ∨ b.startedAt + Time.sec 10 ≤ s.now + dt →
    keyPlace s (dieOfChannel ch) slotBroadcast (bcastOwner ch ten) →
    goesTo (.broadcastKeySwitch dt ten ch) s fun t =>
      (keyOf t (dieOfChannel ch) slotBroadcast (bcastOwner ch ten) b.index).st = .current ∧ bcastOf? t ten ch = none ∧
      (∀ x, x ∈ lagging s b → raisedAmong Ev.broadcastKeyLagging (dieOfChannel ch) [.u16 x] s t) ∧
      only [.ciph, .pon, .ev, .twin] dt s t) ∧
  (∀ dt x i s, spentIndex s (dieOfTerm s x) slotData x (lifeOf s (termTenants s x)) 0 = some i → keyPlace s (dieOfTerm s x) slotData x →
    goesTo (.keySpent dt false x) s fun t =>
      (keyOf t (dieOfTerm s x) slotData x i).spent = true ∧ (termOf t x).keySpent = true ∧
      raised Ev.keySpent (dieOfTerm s x) [.u16 x] s t ∧ only [.ciph, .pon, .ev] dt s t) ∧
  (∀ dt o i s, spentIndex s (dieOfChannel (o / 64)) slotBroadcast o (lifeOf s [o % 64]) 0 = some i →
    keyPlace s (dieOfChannel (o / 64)) slotBroadcast o →
    goesTo (.keySpent dt true o) s fun t =>
      (keyOf t (dieOfChannel (o / 64)) slotBroadcast o i).spent = true ∧
      raised Ev.keySpent (dieOfChannel (o / 64)) [.u8 (o % 64), .u16 (o / 64)] s t ∧ only [.ciph, .ev] dt s t) ∧
  (∀ dt d slot x s, s.ciph.slots.find? (slotKey d slot) = some x →
    goesTo (.keySlotFault dt d slot true) s fun t =>
      t.ciph = { s.ciph with slots := (s.ciph.slots.del (slotKey d slot)).set (freeSlot s d) x } ∧
      raised Ev.keySlotFault d [.u8 (dieNum d), .u32 slot, .u32 (freeSlot s d % Config.keySlots)] s t ∧ only [.ciph, .ev] dt s t) ∧
  (∀ dt d slot x s, s.ciph.slots.find? (slotKey d slot) = some x →
    goesTo (.keySlotFault dt d slot false) s fun t =>
      raisedAmong Ev.keySlotLost d [.u8 (dieNum d), .u32 slot] s t ∧
      (x.kind = slotSeam → t.ciph = { s.ciph with slots := s.ciph.slots.del (slotKey d slot) } ∧ only [.ciph, .ev] dt s t)) ∧
  (∀ dt lane item yld s, quarantinedLane s lane = false →
    goesTo (.cipherLaneFault dt lane item yld) s fun t =>
      lane ∈ t.ciph.quarantined ∧ raisedAmong Ev.cipherLaneFault (dieOfLane lane) [.u8 lane] s t ∧
      ((serviceableLanes t (dieOfLane lane)).length < 88 → (cfgOf s).on Kind.device 0 Fld.devYieldCipher = true → yld = false →
        t.twin.held = false))

/-- A served OMCI_REQUEST for an OPERATIONAL terminal whose contents fit, with no request of its priority there, is sent at once
under the next transaction identifier, and the ring runs it; with one there and fewer than 16 waiting it waits behind them,
and with 16 waiting it is answered BUSY. IMAGE_ACTIVATE and IMAGE_COMMIT of instance 0 or 1 send their own message types of
class 7 in the same way. A request unanswered for the timeout is sent again, at most 3 times, and then ends its ring's
command with TIMEOUT. The terminal's response to an outstanding host request ends the ring's command with the contents. A
message that fails its MIC, and a response to nothing, are only counted. (09_service_engines.md, OMCI (R236 to R238);
09_service_engines.md, software download (R240); 14_host_commands.md, Table 14.6) -/
def Obligations.OmciRequestsWaitForTheirAnswers : Prop :=
  (∀ dt h x ty cls inst prio body s, serves Op.omciRequest h s → (cfgOf s).has Kind.terminal x = true → (termOf s x).st = .operational →
    body.length ≤ omciRoom (termOf s x) → cls ≤ 65535 → inst ≤ 65535 → ty ≤ 255 →
    goesTo (.omciRequest dt h x ty cls inst prio body) s fun t =>
      let r : OmciReq := { prio := prio, contents := omciContents s x ty cls inst body, txn := 0, port := h.port, ring := h.ring }
      if omciBusy (termOf s x) prio = true ∧ 16 ≤ (termOf s x).omciWait.length then
        answered Op.omciRequest h { status := St.busy } s t ∧ only [.host, .ev] dt s t
      else
        waitsFor Op.omciRequest h (.omci x prio) (omciMaxTime s (termOf s x) prio) s t ∧
        if omciBusy (termOf s x) prio = true ∨ ((termOf s x).omciWait.any fun w => w.prio == prio) = true then
          (termOf t x).omciWait = (termOf s x).omciWait ++ [r] ∧ (termOf t x).omciOut = (termOf s x).omciOut
        else (termOf t x).omciWait = (termOf s x).omciWait ∧
          (termOf t x).omciOut
            = (termOf s x).omciOut ++ [{ r with txn := ((termOf s x).omciTxn + 1) % 65536, sentAt := t.now, resends := 0 }]) ∧
  (∀ dt h x inst s, serves Op.imageActivate h s → (cfgOf s).has Kind.terminal x = true → (termOf s x).st = .operational → inst ≤ 1 →
    (termOf s x).omciWait.length < 16 →
    goesTo (.imageActivate dt h x inst) s fun t =>
      waitsFor Op.imageActivate h (.omci x 0) (omciMaxTime s (termOf s x) 0) s t ∧
      ∃ r, r ∈ (termOf t x).omciOut ++ (termOf t x).omciWait ∧ r.contents = omciContents s x 0x56 7 inst [] ∧ r.port = h.port ∧ r.ring = h.ring) ∧
  (∀ dt h x inst s, serves Op.imageCommit h s → (cfgOf s).has Kind.terminal x = true → (termOf s x).st = .operational → inst ≤ 1 →
    (termOf s x).omciWait.length < 16 →
    goesTo (.imageCommit dt h x inst) s fun t =>
      waitsFor Op.imageCommit h (.omci x 0) (omciMaxTime s (termOf s x) 0) s t ∧
      ∃ r, r ∈ (termOf t x).omciOut ++ (termOf t x).omciWait ∧ r.contents = omciContents s x 0x57 7 inst [] ∧ r.port = h.port ∧ r.ring = h.ring) ∧
  (∀ dt x prio r s, (termOf s x).omciOut.find? (fun r => r.prio == prio) = some r → r.sentAt + omciTimeout s ≤ s.now + dt →
    goesTo (.omciTimeout dt x prio) s fun t =>
      (r.resends < 3 → { r with resends := r.resends + 1, sentAt := t.now } ∈ (termOf t x).omciOut) ∧
      (3 ≤ r.resends → r.use = .host → ∀ c, (ringOf s r.port r.ring).running = some c → c.discard = false → linkOf s r.port = true →
        (ringOf t r.port r.ring).running = none ∧
        (ringOf t r.port r.ring).replies = (ringOf s r.port r.ring).replies
          ++ [⟨c.opcode, St.timeout, c.seq, c.session, stagingNumber s, 0, []⟩])) ∧
  (∀ dt x txn contents r c s, registered (termOf s x).st = true → omciNamed? (termOf s x) txn = some r → r.use = .host →
    (ringOf s r.port r.ring).running = some c → c.discard = false → linkOf s r.port = true →
    goesTo (.omciMessageReceive dt x true (.response txn contents) none) s fun t =>
      (ringOf t r.port r.ring).running = none ∧
      (ringOf t r.port r.ring).replies = (ringOf s r.port r.ring).replies
        ++ [⟨c.opcode, St.ok, c.seq, c.session, stagingNumber s, 0, contents.map (·.toNat)⟩]) ∧
  (∀ dt x m w s, registered (termOf s x).st = true → ctrVal s 10 x Cn.omciBadMic + 1 < 2 ^ 48 →
    goesTo (.omciMessageReceive dt x false m w) s fun t =>
      ctrVal t 10 x Cn.omciBadMic = ctrVal s 10 x Cn.omciBadMic + 1 ∧ only [.ctr] dt s t) ∧
  (∀ dt x txn contents s, registered (termOf s x).st = true → omciNamed? (termOf s x) txn = none → ctrVal s 10 x Cn.omciUnexpected + 1 < 2 ^ 48 →
    goesTo (.omciMessageReceive dt x true (.response txn contents) none) s fun t =>
      ctrVal t 10 x Cn.omciUnexpected = ctrVal s 10 x Cn.omciUnexpected + 1 ∧ only [.ctr] dt s t)

/-- A served SWDL_START of an image of the terminal's die, for an OPERATIONAL terminal without a download, gives the terminal a
download under the next command order, and the reply says whether it waits; a second one is answered BUSY. A running download
whose Start or window has stayed unanswered for the OMCI timeout tries once more; the second time it is over with
SWDL_FAILED. A download that is ending repeats its End message every 1 s, and is over with SWDL_FAILED after 5 min.
(09_service_engines.md, software download (R240); 14_host_commands.md, Opcodes (SWDL_START)) -/
def Obligations.DownloadsRunInWindows : Prop :=
  (∀ dt h x img inst w s, serves Op.swdlStart h s → (cfgOf s).has Kind.terminal x = true →
    (imagesOf s (dieOfTerm s x)).images.find? img ≠ none → inst ≤ 1 → 1 ≤ w → w ≤ 256 →
    goesTo (.swdlStart dt h x img inst w) s fun t =>
      ((termOf s x).download = none → (termOf s x).st = .operational → (termOf s x).ch ≠ none →
        (∃ d, (termOf t x).download = some d ∧ d.image = img ∧ d.inst = inst ∧ d.window = w ∧ d.started = false ∧ d.sent = 0 ∧
          d.order = s.svc.swdlSeq ∧ answered Op.swdlStart h { result := [if d.running = true then 0 else 1] } s t) ∧
        t.svc = { s.svc with swdlSeq := s.svc.swdlSeq + 1 }) ∧
      ((termOf s x).download ≠ none → answered Op.swdlStart h { status := St.busy } s t ∧ only [.host, .ev] dt s t)) ∧
  (∀ dt x d s, (termOf s x).download = some d → d.running = true → d.ending = false → d.lastAt + omciTimeout s ≤ s.now + dt →
    goesTo (.swdlWindowTimeout dt x) s fun t =>
      if d.retried = true then (termOf t x).download = none ∧ raisedAmong Ev.swdlFailed (dieOfTerm s x) [.u16 x, .u8 swdlTimeout] s t
      else (termOf t x).download = some { d with retried := true, lastAt := t.now } ∧ t.svc = s.svc ∧ t.host = s.host) ∧
  (∀ dt x d s, (termOf s x).download = some d → d.ending = true → d.lastAt + Time.sec 1 ≤ s.now + dt →
    goesTo (.swdlEndRetry dt x) s fun t =>
      if d.endSince + Time.sec 300 ≤ s.now + dt then
        (termOf t x).download = none ∧ raisedAmong Ev.swdlFailed (dieOfTerm s x) [.u16 x, .u8 swdlBusy] s t
      else (termOf t x).download = some { d with lastAt := t.now } ∧ t.svc = s.svc ∧ t.host = s.host)

/-- A frame at the head of a die's queue whose class brings such messages is taken and counted as handled, and the frames behind
it stay, with nothing more behind them unless the frame is not the service's own and goes on by the tables; a message of
another class does nothing. A DHCPv4 client frame with option 82 of a tenant that trusts nobody is dropped and counted; a
Relay-Forward of a client is dropped and counted; a loop probe that carries the device's value upstream blocks its flow and
raises LOOP_DETECTED; a loopback reply joins its series. The query timer, with no leave pending, ends memberships of the
tenant and VLAN whose last report is 260 s old and keeps the others. (09_service_engines.md, the Atelier (R234, R235);
09_service_engines.md, relay insertion (R241 to R244); 09_service_engines.md, multicast (R246, R247) and CFM (R249)) -/
def Obligations.ServiceFramesAreTakenInOrder : Prop :=
  (∀ dt d m x rest s, svcQueue s d = x :: rest → (svcClass m).contains x.cls = true → x.frame.tenant < 64 →
    goesTo (.serviceFrame dt d m) s fun t => rest <+: svcQueue t d ∧ (passesOn s m = false → svcQueue t d = rest) ∧
      (ctrVal s 4 (objTenant d x.frame.tenant) Cn.svcHandled + 1 < 2 ^ 48 →
        ctrVal t 4 (objTenant d x.frame.tenant) Cn.svcHandled = ctrVal s 4 (objTenant d x.frame.tenant) Cn.svcHandled + 1)) ∧
  (∀ dt d m s, (∀ x rest, svcQueue s d = x :: rest → (svcClass m).contains x.cls = false) →
    goesTo (.serviceFrame dt d m) s fun t => only [] dt s t) ∧
  (∀ dt d x rest s, svcQueue s d = x :: rest → x.cls = 16 →
    (((bankOf s d x.frame.stitch).getD (cfgOf s)).valN Kind.tenant x.frame.tenant Fld.tnTrust = 2) →
    ctrVal s 4 (objTenant d x.frame.tenant) Cn.relayDrops + 1 < 2 ^ 48 →
    goesTo (.serviceFrame dt d (.dhcp4Client true)) s fun t =>
      ctrVal t 4 (objTenant d x.frame.tenant) Cn.relayDrops = ctrVal s 4 (objTenant d x.frame.tenant) Cn.relayDrops + 1 ∧ t.q = s.q) ∧
  (∀ dt d x rest s, svcQueue s d = x :: rest → x.cls = 17 → ctrVal s 4 (objTenant d x.frame.tenant) Cn.relayBad + 1 < 2 ^ 48 →
    goesTo (.serviceFrame dt d .dhcp6RelayForward) s fun t =>
      ctrVal t 4 (objTenant d x.frame.tenant) Cn.relayBad = ctrVal s 4 (objTenant d x.frame.tenant) Cn.relayBad + 1 ∧ t.q = s.q) ∧
  (∀ dt d x rest ch vid n s, svcQueue s d = x :: rest → x.cls = 23 → x.frame.dir = .up → s.svc.blocked.find? x.frame.ingress = none →
    goesTo (.serviceFrame dt d (.probe s.svc.probeValue ch vid n)) s fun t =>
      t.svc.blocked.find? x.frame.ingress ≠ none ∧
      raisedAmong Ev.loopDetected d [.u32 x.frame.ingress,
        .u16 (((bankOf s d x.frame.stitch).getD (cfgOf s)).valN Kind.flow x.frame.ingress Fld.flTerm), .u16 ch] s t ∧ t.q = s.q) ∧
  (∀ dt d mep rtt x rest y s, svcQueue s d = x :: rest → x.cls = 21 → seriesOf? s mep false = some y → y.mep = mep → y.trace = false →
    y.got.length + 1 < y.wanted →
    goesTo (.serviceFrame dt d (.lbr mep rtt)) s fun t =>
      seriesOf? t mep false = some { y with got := y.got ++ [rtt] } ∧ t.host = s.host) ∧
  (∀ dt d ten vid x s, s.svc.leaves = [] → (∀ y, y ∈ s.pon.terms.map (·.1) → y = x) → (s.pon.terms.map (·.1)).Nodup →
    goesTo (.mcastQueryTimer dt d ten vid) s fun t =>
      ∀ m, m ∈ (termOf t x).groups ↔ m ∈ (termOf s x).groups ∧
        ¬ ∃ ch m', (termOf s x).ch = some ch ∧ dieOfChannel ch = d ∧ m' ∈ (termOf s x).groups ∧ m'.1 = memKey ten vid ∧
          m'.2.2 + Time.sec 260 ≤ t.now ∧ m.1 = m'.1 ∧ m.2.1 = m'.2.1)

/-- At the holder, a CCM that is due is sent and its time kept. An expected remote not heard for 3.5 intervals is lost, and
CFM_CCM_LOSS names the end point and the remote. A served CFM_LBM of 1 to 1,000 messages, or CFM_LTM of a hop limit up to
255, of an end point without such a series starts one, and the ring runs it for at most 6 s or 5 s; a second one is answered
BUSY. A loop probe that is due is counted in its sequence and its time kept. A blocked flow with a hold time is unblocked
when it has passed, one without stays; a served LOOP_CLEAR unblocks it, and is answered STATE for a flow that is not blocked.
(09_service_engines.md, CFM (R248, R249); 09_service_engines.md, loop detection (R250); 14_host_commands.md, Opcodes
(CFM_LBM, CFM_LTM, LOOP_CLEAR)) -/
def Obligations.ContinuityLoopbackAndLoopProtection : Prop :=
  (∀ dt mep s, (cfgOf s).live Kind.mep mep = true → s.twin.held = true →
    (∀ last, s.svc.lastCcm.find? mep = some last → last + ccmInterval s mep ≤ s.now + dt) →
    goesTo (.ccmSend dt mep) s fun t => t.svc = { s.svc with lastCcm := s.svc.lastCcm.set mep t.now } ∧ t.host = s.host ∧ t.twin = s.twin) ∧
  (∀ dt mep rem r s, remoteOf? s mep rem = some r → (cfgOf s).live Kind.mep mep = true → rem ∈ expectedRemotes (cfgOf s) mep →
    r.lost = false → r.last + lossTime s mep ≤ s.now + dt → r.mep = mep → r.remote = rem →
    goesTo (.cfmCcmLoss dt mep rem) s fun t =>
      remoteOf? t mep rem = some { r with lost := true } ∧ raised Ev.cfmCcm (mepDie s mep) [.u32 mep, .u16 rem] s t ∧
      only [.svc, .ev] dt s t) ∧
  (∀ dt h mep target n s, serves Op.cfmLbm h s → (cfgOf s).has Kind.mep mep = true → 1 ≤ n → n ≤ 1000 →
    goesTo (.cfmLbm dt h mep target n) s fun t =>
      if seriesOf? s mep false = none then
        waitsFor Op.cfmLbm h (.lbm mep) (Time.sec 6) s t ∧
        t.svc = { s.svc with series := s.svc.series ++ [{ mep := mep, trace := false, target := target, wanted := n, port := h.port, ring := h.ring }] }
      else answered Op.cfmLbm h { status := St.busy } s t ∧ only [.host, .ev] dt s t) ∧
  (∀ dt h mep target ttl s, serves Op.cfmLtm h s → (cfgOf s).has Kind.mep mep = true → ttl ≤ 255 →
    goesTo (.cfmLtm dt h mep target ttl) s fun t =>
      if seriesOf? s mep true = none then
        waitsFor Op.cfmLtm h (.ltm mep) (Time.sec 5) s t ∧
        t.svc = { s.svc with series := s.svc.series ++ [{ mep := mep, trace := true, target := target, wanted := 1, port := h.port, ring := h.ring }] }
      else answered Op.cfmLtm h { status := St.busy } s t ∧ only [.host, .ev] dt s t) ∧
  (∀ dt d ten vid s, (cfgOf s).live Kind.vlan (2 ^ 18 * dieNum d + memKey ten vid) = true →
    (cfgOf s).val Kind.vlan (2 ^ 18 * dieNum d + memKey ten vid) Fld.vlLoop = 1 →
    0 ≤ (cfgOf s).val Kind.vlan (2 ^ 18 * dieNum d + memKey ten vid) Fld.vlGroup → s.twin.held = true →
    (∀ last, s.svc.lastProbe.find? (2 ^ 18 * dieNum d + memKey ten vid) = some last →
      last + Time.ms ((cfgOf s).val Kind.vlan (2 ^ 18 * dieNum d + memKey ten vid) Fld.vlLoopMs).toNat ≤ s.now + dt) →
    goesTo (.loopProbeSend dt d ten vid) s fun t =>
      t.svc.probeSeq.getD (2 ^ 18 * dieNum d + memKey ten vid) 0 = s.svc.probeSeq.getD (2 ^ 18 * dieNum d + memKey ten vid) 0 + 1 ∧
      t.svc.lastProbe.find? (2 ^ 18 * dieNum d + memKey ten vid) = some t.now ∧ t.host = s.host ∧ t.twin = s.twin) ∧
  (∀ dt f e s, s.svc.blocked.find? f = some e →
    goesTo (.loopHoldEnd dt f) s fun t =>
      t.svc = (if e ≠ 0 ∧ e ≤ t.now then { s.svc with blocked := s.svc.blocked.del f } else s.svc) ∧ only [.svc] dt s t) ∧
  (∀ dt h f s, serves Op.loopClear h s → (cfgOf s).has Kind.flow f = true →
    goesTo (.loopClear dt h f) s fun t =>
      if s.svc.blocked.find? f = none then answered Op.loopClear h { status := St.state } s t ∧ only [.host, .ev] dt s t
      else t.svc = { s.svc with blocked := s.svc.blocked.del f } ∧ answered Op.loopClear h {} s t ∧ only [.svc, .host, .ev] dt s t)

/-- A ready SOLO unit without token or guard whose TOKEN_IN has been inactive since the end of start-up claims the token after
100 ms on side 0 and 200 ms on side 1: TOKEN_OUT is active, YIELD_OUT inactive, the guard runs. An ARMED unit claims it when
TOKEN_IN falls. A guard of 10 us with TOKEN_IN inactive gives the token: held since T_k, with every lit cluster's laser and
first-frame instants set; an unpaired unit stays SOLO and a paired one is ACTIVE. A guard in which TOKEN_IN became active
ends on side 1 with TOKEN_OUT inactive, and starts again on side 0. TOKEN_IN that becomes active while the token is held
darkens every LASER_EN and raises TOKEN_CONFLICT; side 1 releases the token with its channels, side 0 keeps it. When TOKEN_IN
falls at a holder, the lit clusters whose instant has passed are lit again. (12_twin.md, the token (R306 to R308, R311);
12_twin.md, Table 12.1 (R310); 02_channels.md, channel states (R77)) -/
def Obligations.TheTokenIsClaimedGuardedAndContested : Prop :=
  (∀ dt quiet s, s.pwr.ready = true → s.twin.role = .solo → s.twin.held = false → s.twin.guardSince = none → s.twin.tokenIn = false →
    quiet ≤ s.pwr.readyAt → s.pwr.readyAt + Time.ms (if s.pwr.side = true then 200 else 100) ≤ s.now + dt →
    goesTo (.tokenClaim dt quiet) s fun t =>
      t.twin = { s.twin with tokenOut := true, yieldOut := false, guardSince := some t.now, takeover := false } ∧ only [.twin] dt s t) ∧
  (∀ dt quiet s, s.pwr.readyAt < quiet ∨ s.twin.tokenIn = true →
    goesTo (.tokenClaim dt quiet) s fun t => only [] dt s t) ∧
  (∀ dt s, s.twin.role = .armed → s.twin.guardSince = none →
    goesTo (.tokenInFall dt) s fun t =>
      t.twin = { s.twin with tokenIn := false, tokenOut := true, yieldOut := false, guardSince := some t.now, takeover := true } ∧
      only [.twin] dt s t) ∧
  (∀ dt s, s.twin.role ≠ .armed → s.twin.held = true →
    goesTo (.tokenInFall dt) s fun t =>
      t.twin = { s.twin with tokenIn := false, lasers := (litClusters s).filter fun k => (s.twin.lasersAt.find? k).isNone } ∧
      only [.twin] dt s t) ∧
  (∀ dt since s, s.twin.guardSince = some since → since + Time.us 10 ≤ s.now + dt → s.twin.takeover = false →
    goesTo (.tokenGuardEnd dt true) s fun t =>
      t.twin.held = true ∧ t.twin.tk = t.now ∧ t.twin.tokenOut = true ∧ t.twin.yieldOut = false ∧ t.twin.guardSince = none ∧
      t.twin.role = (if s.twin.paired = true then .active else .solo) ∧ t.twin.lasers = s.twin.lasers ∧
      t.twin.lasersAt = ((litClusters s).map fun c => (c, laserAt (tick dt s) c)) ∧
      t.twin.framesAt = ((litClusters s).map fun c => (c, laserAt (tick dt s) c + laserLead s c)) ∧ only [.twin, .ev] dt s t) ∧
  (∀ dt since s, s.twin.guardSince = some since → since + Time.us 10 ≤ s.now + dt →
    goesTo (.tokenGuardEnd dt false) s fun t =>
      (if s.pwr.side = true then t.twin.tokenOut = false ∧ t.twin.guardSince = none ∧ t.twin.lasers = [] ∧ t.twin.tokenIn = true
       else t.twin = { s.twin with guardSince := some t.now }) ∧ t.twin.held = s.twin.held ∧ t.twin.role = s.twin.role ∧
      only [.twin] dt s t) ∧
  (∀ dt s, s.twin.held = true →
    goesTo (.tokenConflict dt) s fun t =>
      t.twin.tokenIn = true ∧ t.twin.lasers = [] ∧ raisedAmong Ev.tokenConflict .east [] s t ∧
      if s.pwr.side = true then t.twin.held = false ∧ t.twin.tokenOut = false ∧ (∀ c, (chOf t c).st ≠ .active ∧ (chOf t c).st ≠ .starting)
      else t.twin.held = true ∧ t.pon = s.pon) ∧
  (∀ dt s, s.twin.held = false →
    goesTo (.tokenConflict dt) s fun t => t.twin = { s.twin with tokenIn := true } ∧ only [.twin] dt s t)

/-- The end of a takeover's guard makes the unit the ACTIVE holder: every time base but an UNSET one is ACQUIRING and, unless it
copies another base, keeps its value and its rate, no alteration pass runs, no software download is left, and
SERVICE_TAKEOVER is raised. At a holder whose TOKEN_IN is inactive, the clusters whose instant has come are lit, once each,
and leave the list. At the first frame of a cluster TWIN_TAKEOVER is raised once with the cause that YIELD_NOTICE gave, and
each of its SHADOW channels becomes DRAINING when it was in a shadow drain, else ACTIVE after a takeover and STARTING after a
claim; channels that were not SHADOW keep their state, and those of other clusters too. (12_twin.md, take-over (R320, R326 to
R328); 09_service_engines.md, takeover (R251); 02_channels.md, channel states (R77); 12_twin.md, gating (R308)) -/
def Obligations.ATakeoverLightsThenSends : Prop :=
  (∀ dt since s, s.twin.guardSince = some since → since + Time.us 10 ≤ s.now + dt → s.twin.takeover = true →
    goesTo (.tokenGuardEnd dt true) s fun t =>
      t.twin.held = true ∧ t.twin.tk = t.now ∧ t.twin.tokenOut = true ∧ t.twin.yieldOut = false ∧ t.twin.role = .active ∧
      t.pwr.passSince = none ∧ raisedAmong Ev.serviceTakeover .east [] s t ∧ (∀ x, (termOf t x).download = none) ∧
      ∀ b, b < 8 → (baseOf t b).st = (if (baseOf s b).st = .unset then .unset else .acquiring) ∧
        ((baseOf s b).source ≠ 4 → baseVal (baseOf t b) t.now = baseVal (baseOf s b) t.now ∧ (baseOf t b).rate = (baseOf s b).rate)) ∧
  (∀ dt s, s.twin.held = true → s.twin.tokenIn = false →
    goesTo (.laserRaise dt) s fun t =>
      t.twin.lasersAt = s.twin.lasersAt.filter (fun p => !decide (p.2 ≤ t.now)) ∧
      (∀ k, k ∈ t.twin.lasers ↔ k ∈ s.twin.lasers ∨ ∃ at_, (k, at_) ∈ s.twin.lasersAt ∧ at_ ≤ t.now) ∧
      t.twin = { s.twin with lasers := t.twin.lasers, lasersAt := t.twin.lasersAt } ∧ only [.twin] dt s t) ∧
  (∀ dt s, s.twin.held = false ∨ s.twin.tokenIn = true →
    goesTo (.laserRaise dt) s fun t => only [] dt s t) ∧
  (∀ dt s k at_, s.twin.held = true → (k, at_) ∈ s.twin.framesAt → at_ ≤ s.now + dt →
    goesTo (.takeoverFirstFrame dt) s fun t =>
      t.twin.framesAt = s.twin.framesAt.filter (fun p => !decide (p.2 ≤ t.now)) ∧
      (s.twin.takeover = true → s.twin.takeoverTold = false →
        raisedAmong Ev.twinTakeover .east [.u8 s.twin.yieldCause] s t ∧ t.twin.takeoverTold = true) ∧
      ∀ ch, (chOf t ch).st =
        if (chOf s ch).st ≠ .shadow ∨ (s.twin.framesAt.any fun p => p.1 == ch / 32 && decide (p.2 ≤ t.now)) = false then (chOf s ch).st
        else if (chOf s ch).drainFrom ≠ none then .draining else if s.twin.takeover = true then .active else .starting)

/-- A served HANDOVER of an ACTIVE holder whose partner is ARMED and whose channels are all protected makes it ARMED without the
token and is answered with the superframe count; while a stitch window is open it waits for its close, and then does the
same; in any other unit it is answered STATE. A served DISARM makes an ARMED unit DISARMED, and a served RESYNC makes a
DISARMED, paired unit with the Seam up SYNCING at step 2, with its staging set empty; elsewhere both are answered STATE. A
resync whose step in progress fails, or that has taken 5 s, makes the unit DISARMED with TWIN_RESYNC_FAILED and the step, to
try again 10 s later up to three times; the retry enters SYNCING with TWIN_RESYNC_START. (12_twin.md, handover (R312, R324);
12_twin.md, resynchronisation (R332) and Table 12.1; 14_host_commands.md, Opcodes (HANDOVER, DISARM, RESYNC)) -/
def Obligations.HandoverDisarmAndResync : Prop :=
  (∀ dt h s, serves Op.handover h s → handoverOk { s with twin := { s.twin with yieldIn := false } } = true → openStitch? s = none →
    goesTo (.handover dt h false) s fun t =>
      t.twin.held = false ∧ t.twin.role = .armed ∧ t.twin.tokenOut = false ∧ t.twin.lasers = [] ∧
      raisedAmong Ev.twinYield .east [.u8 Cause.handover] s t ∧ answered Op.handover h { result := [s.pon.sf.toNat] } s t ∧
      only [.twin, .pon, .host, .ev, .ctr] dt s t) ∧
  (∀ dt h s, serves Op.handover h s → handoverOk { s with twin := { s.twin with yieldIn := false } } = true → openStitch? s ≠ none →
    goesTo (.handover dt h false) s fun t =>
      waitsFor Op.handover h .handover (Time.ms 1) s t ∧ t.twin = { s.twin with yieldIn := false } ∧ only [.twin, .host] dt s t) ∧
  (∀ dt h s, serves Op.handover h s → s.twin.role ≠ .active ∨ s.twin.held = false →
    ∀ yld, goesTo (.handover dt h yld) s fun t =>
      answered Op.handover h { status := St.state } s t ∧ t.twin = { s.twin with yieldIn := yld } ∧ only [.twin, .host, .ev] dt s t) ∧
  (∀ dt s p r c, ringsWaiting s (fun w => w == .handover) = [(p, r)] → (ringOf s p r).running = some c → c.discard = false →
    linkOf s p = true → openStitch? s = none → handoverOk s = true →
    goesTo (.handoverYield dt) s fun t =>
      t.twin.held = false ∧ t.twin.role = .armed ∧ (ringOf t p r).running = none ∧
      (ringOf t p r).replies = (ringOf s p r).replies ++ [⟨c.opcode, St.ok, c.seq, c.session, stagingNumber s, 0, [s.pon.sf.toNat]⟩]) ∧
  (∀ dt h s, serves Op.disarm h s →
    goesTo (.disarm dt h) s fun t =>
      if s.twin.role = .armed ∧ s.twin.guardSince = none then
        t.twin.role = .disarmed ∧ t.twin.yieldOut = true ∧ t.twin.lastCause = Cause.hostCommand ∧
        raisedAmong Ev.twinRole .east [.u8 (roleNum .armed), .u8 (roleNum .disarmed), .u8 Cause.hostCommand] s t ∧
        answered Op.disarm h {} s t ∧ only [.twin, .host, .ev] dt s t
      else answered Op.disarm h { status := St.state } s t ∧ only [.host, .ev] dt s t) ∧
  (∀ dt h s, serves Op.resync h s →
    goesTo (.resync dt h) s fun t =>
      if s.twin.role = .disarmed ∧ s.twin.paired = true ∧ s.twin.seamUp = true then
        t.twin.role = .syncing ∧ t.twin.resyncStep = 2 ∧ t.twin.resyncSince = t.now ∧ t.stitch.staging = [] ∧
        raisedAmong Ev.twinResyncStart .east [] s t ∧ answered Op.resync h {} s t ∧ only [.twin, .stitch, .host, .ev] dt s t
      else answered Op.resync h { status := St.state } s t ∧ only [.host, .ev] dt s t) ∧
  (∀ dt step s, s.twin.role = .syncing → s.twin.resyncStep ≠ 0 →
    s.twin.resyncStep = step ∨ s.twin.resyncSince + Time.sec 5 ≤ s.now + dt →
    goesTo (.twinResyncFailed dt step) s fun t =>
      t.twin.role = .disarmed ∧ t.twin.resyncStep = 0 ∧
      t.twin.resyncRetryAt = (if s.twin.resyncTries < 3 then some (t.now + Time.sec 10) else none) ∧
      raisedAmong Ev.twinResyncFailed .east [.u8 s.twin.resyncStep] s t ∧ only [.twin, .ev] dt s t) ∧
  (∀ dt due s, s.twin.resyncRetryAt = some due → due ≤ s.now + dt → s.twin.role = .disarmed → s.twin.paired = true → s.twin.seamUp = true →
    goesTo (.resyncRetry dt) s fun t =>
      t.twin.role = .syncing ∧ t.twin.resyncTries = s.twin.resyncTries + 1 ∧ t.twin.resyncRetryAt = none ∧
      raisedAmong Ev.twinResyncStart .east [] s t ∧ only [.twin, .stitch, .ev] dt s t)

/-- A HELLO that a ready unit hears with a common version at or above both minima pairs the units under the highest one with the
partner's serial number and role and raises TWIN_PAIRED, and a holder is then ACTIVE; one without leaves the unit unpaired
and SOLO, with TWIN_VERSION_REFUSED naming both ranges. A message whose tag fails, whose sequence is not new or that comes
without a pairing key changes nothing but the count of such messages; sixteen of them within 1 s raise SEAM_INTEGRITY. With
no message for 1 ms the Seam is down, and 10 ms later an ARMED or SYNCING unit without a claim is DISARMED with
TWIN_SEAM_LOSS. At each whole second of time base 0 a paired unit sends its time bases, and every 10 us a standby its tally.
(12_twin.md, the Seam (R313, R314); 12_twin.md, pairing (R311, R317); 12_twin.md, Table 12.8 (R330); 12_twin.md, time over
the Seam (R320) and burst tally (R323)) -/
def Obligations.TheSeamOpensPairsAndFails : Prop :=
  (∀ dt sh lo hi mn ser role dg v s, hears true sh dt s → pairVersion s lo hi mn = some v →
    goesTo (.hello dt sh lo hi mn ser role dg) s fun t =>
      t.twin.paired = true ∧ t.twin.seamVersion = v ∧ t.twin.partnerSerial = ser ∧ t.twin.partnerRole = role ∧ t.twin.partnerDigest = dg ∧
      t.twin.held = s.twin.held ∧ (s.twin.held = true → t.twin.role = .active) ∧
      raisedAmong Ev.twinPaired .east [] s t ∧ heard sh t) ∧
  (∀ dt sh lo hi mn ser role dg s, hears true sh dt s → pairVersion s lo hi mn = none →
    goesTo (.hello dt sh lo hi mn ser role dg) s fun t =>
      t.twin.paired = false ∧ t.twin.role = .solo ∧
      raisedAmong Ev.twinVersionRefused .east [.u8 1, .u8 3, .u8 lo, .u8 hi] s t ∧ heard sh t ∧ only [.twin, .ev] dt s t) ∧
  (∀ dt sh n ph dg s, s.pwr.ready = true → sh.lane < 4 → seamLaneUp (tick dt s) sh.lane = true → badSeam false sh s = true →
    ctrVal s 5 8 Cn.seamBad + 1 < 2 ^ 48 →
    goesTo (.grid dt sh n ph dg) s fun t =>
      ctrVal t 5 8 Cn.seamBad = ctrVal s 5 8 Cn.seamBad + 1 ∧
      t.twin = { s.twin with badMsgs := (s.twin.badMsgs.filter fun x => decide (t.now < x + Time.sec 1)) ++ [t.now] } ∧
      only [.twin, .ctr] dt s t) ∧
  (∀ dt s, 16 ≤ (s.twin.badMsgs.filter fun x => decide (s.now + dt < x + Time.sec 1)).length →
    goesTo (.seamIntegrity dt) s fun t =>
      t.twin = { s.twin with badMsgs := [] } ∧ raised Ev.seamIntegrity .east [] s t ∧ only [.twin, .ev] dt s t) ∧
  (∀ dt s, s.twin.seamUp = true → s.twin.lastMsg + Time.ms 1 ≤ s.now + dt →
    goesTo (.seamDown dt) s fun t =>
      t.twin = { s.twin with seamUp := false, downSince := some t.now, aligned := false } ∧ only [.twin] dt s t) ∧
  (∀ dt since s, s.twin.downSince = some since → since + Time.ms 10 ≤ s.now + dt → s.twin.role = .armed ∨ s.twin.role = .syncing →
    s.twin.guardSince = none →
    goesTo (.twinSeamLoss dt) s fun t =>
      t.twin.role = .disarmed ∧ t.twin.yieldOut = true ∧ t.twin.lastCause = Cause.seamLoss ∧
      raisedAmong Ev.twinSeamLoss .east [] s t ∧ only [.twin, .ev] dt s t) ∧
  (∀ dt s, s.twin.paired = true → s.twin.seamUp = true → s.twin.lastCompare < baseNs (tick dt s) 0 / 10 ^ 9 →
    goesTo (.timeCompareSend dt) s fun t =>
      t.twin.lastCompare = baseNs t 0 / 10 ^ 9 ∧
      (∀ l, seamLane? (tick dt s) 0 = some l → ∀ n, n < 8 →
        ∃ seq, .seam l seq (.timeCompare n (baseVal (baseOf s n) t.now).toNat (baseOf s n).st) ∈ t.out) ∧ only [.twin] dt s t) ∧
  (∀ dt s, s.twin.paired = true → follows s = true → s.twin.seamUp = true → s.twin.lastTally + Time.us 10 ≤ s.now + dt →
    goesTo (.burstTallySend dt) s fun t =>
      t.twin.lastTally = t.now ∧ (∀ c, (chOf t c).burstLog = []) ∧ only [.twin, .pon] dt s t)

/-- A standby that hears a part of the stitch stream that is not older than the next: puts a record with its number at the end of
its staging set; empties the set on a discard; and, when it awaits no image, on a closing part whose count, number and digest
agree with its own, adds the stitch with the given B1 and a B2 125 us later to the pending ones and acknowledges, while one
that does not agree empties the set. At the holder an acknowledgement that agrees, or 20 us without one, ends every command
that waits for one with its result; without one TWIN_CONFIG_MISMATCH is raised. An aligned ARMED standby moves its grid
towards the holder's by whole steps of 0.16 ns, at most six for each message; a differing count, stitch number or digest
raises TWIN_CONFIG_MISMATCH and starts a resync, and otherwise it stays ARMED. One at step 6 for which everything compares
becomes ARMED. Each second of an aligned standby's drift check, a drift above 0.1 ppm makes it DISARMED and any other changes
nothing but the time of the check. (12_twin.md, configuration on the Seam (R316, R330); 12_twin.md, the grid (R315);
12_twin.md, Table 12.8; 12_twin.md, resynchronisation (R332)) -/
def Obligations.TheStandbyFollowsStitchesAndGrid : Prop :=
  (∀ dt sh n r num ch s, hears false sh dt s → standsBy s → s.stitch.partNo ≤ n →
    goesTo (.seamStitch dt sh (.record n r num ch)) s fun t => ∃ l x,
      t.stitch.staging = l ++ [x] ∧ l.map (·.body) = s.stitch.staging.map (·.body) ∧ x.body = r ∧ x.num = num ∧ x.chosen = ch ∧
      t.stitch.partNo = n + 1 ∧ t.stitch.pend = s.stitch.pend ∧ t.stitch.cfg = s.stitch.cfg ∧ heard sh t ∧ only [.twin, .stitch, .ctr, .ev] dt s t) ∧
  (∀ dt sh n s, hears false sh dt s → standsBy s → s.stitch.partNo ≤ n →
    goesTo (.seamStitch dt sh (.discard n)) s fun t =>
      t.stitch.staging = [] ∧ t.stitch.nextIndex = 0 ∧ t.stitch.partNo = n + 1 ∧ t.stitch.pend = s.stitch.pend ∧ t.stitch.cfg = s.stitch.cfg ∧
      heard sh t ∧ only [.twin, .stitch, .ctr, .ev] dt s t) ∧
  (∀ dt sh n num count b1 dg s, hears false sh dt s → standsBy s → s.stitch.partNo ≤ n → awaitsImage s = false →
    goesTo (.seamStitch dt sh (.closing n num count b1 dg)) s fun t =>
      t.stitch.staging = [] ∧ t.stitch.partNo = n + 1 ∧ heard sh t ∧ only [.twin, .stitch, .ctr, .pon, .ev] dt s t ∧
      if closingAgrees s num count dg = true then
        t.stitch.pend = s.stitch.pend ++ [{ number := num, recs := s.stitch.staging, b1 := b1, b2 := b1 + Time.us 125, digest := dg }] ∧
        (sh.ackReq = true → ∃ k, .seam sh.lane k (.ack sh.seq) ∈ t.out)
      else t.stitch.pend = s.stitch.pend ∧ t.out = []) ∧
  (∀ dt sh seqs s p r c result, hears false sh dt s → s.twin.paired = true → s.twin.held = true → s.stitch.ackDue ≠ none → seqs ≠ [] →
    r < 16 → (ringOf s p r).running = some c → c.wait = .stitchAck result → c.discard = false → linkOf s p = true →
    goesTo (.ack dt sh seqs true) s fun t =>
      t.stitch = { s.stitch with ackDue := none } ∧ (ringOf t p r).running = none ∧
      (ringOf t p r).replies = (ringOf s p r).replies ++ [⟨c.opcode, St.ok, c.seq, c.session, stagingNumber s, 0, result⟩] ∧
      heard sh t ∧ only [.twin, .stitch, .host, .ev, .ctr] dt s t) ∧
  (∀ dt s n due p r c result, s.stitch.ackDue = some (n, due) → due ≤ s.now + dt →
    r < 16 → (ringOf s p r).running = some c → c.wait = .stitchAck result → c.discard = false → linkOf s p = true →
    goesTo (.stitchAckTimeout dt) s fun t =>
      t.stitch = { s.stitch with ackDue := none } ∧ (ringOf t p r).running = none ∧
      (ringOf t p r).replies = (ringOf s p r).replies ++ [⟨c.opcode, St.ok, c.seq, c.session, stagingNumber s, 0, result⟩] ∧
      raisedAmong Ev.twinConfigMismatch .east [.u32 n.toNat, .u32 s.twin.partnerStitch.toNat, .u64 (lastDigest s).toNat,
        .u64 s.twin.partnerDigest.toNat] s t ∧ only [.stitch, .host, .ev] dt s t) ∧
  (∀ dt sh n ph dg s, hears false sh dt s → s.twin.paired = true → s.twin.held = false → s.twin.role = .armed → s.twin.guardSince = none →
    s.twin.aligned = true →
    goesTo (.grid dt sh n ph dg) s fun t =>
      t.pon = { s.pon with gridAt := ((s.pon.gridAt : Int) + gridMove (gridPhaseErr s ph)).toNat } ∧ t.twin.partnerDigest = dg ∧ heard sh t ∧
      if gridDiffers s sh n dg = true then
        t.twin.role = .syncing ∧ t.twin.resyncStep = 2 ∧ t.stitch.staging = [] ∧ only [.twin, .stitch, .pon, .ev, .ctr] dt s t ∧
        raisedAmong Ev.twinConfigMismatch .east [.u32 s.stitch.current.toNat, .u32 sh.stitch.toNat, .u64 s.stitch.digest.toNat, .u64 dg.toNat] s t
      else t.twin.role = .armed ∧ only [.twin, .pon, .ctr, .ev] dt s t) ∧
  (∀ dt sh n ph dg s, hears false sh dt s → s.twin.paired = true → s.twin.held = false → s.twin.role = .syncing → s.twin.resyncStep = 6 →
    s.twin.aligned = true → gridDiffers s sh n dg = false → armReady { s with twin := { s.twin with digestFit := true } } = true →
    goesTo (.grid dt sh n ph dg) s fun t =>
      t.twin.role = .armed ∧ t.twin.resyncStep = 0 ∧ t.twin.resyncTries = 0 ∧ raisedAmong Ev.twinArmed .east [] s t ∧ heard sh t ∧
      only [.twin, .pon, .ctr, .ev] dt s t) ∧
  (∀ dt drift s, follows s = true → s.twin.aligned = true → s.twin.seamUp = true → s.twin.lastDrift + Time.sec 1 ≤ s.now + dt →
    goesTo (.gridDriftCheck dt drift) s fun t =>
      if 100 < drift.natAbs then t.twin.role = .disarmed ∧ t.twin.lastDrift = t.now ∧ only [.twin, .ev] dt s t
      else t.twin = { s.twin with lastDrift := t.now } ∧ only [.twin] dt s t)

/-- A standby that hears: BUILD_INPUT takes the channel's share; a digest equal to its own counts it and at the eighth protects a
channel with tight deltas and no missing key; another digest raises TWIN_MAP_MISMATCH when ARMED; another or a missing one
ends the run and the protection; RANGING gives the terminal its channel, identifier, delay and equalisation, and an absent
one leaves; an accepted jump and a time set wait for their boundary; YIELD_NOTICE leaves its cause; a wrapped key is in the
owner's slot in its state, and one that fails changes no key and raises CONTEXT_INTEGRITY; a base within 100 ns counts as fit
and one beyond is unfit, with TWIN_TIME_UNFIT once; ALLOC_STATE sets the rotation and each named allocation. An image chunk
in order joins the image, one out of order makes the unit DISARMED with TWIN_RESYNC_FAILED 2, and the last one, when no
stitch was kept meanwhile, makes the configuration, the stitch number and D those of the image. A holder asked for a resync
owes the allocation states. A holder notes the last four granted bursts of a tally and, when they diverge on a channel with
OPERATIONAL terminals, yields if the host enabled it and the partner is ARMED. (12_twin.md, what the standby follows (R318,
R320, R321, R325); 12_twin.md, findings (R322, R323); 12_twin.md, disagreements and resynchronisation (R330 to R332);
10_cipher.md, keys on the Seam (R281); 05_bobbins.md, twin builds (R148)) -/
def Obligations.TheStandbyMirrorsTheHolder : Prop :=
  (∀ dt sh ch sf l share s, hears false sh dt s → standsBy s →
    goesTo (.buildInput dt sh ch sf l share) s fun t => (chOf t ch).share = share ∧ heard sh t) ∧
  (∀ dt sh ch sf d s, hears false sh dt s → standsBy s → (chOf s ch).ownDigest = some (sf, d) →
    goesTo (.mapDigest dt sh ch sf (some d)) s fun t =>
      (chOf t ch).digestRun = (chOf s ch).digestRun + 1 ∧ heard sh t ∧
      (8 ≤ (chOf s ch).digestRun + 1 → deltasTight (chOf s ch) = true → (chOf s ch).keyMissing = [] → (chOf t ch).isProtected = true) ∧
      only [.twin, .pon, .ctr, .ev] dt s t) ∧
  (∀ dt sh ch sf d own s, hears false sh dt s → standsBy s → (chOf s ch).ownDigest = some (sf, own) → own ≠ d →
    goesTo (.mapDigest dt sh ch sf (some d)) s fun t =>
      (chOf t ch).digestRun = 0 ∧ (chOf t ch).isProtected = false ∧ heard sh t ∧
      (s.twin.role = .armed → raisedAmong Ev.twinMapMismatch (dieOfChannel ch) [.u16 ch] s t)) ∧
  (∀ dt sh ch sf s, s.twin.paired = true →
    goesTo (.mapDigest dt sh ch sf none) s fun t =>
      (chOf t ch).digestRun = 0 ∧ (chOf t ch).isProtected = false ∧ only [.pon, .ev] dt s t) ∧
  (∀ dt sh x ch onu st rtd eqd arr s, hears false sh dt s → standsBy s → (cfgOf s).has Kind.terminal x = true →
    goesTo (.ranging dt sh x ch onu st rtd eqd arr) s fun t => heard sh t ∧
      if st = .absent ∨ st = .disabled then (termOf t x).st = st
      else (termOf t x).ch = some ch ∧ (termOf t x).onu = some onu ∧ (termOf t x).rtd = rtd ∧ (termOf t x).eqd = eqd) ∧
  (∀ dt sh b at_ step s, hears false sh dt s → standsBy s →
    goesTo (.hostEvent dt sh (.jumpAccept b at_ step)) s fun t =>
      (baseOf t b).heldJump = some step ∧ (baseOf t b).acceptAt = some (frameAt s at_) ∧ heard sh t ∧ only [.twin, .ctr, .time, .ev] dt s t) ∧
  (∀ dt sh b at_ v s, hears false sh dt s → standsBy s →
    goesTo (.hostEvent dt sh (.timeSet b at_ v)) s fun t =>
      (baseOf t b).setAt = some (frameAt s at_, v, (baseOf s b).source == 2) ∧ heard sh t ∧ only [.twin, .ctr, .time, .ev] dt s t) ∧
  (∀ dt sh cause s, hears false sh dt s → standsBy s →
    goesTo (.yieldNotice dt sh cause) s fun t => t.twin.yieldCause = cause ∧ heard sh t ∧ only [.twin, .ctr, .ev] dt s t) ∧
  (∀ dt sh d kind owner i ks key s, hears false sh dt s → standsBy s → i = 1 ∨ i = 2 → keyPlace s d kind owner →
    goesTo (.keyContext dt sh d kind owner i ks (some key) true) s fun t => heard sh t ∧ only [.twin, .ctr, .ciph, .pon, .ev] dt s t ∧
      (keyOf t d kind owner i).st = (match ks with | 1 => .loaded | 2 => .current | 3 => .retired | _ => .free) ∧
      (1 ≤ ks → (keyOf t d kind owner i).bytes = key)) ∧
  (∀ dt sh d kind owner i ks key s, hears false sh dt s → standsBy s →
    goesTo (.keyContext dt sh d kind owner i ks key false) s fun t =>
      t.ciph = s.ciph ∧ raisedAmong Ev.contextIntegrity .east [.u32 owner] s t ∧ heard sh t ∧ only [.twin, .ctr, .pon, .ev] dt s t) ∧
  (∀ dt sh n v st d s, hears false sh dt s → standsBy s → compareOf (tick dt s) n v st = some d → (baseOf s n).st ≠ .unset →
    goesTo (.timeCompare dt sh n v st) s fun t => heard sh t ∧
      if d.natAbs ≤ 100 * 65536 then n ∈ t.twin.basesFit
      else n ∉ t.twin.basesFit ∧ (baseOf t n).unfit = true ∧
        ((baseOf s n).unfit = false → raisedAmong Ev.twinTimeUnfit .east [.u8 n, nsArg d] s t)) ∧
  (∀ dt sh ch ptr allocs hints s, hears false sh dt s → standsBy s → (allocs.map (·.1)).Nodup →
    goesTo (.allocState dt sh ch ptr allocs hints) s fun t => (chOf t ch).rotation = ptr ∧ heard sh t ∧
      ∀ x, x ∈ allocs → (allocOf t x.1).backlog = x.2.1 ∧ (allocOf t x.1).creditA = x.2.2.1 ∧ (allocOf t x.1).creditM = x.2.2.2) ∧
  (∀ dt sh s, hears false sh dt s → s.twin.paired = true → s.twin.held = true →
    goesTo (.seamResync dt sh .request) s fun t =>
      t.twin.allocsWanted = true ∧ t.twin.held = true ∧ t.stitch.staging = s.stitch.staging ∧ heard sh t) ∧
  (∀ dt sh i last st dg recs pools privs ok s, hears false sh dt s → standsBy s → awaitsImage s = true →
    goesTo (.seamResync dt sh (.chunk i last st dg recs pools privs ok)) s fun t => heard sh t ∧
      (i ≠ s.twin.imageNext → t.twin.role = .disarmed ∧ raisedAmong Ev.twinResyncFailed .east [.u8 2] s t ∧ only [.twin, .ctr, .ev] dt s t) ∧
      (i = s.twin.imageNext → last = false →
        t.twin.imageRecs = s.twin.imageRecs ++ recs ∧ t.twin.imageNext = i + 1 ∧ only [.twin, .ctr, .ev] dt s t) ∧
      (i = s.twin.imageNext → last = true → ok = true → s.twin.keptStitches = [] →
        t.stitch.cfg = imageCfg (s.twin.imageRecs ++ recs) ∧ t.stitch.current = st ∧ t.stitch.digest = dg ∧ t.stitch.pend = [] ∧
        t.twin.imageRecs = [] ∧ t.twin.role = .syncing)) ∧
  (∀ dt sh e yld s, hears false sh dt s → s.twin.paired = true → s.twin.held = true →
    goesTo (.burstTally dt sh [e] yld) s fun t =>
      (chOf t e.ch).tallyRun = lastN 4 ((chOf s e.ch).tallyRun ++ [(e.ownAbsent, e.accepted)]) ∧ heard sh t ∧
      (diverges (chOf t e.ch) = true → opTerms s e.ch ≠ [] → (cfgOf s).on Kind.device 0 Fld.devYieldDiverge = true → yld = false →
        t.twin.held = false ∧ t.twin.role = .disarmed ∧ raisedAmong Ev.twinYield .east [.u8 Cause.divergence] s t) ∧
      (diverges (chOf t e.ch) = false → t.twin.held = true))

/-- At a grid boundary the superframe count and the grid advance by one frame; every channel that sends frames sends the PSBd
with the new count and the map of that count, or an empty one; each channel in step keeps its map's digest, and a paired unit
with the Seam up sends it and GRID; channels out of step are unchanged; before the boundary nothing happens. At the end of an
upstream frame of an ACTIVE or QUIET channel its figures start afresh; when at least four bursts of which more than half lie
within 2 ns of a median beyond 8 ns show a step, FEEDER_CHANGE is raised with it and every registered terminal's delay rises
by the step while its equalisation takes the clipped adjustment. At a search's window end an agreed step does the same;
without one the first search asks for a second, and the second raises FEEDER_SEARCH_FAILED. (02_channels.md, the grid and
frames (R49 to R53, R66, R68); 05_bobbins.md, the map digest (R147); 12_twin.md, the grid and digests (R315, R321);
04_activation_ranging.md, feeder changes (R118 to R121)) -/
def Obligations.FramesAndFeederChanges : Prop :=
  (∀ dt s, s.pon.gridOn = true → s.pon.gridAt + Time.frame ≤ s.now + dt → (s.pon.channels.map (·.1)).Nodup →
    goesTo (.gridBoundary dt) s fun t =>
      t.pon.sf = s.pon.sf + 1 ∧ t.pon.gridAt = s.pon.gridAt + Time.frame ∧
      (s.twin.paired = true → s.twin.seamUp = true → ∀ l, seamLane? (tick dt s) 0 = some l →
        ∃ n, .seam l n (.grid t.pon.sf s.stitch.digest) ∈ t.out) ∧
      (∀ c, inStep (tick dt s) c = false → chOf t c = chOf s c) ∧
      ∀ c, c ∈ s.pon.channels.map (·.1) → inStep (tick dt s) c = true →
        let m := frameMap { s with pon := { s.pon with sf := s.pon.sf + 1 } } c
        (chOf t c).ownDigest = some (m.sf, mapDigest c m) ∧ m.sf = t.pon.sf ∧ (chOf t c).nextMap = none ∧
        (sendsFrames (tick dt s) c = true → .psbd c t.pon.sf ∈ t.out ∧ .map c t.pon.sf (mapDigest c m) ∈ t.out)) ∧
  (∀ dt s, s.pon.gridOn = false ∨ s.now + dt < s.pon.gridAt + Time.frame →
    goesTo (.gridBoundary dt) s fun t => only [] dt s t) ∧
  (∀ dt ch gaps s m, (chOf s ch).st = .active ∨ (chOf s ch).st = .quiet → (s.pon.terms.map (·.1)).Nodup →
    directStep (chOf s ch).frOffsets = some m →
    goesTo (.upstreamFrameEnd dt ch gaps) s fun t =>
      (chOf t ch).frExpected = 0 ∧ (chOf t ch).frHeard = false ∧ (chOf t ch).frMissed = 0 ∧ (chOf t ch).frOffsets = [] ∧
      (chOf t ch).lastStep = some (m, s.pon.sf) ∧ raisedAmong Ev.feederChange (dieOfChannel ch) [.u16 ch, .u64 (m % 2 ^ 64).toNat] s t ∧
      ∀ x, x ∈ chTerms s ch → (termOf t x).rtd = (termOf s x).rtd + m ∧ (termOf t x).eqd = (termOf s x).eqd + adjustment s ch m) ∧
  (∀ dt ch gaps s, (chOf s ch).st = .active ∨ (chOf s ch).st = .quiet → directStep (chOf s ch).frOffsets = none →
    goesTo (.upstreamFrameEnd dt ch gaps) s fun t =>
      (chOf t ch).frExpected = 0 ∧ (chOf t ch).frHeard = false ∧ (chOf t ch).frMissed = 0 ∧ (chOf t ch).frOffsets = [] ∧
      (chOf t ch).missFrames = (if frameMissed (chOf s ch) = true then (chOf s ch).missFrames + 1 else 0) ∧
      (2 ≤ (chOf t ch).missFrames → (chOf s ch).search = none → (chOf s ch).los = false →
        ∃ y, (chOf t ch).search = some y ∧ y.second = false ∧ y.windowEnd = none)) ∧
  (∀ dt ch s x e answers, (chOf s ch).search = some x → x.windowEnd = some e → e ≤ s.now + dt → (s.pon.terms.map (·.1)).Nodup →
    goesTo (.feederSearchResult dt ch answers) s fun t =>
      match agreedStep answers with
      | some m =>
        (chOf t ch).search = none ∧ (chOf t ch).lastStep = some (m, s.pon.sf) ∧
        raisedAmong Ev.feederChange (dieOfChannel ch) [.u16 ch, .u64 (m % 2 ^ 64).toNat] s t ∧
        ∀ y, y ∈ chTerms s ch → (termOf t y).rtd = (termOf s y).rtd + m ∧ (termOf t y).eqd = (termOf s y).eqd + adjustment s ch m
      | none =>
        if x.second = true then
          (chOf t ch).search = none ∧ raised Ev.feederSearchFailed (dieOfChannel ch) [.u16 ch] s t ∧ only [.pon, .ev] dt s t
        else (∃ y, (chOf t ch).search = some y ∧ y.second = true ∧ y.windowEnd = none) ∧ only [.pon] dt s t)

/-- At the cut-off a channel whose bobbin is not quarantined, and which is not SHADOW, starts the build of the map of the next
count: its bursts and structures beside those of the windows stay under the limits of the channel's kind, its bursts lie
within the upstream frame, no two of them overlap, none overlaps a quiet window of the channel, and every window it opens
begins in its upstream frame after the start of it. The inbox is taken. A SHADOW channel takes its inbox and waits. When the
build is complete by its deadline its map waits for the frame, its fixed structures are the new carry-over map and its cue
items join the queue. At the deadline without a map the build is abandoned: the filtered carry-over map waits for the frame
and the map-late counter rises. A SHADOW channel without inputs 30 us before the frame builds on its own with
BUILD_INPUT_LATE and is unprotected. A bobbin that is awake and done takes a batch from the bobbin it prefers, and wakes 41
us before a frame that it works for. (05_bobbins.md, the build (R136 to R142, R148); 05_bobbins.md, placement (R141, R461);
05_bobbins.md, stealing (R143, R144); 05_bobbins.md, a missed deadline (R146); 05_bobbins.md, Doze (R155); 12_twin.md, twin
builds (R321)) -/
def Obligations.ABuildMakesAMapWithinItsLimits : Prop :=
  (∀ dt ch s, s.pon.gridOn = true → buildsMaps s ch = true → buildFree s ch = true → nextFrame s ≤ s.now + dt + Time.us 40 →
    shadows s ch = false → (bobOf s ch).quarantined = false →
    goesTo (.mapBuildStart dt ch) s fun t => (chOf t ch).inbox = [] ∧ ∃ b, (chOf t ch).build = some b ∧
      b.ch = ch ∧ b.carry = s.pon.sf + 1 ∧ b.map.sf = s.pon.sf + 1 ∧ b.t = s.pon.gridAt + Time.frame ∧ b.reports = (chOf s ch).inbox.length ∧
      b.map.bursts.length ≤ burstCap ch - b.map.winGrants.length ∧ structsOf b.map.bursts ≤ structCap ch - b.map.winGrants.length ∧
      (∀ x, x ∈ b.map.bursts → x.start + x.dur ≤ Time.frame ∧ ∀ g, g ∈ x.grants → g.start = x.start) ∧
      b.map.bursts.Pairwise (fun x y => x.start + x.dur ≤ y.start ∨ y.start + y.dur ≤ x.start) ∧
      (chOf t ch).windows = (chOf s ch).windows ++ b.map.windows ∧
      (∀ w, w ∈ b.map.windows → upStart s ch b.t ≤ w.start ∧ w.start < upStart s ch b.t + Time.frame) ∧
      ∀ x p, x ∈ b.map.bursts → p ∈ windowSpans (upStart s ch b.t) (chOf t ch).windows → x.start + x.dur ≤ p.1 ∨ p.2 ≤ x.start) ∧
  (∀ dt ch s, s.pon.gridOn = true → buildFree s ch = true → nextFrame s ≤ s.now + dt + Time.us 40 → shadows s ch = true →
    goesTo (.mapBuildStart dt ch) s fun t =>
      (chOf t ch).inbox = [] ∧ (chOf t ch).ingested = (chOf s ch).inbox.length ∧ (chOf t ch).build = none ∧ only [.pon] dt s t) ∧
  (∀ dt ch s b, (chOf s ch).build = some b → s.now + dt + deadlineLead s ch ≤ b.t →
    goesTo (.mapBuildDone dt ch) s fun t =>
      (chOf t ch).build = none ∧ (chOf t ch).nextMap = some b.map ∧ (chOf t ch).carryMap = some (carryOverOf b.map) ∧
      (chOf t ch).cue = ((chOf s ch).cue ++ cueItems (cfgAt s b.t) ch (upStart s ch b.t) (tick dt s) b.map).take Config.cueQueueMax ∧
      ((bobOf s ch).quarantined = false → restsNow t ch = true → (bobOf t ch).dozing = true) ∧ only [.pon, .ctr, .ev] dt s t) ∧
  (∀ dt ch s, s.pon.gridOn = true → buildsMaps s ch = true → (chOf s ch).nextMap = none →
    nextFrame s ≤ s.now + dt + deadlineLead s ch → ctrVal s 7 ch Cn.mapLate + 1 < 2 ^ 48 →
    goesTo (.mapDeadline dt ch) s fun t =>
      (chOf t ch).build = none ∧ (chOf t ch).nextMap = some (filteredCarry s ch (nextFrame s) (nextSf s)) ∧
      ctrVal t 7 ch Cn.mapLate = ctrVal s 7 ch Cn.mapLate + 1 ∧ only [.pon, .ctr, .ev] dt s t) ∧
  (∀ dt ch s, s.pon.gridOn = true → shadows s ch = true → buildFree s ch = true → nextFrame s ≤ s.now + dt + Time.us 30 →
    (bobOf s ch).quarantined = false →
    goesTo (.buildInputLate dt ch) s fun t =>
      (chOf t ch).isProtected = false ∧ (∃ b, (chOf t ch).build = some b ∧ b.map.sf = s.pon.sf + 1) ∧
      raisedAmong Ev.buildInputLate (dieOfChannel ch) [.u16 ch] s t ∧ only [.pon, .ctr, .ev] dt s t) ∧
  (∀ dt thief home s b, stealsNow s thief = true → preferred s thief = some home → (chOf s home).build = some b →
    ctrVal s 6 thief Cn.steals + 1 < 2 ^ 48 →
    goesTo (.batchSteal dt thief home) s fun t =>
      (chOf t home).build = some { b with batches := b.batches - 1, stolen := b.stolen ++ [thief] } ∧
      (bobOf t thief).stole = (bobOf s thief).stole + 1 ∧ ctrVal t 6 thief Cn.steals = ctrVal s 6 thief Cn.steals + 1 ∧
      only [.pon, .ctr, .ev] dt s t) ∧
  (∀ dt b s, s.pon.gridOn = true → (bobOf s b).quarantined = false → (b :: (bobOf s b).serves).any (buildsMaps s) = true →
    nextFrame s ≤ s.now + dt + Time.us 41 →
    goesTo (.bobbinWake dt b) s fun t =>
      bobOf t b = { bobOf s b with dozing := false, exposed := 0, stole := 0 } ∧ onlyKey b s.pon.bobbins t.pon.bobbins ∧ only [.pon] dt s t)

/-- At the end of a budget period the budget is the effective one and the shares of all channels together do not exceed it, or
the guaranteed bytes where these are more; BUDGET_OVERCOMMITTED is raised when they leave nothing. A served HINT for an
unknown allocation is answered HANDLE, for one without Express STATE, for a frame more than 64 ahead PARAMETER, for a past
frame or one that is built within 45 us LATE with the late counter; for a revoked allocation it is answered and dropped; a
new one on a die with no room is answered BUSY; otherwise it is kept under the ceiling in place of an earlier one for the
same frame. A bobbin that faults is quarantined with BOBBIN_FAULT and its builds are abandoned; another bobbin of its cluster
then serves its channels, and without one BOBBIN_POOL_EXHAUSTED is raised. (05_bobbins.md, the grant budget (R149 to R151);
05_bobbins.md, cooperative hints (R152 to R154); 05_bobbins.md, bobbin faults (R156, R157); 12_twin.md, findings (R322);
14_host_commands.md, Opcodes (HINT)) -/
def Obligations.SharesHintsAndFaultedBobbins : Prop :=
  (∀ dt s, s.pon.gridOn = true → s.pon.sf.toNat % 8 = 7 → s.pon.channels.sorted = true →
    goesTo (.budgetPeriodEnd dt) s fun t =>
      t.pon.budgetKnown = true ∧ t.pon.budget = effectiveBudget s (cfgOf s) ∧
      (t.pon.channels.map fun p => p.2.share).sum ≤ max t.pon.budget ((busyChannels s).map fun ch => guaranteedOf s (cfgOf s) ch).sum ∧
      (t.pon.budget < ((busyChannels s).map fun ch => guaranteedOf s (cfgOf s) ch).sum → raised Ev.budgetOvercommitted .east [] s t) ∧
      only [.pon, .ev, .twin] dt s t) ∧
  (∀ dt s, s.pon.gridOn = false ∨ s.pon.sf.toNat % 8 ≠ 7 → goesTo (.budgetPeriodEnd dt) s fun t => only [] dt s t) ∧
  (∀ dt h a f n s, serves Op.hint h s →
    goesTo (.hint dt h a f n) s fun t =>
      let ahead := (f - s.pon.sf).toNat
      if (cfgOf s).has Kind.alloc a = false then answered Op.hint h { status := St.handle } s t
      else if (cfgOf s).on Kind.alloc a Fld.alExpress = false then answered Op.hint h { status := St.state } s t
      else if 64 < ahead ∧ ahead < 2 ^ 50 then answered Op.hint h { status := St.parameter } s t
      else if 2 ^ 50 ≤ ahead ∨ frameAt s f < s.now + dt + Time.us 45 then answered Op.hint h { status := St.late } s t
      else if hintRevoked s a f = true then answered Op.hint h {} s t ∧ t.pon.hints = (pruneHints s).pon.hints
      else if ((pruneHints s).pon.hints.any fun p => p.2.alloc == a && p.2.sf == f) = false ∧
          Config.hintMax ≤ ((pruneHints s).pon.hints.filter fun p => p.1 == dieNum (dieOfChannel (allocChannel s a))).length then
        answered Op.hint h { status := St.busy } s t ∧ t.pon.hints = (pruneHints s).pon.hints
      else answered Op.hint h {} s t ∧ (∃ p, p ∈ t.pon.hints ∧ p.2 = ⟨a, f, min n (hintCeiling (cfgOf s) a)⟩) ∧
        ∀ p, p ∈ t.pon.hints → p.2.alloc = a → p.2.sf = f → p.2.bytes = min n (hintCeiling (cfgOf s) a)) ∧
  (∀ dt b yld s, (bobOf s b).quarantined = false →
    goesTo (.bobbinFault dt b yld) s fun t =>
      (bobOf t b).quarantined = true ∧ raisedAmong Ev.bobbinFault (dieOfBobbin b) [.u16 b] s t ∧
      (∀ c, c ∈ servedBy s b → (chOf t c).build = none) ∧
      ((clusterBobs s (clusterOf b)).filter (· ≠ b) ≠ [] →
        ∃ dst, dst ∈ clusterBobs s (clusterOf b) ∧ dst ≠ b ∧ ∀ c, c ∈ servedBy s b → c ∈ servedBy t dst) ∧
      ((clusterBobs s (clusterOf b)).filter (· ≠ b) = [] →
        raisedAmong Ev.bobbinPoolExhausted (dieOfBobbin b) [.u8 (clusterOf b)] s t)) ∧
  (∀ dt b yld s, (bobOf s b).quarantined = true → goesTo (.bobbinFault dt b yld) s fun t => only [] dt s t)

/-- The first item without a pulse pulses CUE with its two edges once the rise has come, on a channel that is neither DARK nor
FAULTED. A preload takes the item's record, after an error as EMPTY with FITTING_STORE_ERROR; the guard start swaps it in and
sets the rate. A directed burst leaves the queue: accepted, it counts for the channel and the terminal, ends the terminal's
loss run and the loss of signal, adapts the record and puts its correctable reports in the inbox; otherwise it counts in its
class and as lost, runs the loss count where R99 counts, and a preload failure changes the record. Without lock it counts as
lost only. Eight frames without signal raise UPSTREAM_LOS, a lost lock BURST_LANE_LOL, cleared when the reference is back.
The error interval judges the terminal's codewords against the channel's thresholds. The sweep empties every record beyond
its discard age, and FITTING_RESET empties a record or makes it STALE, after a burst being received. (03_burst_reception.md,
CUE, preload and swap (R82, R84, R88 to R90); 02_channels.md, burst classes (R56 to R58); 03_burst_reception.md, adaptation
and confidence (R85 to R87, R92 to R95); 03_burst_reception.md, preload failure and loss of signal (R98 to R101);
05_bobbins.md, reports (R134); 16_path_timing.md, the cue queue; 14_host_commands.md, Opcodes (FITTING_RESET)) -/
def Obligations.BurstLanesFollowTheirCues : Prop :=
  (∀ dt ch s c, (chOf s ch).cue.find? (fun c => !c.cued) = some c → (chOf s ch).st ≠ .dark → (chOf s ch).st ≠ .faulted →
    goesTo (.cuePulse dt ch) s fun t =>
      if ((s.now + dt : Nat) : Int) < (cueEdges s ch c).1 then t.out = [] ∧ only [] dt s t
      else t.out = [.cue ch (cueEdges s ch c).1 (cueEdges s ch c).2] ∧ only [.pon] dt s t ∧
        (chOf t ch).cue = modFirst (fun c => !c.cued) (fun c => { c with cued := true }) (chOf s ch).cue) ∧
  (∀ dt ch bad s c, (chOf s ch).cue.find? (fun c => !c.preloaded) = some c → lanesReceive s ch = true →
    let d := dieNum (dieOfTerm s c.term)
    ctrVal s 0 d Cn.storeErrors + 1 < 2 ^ 48 →
    goesTo (.fittingPreload dt ch bad) s fun t =>
      (chOf t ch).shadow = (if directed c = true then some c.term else none) ∧
      if bad = true ∧ directed c = true then
        (fitOf t c.term).st = .empty ∧ ctrVal t 0 d Cn.storeErrors = ctrVal s 0 d Cn.storeErrors + 1 ∧ only [.pon, .ctr, .ev] dt s t ∧
        raised Ev.fittingStoreError (dieOfTerm s c.term) [.u16 (termTree s c.term), .u16 (fitOf s c.term).slot] s t
      else only [.pon] dt s t ∧ t.pon.fits = s.pon.fits) ∧
  (∀ dt ch s c, (chOf s ch).cue.find? (fun c => c.preloaded && !c.swapped) = some c → lanesReceive s ch = true →
    goesTo (.burstGuardStart dt ch) s fun t =>
      (chOf t ch).laneRate = c.rate ∧ onlyKey ch s.pon.channels t.pon.channels ∧ only [.pon] dt s t ∧
      (chOf t ch).receiver = if directed c = true ∧ (chOf s ch).receiver = some c.term then (chOf s ch).receiver else (chOf s ch).shadow) ∧
  (∀ dt ch o s c rest, (chOf s ch).cue = c :: rest → lanesReceive s ch = true → directed c = true → (chOf s ch).lol = false →
    ctrVal s 7 ch (classCounter (classOf c o)) + 1 < 2 ^ 48 → ctrVal s 10 c.term Cn.termAccepted + 1 < 2 ^ 48 →
    ctrVal s 10 c.term Cn.lostBursts + 1 < 2 ^ 48 → (termOf s c.term).fitReset = none →
    goesTo (.burstReceive dt ch o) s fun t =>
      (chOf t ch).cue = rest ∧ ctrVal t 7 ch (classCounter (classOf c o)) = ctrVal s 7 ch (classCounter (classOf c o)) + 1 ∧
      if classOf c o = .accepted then
        ctrVal t 10 c.term Cn.termAccepted = ctrVal s 10 c.term Cn.termAccepted + 1 ∧ (termOf t c.term).lostRun = 0 ∧
        (chOf t ch).los = false ∧ fitOf t c.term = fitAfter s ch o (fitOf s c.term) ∧
        ((∀ r, r ∈ o.reports → cwOk o r.cw = true) → (chOf s ch).inbox.length + o.reports.length ≤ Config.inboxMax →
          (chOf t ch).inbox = (chOf s ch).inbox ++ o.reports.map fun r => ⟨r.allocId, r.bytes, c.sf⟩)
      else
        ctrVal t 10 c.term Cn.lostBursts = ctrVal s 10 c.term Cn.lostBursts + 1 ∧ (chOf t ch).inbox = (chOf s ch).inbox ∧
        (termOf t c.term).lostRun = (termOf s c.term).lostRun + (if c.quiet = none ∧ countsLoss s ch c.term = true then 1 else 0) ∧
        fitOf t c.term = (if classOf c o = .preloadFailure ∧ (chOf s ch).los = false then preloadFailed s c.term c.short (fitOf s c.term)
          else fitOf s c.term) ∧ only [.pon, .ctr, .ev] dt s t) ∧
  (∀ dt ch o s c rest, (chOf s ch).cue = c :: rest → lanesReceive s ch = true → directed c = true → (chOf s ch).lol = false →
    classOf c o = .accepted → (termOf s c.term).st = .operational → (termOf s c.term).ctxLost = false → ctxGood s slotData c.term o.ctx = false →
    o.ctx.spill = none → goesTo (.burstReceive dt ch o) s fun t => raisedAmong Ev.contextIntegrity (dieOfChannel ch) [.u32 c.term] s t) ∧
  (∀ dt ch o s c rest, (chOf s ch).cue = c :: rest → lanesReceive s ch = true → directed c = true → (chOf s ch).lol = true →
    ctrVal s 10 c.term Cn.lostBursts + 1 < 2 ^ 48 →
    goesTo (.burstReceive dt ch o) s fun t =>
      (chOf t ch).cue = rest ∧ ctrVal t 10 c.term Cn.lostBursts = ctrVal s 10 c.term Cn.lostBursts + 1 ∧ t.pon.terms = s.pon.terms ∧
      t.pon.fits = s.pon.fits ∧ only [.pon, .ctr, .ev] dt s t) ∧
  (∀ dt ch s, lanesReceive s ch = true → (chOf s ch).los = false → 8 ≤ (chOf s ch).losFrames →
    goesTo (.upstreamLos dt ch) s fun t =>
      chOf t ch = { chOf s ch with los := true } ∧ raised Ev.upstreamLos (dieOfChannel ch) [.u16 ch] s t ∧ only [.pon, .ev] dt s t) ∧
  (∀ dt ch s, goesTo (.burstLaneLol dt ch) s fun t =>
    chOf t ch = { chOf s ch with lol := true } ∧ only [.pon, .ev] dt s t ∧
    ((chOf s ch).lol = false → raised Ev.burstLaneLol (dieOfChannel ch) [.u16 ch] s t)) ∧
  (∀ dt ch s, (chOf s ch).lol = true → s.pwr.refFault.getD (quadrantOf ch) false = false →
    goesTo (.burstLaneLolClear dt ch) s fun t =>
      chOf t ch = { chOf s ch with lol := false } ∧ cleared Ev.burstLaneLol (dieOfChannel ch) [.u16 ch] s t ∧ only [.pon, .ev] dt s t) ∧
  (∀ dt x ch s, (termOf s x).ch = some ch → (termOf s x).berAt + Time.sec 1 ≤ s.now + dt → (termOf s x).cwTotal ≠ 0 →
    goesTo (.upstreamBerInterval dt x) s fun t =>
      (termOf t x).cwTotal = 0 ∧ (termOf t x).cwBad = 0 ∧ (termOf t x).berAt = t.now ∧ onlyKey x s.pon.terms t.pon.terms ∧
      (chValN s ch Fld.chDegM * (termOf s x).cwTotal < (termOf s x).cwBad * 10 ^ chValN s ch Fld.chDegN →
        (termOf t x).degraded = true ∧ ((termOf s x).degraded = false → raisedAmong Ev.upstreamDegrade (dieOfTerm s x) [.u16 x] s t)) ∧
      ((termOf s x).cwBad * 10 ^ chValN s ch Fld.chDegN < chValN s ch Fld.chDegM * (termOf s x).cwTotal → (termOf s x).degRun = 2 →
        (termOf t x).degraded = false) ∧
      (chValN s ch Fld.chFailM * (termOf s x).cwTotal < (termOf s x).cwBad * 10 ^ chValN s ch Fld.chFailN →
        (termOf t x).failed = true ∧ ((termOf s x).failed = false → raisedAmong Ev.upstreamFail (dieOfTerm s x) [.u16 x] s t)) ∧
      only [.pon, .ev] dt s t) ∧
  (∀ dt s, goesTo (.fittingSweep dt) s fun t =>
    t.pon = { s.pon with fits := t.pon.fits, lastSweep := t.now } ∧ only [.pon] dt s t ∧
    ∀ x f, s.pon.fits.find? x = some f → fitOf t x = if discardDue s x f = true then emptyFit s x f else f) ∧
  (∀ dt h x e s, serves Op.fittingReset h s →
    goesTo (.fittingReset dt h x e) s fun t =>
      if (cfgOf s).has Kind.terminal x = false then answered Op.fittingReset h { status := St.handle } s t ∧ only [.host, .ev] dt s t
      else if s.pon.fits.find? x = none then answered Op.fittingReset h { status := St.state } s t ∧ only [.host, .ev] dt s t
      else answered Op.fittingReset h {} s t ∧ only [.host, .ev, .pon, .twin] dt s t ∧
        if receiving s x = true then (termOf t x).fitReset = some e ∧ t.pon.fits = s.pon.fits
        else fitOf t x = if e = true then emptyFit s x (fitOf s x) else { fitOf s x with st := .stale, conf := 128 })

/-- On a channel that takes answers an unknown serial number raises UNKNOWN_SERIAL; an ABSENT terminal whose record allows the
channel is ASSIGNED with the chosen identifier and the highest common rate, Assign_ONU-ID waits and a QUIET channel becomes
ACTIVE; one registered elsewhere counts as a duplicate, a DISABLED one changes nothing. A registration of an ASSIGNED
terminal makes it RANGED with its delay and the equalisation to the target, and Ranging_Time waits. Its Acknowledge makes it
OPERATIONAL with TERMINAL_ACTIVATED; that of an outstanding correction moves delay and equalisation by its amount. An attempt
that is over, and a SEARCHING terminal past the loss time, are deactivated to ABSENT with their events. A correction
unanswered for 10 ms is judged on the next burst. Eight lost bursts over 1 ms make an OPERATIONAL terminal SEARCHING with a
window due. TERMINAL_ENABLE makes a DISABLED terminal ABSENT. (02_channels.md, discovery answers (R70, R71);
04_activation_ranging.md, activation (R109 to R113); 04_activation_ranging.md, drift corrections (R114, R115);
03_burst_reception.md, burst loss (R99); 04_activation_ranging.md, lost terminals (R125); 14_host_commands.md, Opcodes
(TERMINAL_ENABLE)) -/
def Obligations.TerminalsAreActivatedCorrectedAndLost : Prop :=
  (∀ dt ch ser r arr s, takesAnswers (tick dt s) ch = true → termOfSerial s (treeOf ch) ser = none → rateEnt? s Ev.unknownSerial ser = none →
    goesTo (.serialNumberOnu dt ch ser r arr) s fun t =>
      raised Ev.unknownSerial (dieOfChannel ch) [.u16 ch, .u64 ser] s t ∧ only [.ev] dt s t) ∧
  (∀ dt ch ser cap arr s x r o, takesAnswers (tick dt s) ch = true → termOfSerial s (treeOf ch) ser = some x → (termOf s x).st = .absent →
    (allowedChannels (cfgOf s) x).contains ch = true →
    isWide ch = true ∨ (allowedChannels (cfgOf s) x).length ≠ 2 ∨ narrowActs (tick dt s) x ch = true →
    grantedRate s x ch cap = some r → chooseOnu s x = some o →
    goesTo (.serialNumberOnu dt ch ser cap arr) s fun t =>
      (termOf t x).st = .assigned ∧ (termOf t x).ch = some ch ∧ (termOf t x).onu = some o ∧ (termOf t x).rate = r ∧
      (termOf t x).snArrival = arr ∧ (chOf t ch).st = .active ∧ onlyKey x s.pon.terms t.pon.terms ∧
      ploamWaits ch (.assignOnu o ((cfgOf s).valN Kind.terminal x Fld.trmSerial)) t ∧ only [.pon, .ctr, .twin, .ev] dt s t) ∧
  (∀ dt ch ser cap arr s x, takesAnswers (tick dt s) ch = true → termOfSerial s (treeOf ch) ser = some x →
    ctrVal s 7 ch Cn.duplicateDiscovery + 1 < 2 ^ 48 →
    goesTo (.serialNumberOnu dt ch ser cap arr) s fun t =>
      ((termOf s x).st = .disabled → only [] dt s t) ∧
      (registered (termOf s x).st = true → (termOf s x).ch ≠ some ch →
        ctrVal t 7 ch Cn.duplicateDiscovery = ctrVal s 7 ch Cn.duplicateDiscovery + 1 ∧ only [.ctr] dt s t)) ∧
  (∀ dt x c o arr s, followsHolder s x = false → (termOf s x).st = .assigned → (termOf s x).ch = some c → (termOf s x).onu = some o →
    hasPloamQueue (chOf s c).st = true →
    goesTo (.registration dt x arr) s fun t =>
      (termOf t x).st = .ranged ∧ (termOf t x).rtd = arr ∧ (termOf t x).eqd = (targetDelay s c : Int) - arr ∧ (termOf t x).needPloamu = true ∧
      ploamWaits c (.rangingTime o false ((targetDelay s c : Int) - arr)) t ∧ onlyKey x s.pon.terms t.pon.terms ∧
      only [.pon, .ctr, .twin, .ev] dt s t) ∧
  (∀ dt x s, followsHolder s x = false → (termOf s x).st = .ranged →
    goesTo (.acknowledge dt x .ranging) s fun t =>
      (termOf t x).st = .operational ∧ (termOf t x).enteredAt = t.now ∧ raisedAmong Ev.terminalActivated (dieOfTerm s x) [.u16 x] s t) ∧
  (∀ dt x c s, followsHolder s x = false → (termOf s x).st = .operational → (termOf s x).corr = some c →
    goesTo (.acknowledge dt x .ranging) s fun t =>
      (termOf t x).eqd = (termOf s x).eqd - c.amount ∧ (termOf t x).rtd = (termOf s x).rtd + c.amount ∧ (termOf t x).corr = none ∧
      (termOf t x).drift = [] ∧ onlyKey x s.pon.terms t.pon.terms ∧ only [.pon, .twin] dt s t) ∧
  (∀ dt x s, registered (termOf s x).st = true →
    goesTo (.acknowledge dt x .profile) s fun t =>
      (termOf t x).profAckDue = none ∧ (termOf t x).profResends = 0 ∧ (termOf t x).needPloamu = false ∧ only [.pon, .ev] dt s t) ∧
  (∀ dt x s, registered (termOf s x).st = true →
    goesTo (.acknowledge dt x .other) s fun t => termOf t x = { termOf s x with needPloamu := false } ∧ only [.pon] dt s t) ∧
  (∀ dt x c o s, activationOver (tick dt s) x = true → followsHolder s x = false → (termOf s x).ch = some c → (termOf s x).onu = some o →
    hasPloamQueue (chOf s c).st = true →
    goesTo (.activationFailed dt x) s fun t =>
      (termOf t x).st = .absent ∧ (termOf t x).ch = none ∧ (termOf t x).onu = none ∧ ploamWaits c (.deactivate o) t ∧
      raisedAmong Ev.activationFailed (dieOfTerm s x) [.u16 x] s t) ∧
  (∀ dt x c s, (termOf s x).corr = some c → c.judging = false → c.sentAt + Time.ms 10 ≤ s.now + dt →
    goesTo (.rangingCorrectionTimeout dt x) s fun t =>
      termOf t x = { termOf s x with corr := some { c with judging := true } } ∧ only [.pon] dt s t) ∧
  (∀ dt x c s, burstsLost (tick dt s) x = true → followsHolder s x = false → (termOf s x).underTest = false → (termOf s x).ch = some c →
    goesTo (.terminalBurstLoss dt x) s fun t =>
      (termOf t x).st = .searching ∧ (termOf t x).enteredAt = t.now ∧ (termOf t x).lostRun = 0 ∧
      (∃ w, w ∈ (chOf t c).windowsDue ∧ w.kind = .searching ∧ w.term = some x) ∧
      raisedAmong Ev.terminalBurstLoss (dieOfTerm s x) [.u16 x] s t) ∧
  (∀ dt x c o s, (termOf s x).st = .searching → followsHolder s x = false →
    (termOf s x).enteredAt + Time.ms ((cfgOf s).valN Kind.tree (termTree s x) Fld.treeLossMs) ≤ s.now + dt →
    (termOf s x).ch = some c → (termOf s x).onu = some o → hasPloamQueue (chOf s c).st = true →
    goesTo (.terminalLost dt x) s fun t =>
      (termOf t x).st = .absent ∧ (termOf t x).ch = none ∧ (termOf t x).onu = none ∧ ploamWaits c (.deactivate o) t ∧
      raisedAmong Ev.terminalLost (dieOfTerm s x) [.u16 x] s t) ∧
  (∀ dt h x s, serves Op.terminalEnable h s →
    goesTo (.terminalEnable dt h x) s fun t =>
      if (cfgOf s).has Kind.terminal x = false then answered Op.terminalEnable h { status := St.handle } s t ∧ only [.host, .ev] dt s t
      else if (termOf s x).st ≠ .disabled then answered Op.terminalEnable h { status := St.state } s t ∧ only [.host, .ev] dt s t
      else answered Op.terminalEnable h {} s t ∧
        termOf t x = { termOf s x with st := .absent, underTest := false, enteredAt := t.now } ∧
        onlyKey x s.pon.terms t.pon.terms ∧ only [.host, .ev, .pon, .ctr, .twin] dt s t)

/-- A discovery period that ends opens a window for each rate, or is postponed once and counted. STARTING becomes ACTIVE after 8
frames; ACTIVE becomes QUIET 1 s after the last registration, wakes 11 ms before its windows and sleeps after them; a drained
channel becomes DARK at a boundary and a fault makes a running one FAULTED with CHANNEL_FAULT, both with no PLOAM and no
reception left, and the holder yields if the host enabled it. A sleep request is answered by what the record allows; more
than 16 MIC failures within 1 s raise PLOAM_INTEGRITY; held messages join the queue up to 1,024; a profile unanswered is sent
again three times, then PROFILE_STALE. A suspicion raises ROGUE_SUSPECT, and with automatic isolation disables the terminal
that foreign bursts named; a check without energy isolates the disabled candidate, one with energy enables it and disables
the next, or ends unresolved. (02_channels.md, channel states (R73 to R76); 02_channels.md, PLOAM and profiles (R62, R63,
R67, R68); 02_channels.md, discovery windows (R107, R108); 04_activation_ranging.md, rogue terminals (R126 to R129);
17_power_clocks_reset.md, leaving Dormant (R408); 12_twin.md, findings (R322)) -/
def Obligations.ChannelsPloamAndRogues : Prop :=
  (∀ dt ch s, (chOf s ch).discNext ≤ s.now + dt → (chOf s ch).st = .active ∨ (chOf s ch).st = .shadow ∨ ((chOf s ch).st = .quiet ∧ (chOf s ch).awake = true) →
    ctrVal s 7 ch Cn.postponedDiscovery + 1 < 2 ^ 48 →
    goesTo (.discoveryPeriodExpiry dt ch) s fun t =>
      if discoveryBlocked s ch = true then
        (chOf t ch).discPostponed = true ∧ (chOf t ch).windowsDue = (chOf s ch).windowsDue ∧ only [.pon, .ctr] dt s t ∧
        ctrVal t 7 ch Cn.postponedDiscovery = ctrVal s 7 ch Cn.postponedDiscovery + (if (chOf s ch).discPostponed = true then 0 else 1)
      else
        (chOf t ch).windowsDue = (chOf s ch).windowsDue ++ (discoveryRates s ch).map (fun r => { kind := .discovery, rate := r, len := discoveryLength s ch }) ∧
        (chOf t ch).discPostponed = false ∧ (chOf t ch).discNext = (chOf s ch).discNext + discoveryPeriod s ch ∧ only [.pon] dt s t) ∧
  (∀ dt ch s, (chOf s ch).st = .starting → 8 ≤ (chOf s ch).framesSent →
    goesTo (.channelActive dt ch) s fun t =>
      (chOf t ch).st = .active ∧ (chOf t ch).discNext = t.now ∧ (chOf t ch).ploam = (chOf s ch).ploam ∧ only [.pon] dt s t) ∧
  (∀ dt ch s, (chOf s ch).st = .active → chTerms s ch = [] → (chOf s ch).lastRegistered + Time.sec 1 ≤ s.now + dt →
    goesTo (.channelQuiet dt ch) s fun t =>
      (chOf t ch).st = .quiet ∧ (chOf t ch).windowsDue = [] ∧ (chOf t ch).awake = staysAwake s ch ∧
      (chOf t ch).discNext = t.now + Time.ms ((cfgOf s).valN Kind.tree (treeOf ch) Fld.treeDiscQuietMs) ∧ only [.pon] dt s t) ∧
  (∀ dt ch s, (chOf s ch).st = .quiet → (chOf s ch).awake = false → (chOf s ch).discNext ≤ s.now + dt + Time.ms 11 →
    goesTo (.quietWake dt ch) s fun t =>
      chOf t ch = { chOf s ch with awake := true, readyAt := t.now + Time.ms 1 } ∧ only [.pon] dt s t) ∧
  (∀ dt ch s, (chOf s ch).st = .quiet → (chOf s ch).awake = true → windowsOver (tick dt s) ch = true → staysAwake s ch = false →
    goesTo (.quietSleep dt ch) s fun t => chOf t ch = { chOf s ch with awake := false } ∧ only [.pon] dt s t) ∧
  (∀ dt ch b1 s, (chOf s ch).drainFrom = some b1 → (chOf s ch).st = .draining ∨ (chOf s ch).st = .shadow →
    boundaryFrom s (drainEnd (chOf s ch) b1) ≤ s.now + dt →
    goesTo (.channelDark dt ch) s fun t =>
      (chOf t ch).st = .dark ∧ (chOf t ch).drainFrom = none ∧ (chOf t ch).ploam = [] ∧ (chOf t ch).ploamHeld = [] ∧ (chOf t ch).cue = [] ∧
      (chOf t ch).build = none ∧ (chOf t ch).windows = [] ∧ (chOf t ch).rogue = none ∧ only [.pon, .ctr, .ev] dt s t) ∧
  (∀ dt ch m yld s, (chOf s ch).st ≠ .dark → (chOf s ch).st ≠ .faulted →
    goesTo (.channelFault dt ch m yld) s fun t =>
      (chOf t ch).st = .faulted ∧ (chOf t ch).ploam = [] ∧ (chOf t ch).cue = [] ∧ (chOf t ch).build = none ∧ (chOf t ch).windows = [] ∧
      raisedAmong Ev.channelFault (dieOfChannel ch) [.u16 ch, .u8 (faultCause m)] s t ∧
      (s.twin.held = true → (cfgOf s).on Kind.device 0 Fld.devYieldChannel = true → yld = false →
        t.twin.held = false ∧ t.twin.role = .disarmed ∧ raisedAmong Ev.twinYield .east [.u8 Cause.channelFault] s t) ∧
      (s.twin.held = false → t.twin = { s.twin with yieldIn := yld })) ∧
  (∀ dt x c o mode s, registered (termOf s x).st = true → (termOf s x).ch = some c → (termOf s x).onu = some o →
    hasPloamQueue (chOf s c).st = true →
    goesTo (.sleepRequest dt x mode) s fun t =>
      let ok := decide (mode = 1 ∨ mode = 2) && (cfgOf s).on Kind.terminal x Fld.trmSleep
      (termOf t x).asleep = ok ∧ ploamWaits c (.sleepAllow o ok) t ∧ onlyKey x s.pon.terms t.pon.terms ∧ only [.pon, .ctr, .ev] dt s t) ∧
  (∀ dt x s, goesTo (.ploamIntegrity dt x) s fun t =>
    let n := ((termOf s x).micFails.filter fun k => decide (s.now + dt < k + Time.sec 1)).length
    (termOf t x).micHigh = decide (16 < n) ∧ onlyKey x s.pon.terms t.pon.terms ∧ only [.pon, .ev] dt s t ∧
    (16 < n → (termOf s x).micHigh = false → rateEnt? s Ev.ploamIntegrity x = none → raised Ev.ploamIntegrity (dieOfTerm s x) [.u16 x] s t)) ∧
  (∀ dt ch s, (chOf s ch).ploam.length ≤ Config.ploamMax →
    goesTo (.ploamBacklogRelease dt ch) s fun t =>
      (chOf t ch).ploam ++ (chOf t ch).ploamHeld = (chOf s ch).ploam ++ (chOf s ch).ploamHeld ∧
      (chOf t ch).ploam.length = min Config.ploamMax ((chOf s ch).ploam.length + (chOf s ch).ploamHeld.length) ∧ only [.pon] dt s t) ∧
  (∀ dt x due s, (termOf s x).profAckDue = some due → due ≤ s.now + dt →
    goesTo (.profileAckTimeout dt x) s fun t =>
      if (termOf s x).profResends < 3 then (termOf t x).profResends = (termOf s x).profResends + 1 ∧ only [.pon, .ctr, .ev] dt s t
      else (termOf t x).profAckDue = none ∧ (termOf t x).profResends = 0 ∧ raised Ev.profileStale (dieOfTerm s x) [.u16 x] s t ∧
        only [.pon, .ev] dt s t) ∧
  (∀ dt ch gain s, (chOf s ch).rogue = none → (chOf s ch).st = .active ∨ (chOf s ch).st = .quiet ∨ (chOf s ch).st = .shadow →
    foreignNamed (chOf s ch) (s.now + dt) ≠ none ∨ 8 ≤ (chOf s ch).gapFrames →
    goesTo (.rogueSuspect dt ch gain) s fun t =>
      (chOf t ch).rogue ≠ none ∧ raisedAmong Ev.rogueSuspect (dieOfChannel ch) [.u16 ch] s t ∧
      (autoIsolates s ch = false → only [.pon, .ev] dt s t ∧ t.pon.terms = s.pon.terms) ∧
      ∀ o x, autoIsolates s ch = true → foreignNamed (chOf s ch) (s.now + dt) = some o → termOfOnu s ch o = some x →
        (termOf t x).st = .disabled ∧ (termOf t x).underTest = true) ∧
  (∀ dt ch energy s r x, (chOf s ch).rogue = some r → r.current = some x → 2 ≤ (s.pon.sf - r.since).toNat →
    goesTo (.rogueCandidateCheck dt ch energy) s fun t =>
      if energy = false then
        (chOf t ch).rogue = none ∧ (termOf t x).underTest = false ∧ (termOf t x).st = (termOf s x).st ∧
        raised Ev.rogueIsolated (dieOfChannel ch) [.u16 x, .u64 ((cfgOf s).valN Kind.terminal x Fld.trmSerial)] s t ∧ only [.pon, .ev] dt s t
      else match r.candidates with
        | [] => (termOf t x).st = .absent ∧ (termOf t x).underTest = false ∧
          (∃ q, (chOf t ch).rogue = some q ∧ q.unresolved = true ∧ q.current = none) ∧ raisedAmong Ev.rogueUnresolved (dieOfChannel ch) [.u16 ch] s t
        | y :: rest => (x ≠ y → (termOf t x).st = .absent ∧ (termOf t x).underTest = false) ∧ (termOf t y).st = .disabled ∧
          (termOf t y).underTest = true ∧ ∃ q, (chOf t ch).rogue = some q ∧ q.current = some y ∧ q.candidates = rest)

/-- With the first pending stitch due and its window not open, the window opens: the configuration becomes the one between B1 and
B2, the current number and digest stay, both dies keep the old bank from now on, every revoked flow's frames are gone from
all queues, every terminal whose record the stitch deletes is no longer registered, and the last event is STITCH_OPEN with
the stitch's number and the STITCH field still current. Otherwise nothing happens. 100 us after B1 the blocks are checked:
when one that can lag has not confirmed, B2 moves to B1 + 250 us. 240 us after B1 the blocks still unconfirmed are
quarantined, and the stitch's objects that leave them are held closed. At B2 the number, the digest and the new configuration
take effect, the stitch is no longer pending, a DARK channel that it enables is STARTING with the token and SHADOW without
it, and the last event is STITCH_CLOSE with the new number and whether an object is held closed. (01_organisation.md, the
stitch window (R37, R39, R40, R42, R44); 01_organisation.md, Table 1.4; 07_classification.md, the pipeline banks (R202)) -/
def Obligations.AStitchRevokesAtB1AndOpensAtB2 : Prop :=
  (∀ dt s p, s.stitch.pend.head? = some p → p.opened = false → p.b1 ≤ s.now + dt →
    goesTo (.stitchOpen dt) s fun t =>
      t.stitch.pend = { p with opened := true } :: s.stitch.pend.drop 1 ∧ t.stitch.cfg = revokeCfg s.stitch.cfg p ∧
      t.stitch.current = s.stitch.current ∧ t.stitch.digest = s.stitch.digest ∧
      (∀ d, t.stitch.oldBanks.find? (dieNum d) = some ⟨bankStitch s, bankCfg s, t.now⟩) ∧
      (∀ n, (Kind.flow, n) ∈ stitchRefs p → isClosing t.stitch.cfg Kind.flow n = true →
        ∀ q f, f ∈ (queueOf t q).frames ++ (queueOf t q).oldFrames → ofFlows [n] f = false) ∧
      (∀ n, (Kind.terminal, n) ∈ stitchRefs p → (openCfg s.stitch.cfg p).has Kind.terminal n = false →
        registered (termOf t n).st = false) ∧
      (∃ l r, t.ev.held = s.ev.held ++ l ++ [r] ∧ r.num = Ev.stitchOpen ∧ r.clear = false ∧ r.stitch = s.stitch.current ∧
        r.args = [.u32 p.number.toNat]) ∧
      t.pwr = s.pwr ∧ t.time = s.time) ∧
  (∀ dt s, (∀ p, s.stitch.pend.head? = some p → p.opened = true ∨ s.now + dt < p.b1) →
    goesTo (.stitchOpen dt) s fun t => only [] dt s t) ∧
  (∀ dt l s p, s.stitch.pend.head? = some p → p.opened = true → p.checked = false → p.b1 + Time.us 100 ≤ s.now + dt →
    goesTo (.stitchConfirmCheck dt l) s fun t =>
      t.stitch = { s.stitch with pend := { p with checked := true, late := l.any (canLag s), b2 := if l.any (canLag s) then p.b1 + Time.us 250 else p.b2 } :: s.stitch.pend.drop 1 } ∧
      only [.stitch] dt s t) ∧
  (∀ dt l s p, s.stitch.pend.head? = some p → p.opened = true → p.late = true → p.quarantined = [] → p.b1 + Time.us 240 ≤ s.now + dt →
    goesTo (.stitchQuarantine dt l) s fun t =>
      t.stitch.pend = { p with quarantined := (l.filter (canLag s)).eraseDups } :: s.stitch.pend.drop 1 ∧
      t.stitch.heldObjs = s.stitch.heldObjs ++ heldBy p (l.filter (canLag s)).eraseDups t ∧
      ∀ b, b ∈ l → canLag s b = true →
        (locType b = 1 → (bobOf t (locPlace b)).quarantined = true) ∧
        (locType b = 2 → locPlace b % 2 = 1 → deepFaulted t (dieOfLoc b) = true) ∧
        (locType b = 3 → quarantinedLane t (locPlace b) = true) ∧
        (locType b = 4 ∨ locType b = 5 → b ∈ t.stitch.quarantined)) ∧
  (∀ dt s p, s.stitch.pend.head? = some p → p.opened = true → p.b2 ≤ s.now + dt →
    goesTo (.stitchClose dt) s fun t =>
      t.stitch.current = p.number ∧ t.stitch.digest = p.digest ∧ t.stitch.pend = s.stitch.pend.drop 1 ∧
      t.stitch.cfg = openCfg s.stitch.cfg p ∧ t.stitch.lastWindow = some (p.number, p.b1, p.b2) ∧
      (∀ c, (Kind.channel, c) ∈ stitchRefs p → rises s.stitch.cfg t.stitch.cfg Kind.channel c Fld.chEnable = true →
        (chOf s c).st = .dark → (chOf t c).st = if s.twin.held = true then .starting else .shadow) ∧
      (∃ l r, t.ev.held = s.ev.held ++ l ++ [r] ∧ r.num = Ev.stitchClose ∧ r.clear = false ∧ r.stitch = p.number ∧
        r.args = [.u32 p.number.toNat, .u8 (bit !s.stitch.heldObjs.isEmpty)]))

/-- The rows of the next stitch are written to a die's incoming bank, once, while the die holds no old bank; an old bank is
released 20 us after the switch at the latest, and then no row of the die belongs to it alone. When the move of an object
other than a queue is complete, the object stands at its new place, not moving, with one more move; the die's counter of
load-driven or fault-driven moves of its kind is one higher, and the object is no longer held closed. A queue's move waits
while its old instance still holds frames. A lane's load sample at or below 90 % ends its overload; above it for 10 ms, an
object of the lane that may be moved and that another lane can take starts a move there that is load-driven.
(07_classification.md, the pipeline banks (R202, R213); 01_organisation.md, placement (R21, R22, R23, R26, Table 1.3)) -/
def Obligations.BanksPlacesAndLoads : Prop :=
  (∀ dt d s p, s.stitch.pend.find? (fun x => !x.opened) = some p → bankIsWritten s d = false → s.stitch.oldBanks.find? (dieNum d) = none →
    goesTo (.classifierBankWrite dt d) s fun t =>
      t.stitch = { s.stitch with bankWritten := s.stitch.bankWritten.set (dieNum d) true, places := t.stitch.places } ∧
      (∀ k, k % 2 ^ 20 / 65536 ≠ dieNum d → t.tab.rows.find? k = s.tab.rows.find? k) ∧ only [.stitch, .tab] dt s t) ∧
  (∀ dt d s, bankIsWritten s d = true ∨ s.stitch.oldBanks.find? (dieNum d) ≠ none →
    goesTo (.classifierBankWrite dt d) s fun t => only [] dt s t) ∧
  (∀ dt d b s o, s.stitch.oldBanks.find? (dieNum d) = some o → o.since + Time.us 20 ≤ s.now + dt →
    goesTo (.bankRelease dt d b) s fun t =>
      t.stitch.oldBanks.find? (dieNum d) = none ∧
      (∀ x, x ∈ t.tab.rows → x.1 % 2 ^ 20 / 65536 = dieNum d → x.2.inNew = true ∧ x.2.inOld = true) ∧
      t.stitch = { s.stitch with oldBanks := t.stitch.oldBanks } ∧ only [.stitch, .tab, .q, .ctr, .ev] dt s t) ∧
  (∀ dt kind num s p dst, placeOf? s kind num = some p → p.moving = some dst → kind ≠ Kind.queue →
    ctrVal s 0 (dieNum (dieOfLoc dst)) (if p.faultMove then Cn.movesFault kind else Cn.movesLoad kind) + 1 < 2 ^ 48 →
    goesTo (.placementMoveDone dt kind num) s fun t =>
      placeOf? t kind num = some { p with loc := dst, moving := none, faultMove := false, moves := p.moves + 1 } ∧
      t.stitch.heldObjs = s.stitch.heldObjs.filter (· != (kind, num)) ∧
      (∀ k n, k ≠ kind ∨ n ≠ num → placeOf? t k n = placeOf? s k n) ∧
      ctrVal t 0 (dieNum (dieOfLoc dst)) (if p.faultMove then Cn.movesFault kind else Cn.movesLoad kind)
        = ctrVal s 0 (dieNum (dieOfLoc dst)) (if p.faultMove then Cn.movesFault kind else Cn.movesLoad kind) + 1 ∧
      only [.stitch, .tab, .ctr, .ev] dt s t) ∧
  (∀ dt num s p dst, placeOf? s Kind.queue num = some p → p.moving = some dst → (queueOf s num).oldFrames ≠ [] →
    goesTo (.placementMoveDone dt Kind.queue num) s fun t => only [] dt s t) ∧
  (∀ dt lane pct s, pct ≤ 90 →
    goesTo (.cipherLoadRebalance dt lane pct) s fun t =>
      t.ciph.loads.find? lane = some pct ∧ t.ciph.loadSince.find? lane = none ∧ only [.ciph, .ev] dt s t) ∧
  (∀ dt lane pct s since p, 90 < pct → s.ciph.loadSince.find? lane = some since → since + Time.ms 10 ≤ s.now + dt →
    (movableOn s lane).head? = some p →
    laneChoices { s with ciph := { s.ciph with loads := s.ciph.loads.set lane pct } } (dieOfLoc p.loc)
      (p.loc :: (objOr (cfgOf s) p.kind p.num).forbid) ≠ [] →
    goesTo (.cipherLoadRebalance dt lane pct) s fun t =>
      (∃ l, l ≠ lane ∧ placeOf? t p.kind p.num = some { p with moving := some (locLane l), faultMove := false }) ∧
      t.ciph.loads.find? lane = some pct ∧ t.ciph.loadSince.find? lane = some t.now ∧ only [.ciph, .ev, .stitch] dt s t)

/-- A downstream frame at a port that is down has no effect; a MAC control frame is counted and discarded; under MACsec, one
without a SecTAG that is no key agreement frame, one that finds the ingress buffer full, one whose association is not usable
and one that is not valid are each counted and dropped, and one whose context fails its reload stops its association; one
without a tenant is counted as exception 5 of tenant 0. An upstream frame of a flow that is not open is discarded and
counted, one of a blocked flow is dropped. An upstream frame that no row matches, whose tenant lets NO_MATCH continue, which
no policer or trap takes and whose destination is a PORT entry of its VLAN goes to that port, unchanged, in its PCP's class,
green, under the bank's stitch number. One whose row drops it is counted with the row's hit; one whose row recirculates waits
for its second pass. The second pass of a frame whose bank is gone is a discard; one whose row would recirculate again is
exception 7, never a third pass. A hold window closes 1 ms after it opened. At an age period's end every dynamic entry of the
die's destinations loses its hit flag. (07_classification.md, the pipelines (R188, R191, R197, R206, R207, R211, R212, R213);
08_forwarding_tables.md, forwarding (R222, R225, R226, R229); 13_serial_lanes.md, uplink ports (R340); 10_cipher.md, MACsec
(R256, R275, R278 to R280); 01_organisation.md, the stitch window (R41, R42)) -/
def Obligations.FramesPassThePipelines : Prop :=
  (∀ dt port b tag par s, portUp s port = false → goesTo (.pipelinePass dt .down port b tag par) s fun t => only [] dt s t) ∧
  (∀ dt port b tag par s, portUp s port = true → isMacControl b = true → ctrVal s 8 port Cn.macControl + 1 < 2 ^ 48 →
    ctrVal s 8 port Cn.rxFrames + 1 < 2 ^ 48 → ctrVal s 8 port Cn.rxBytes + b.length < 2 ^ 48 →
    goesTo (.pipelinePass dt .down port b tag par) s fun t =>
      ctrVal t 8 port Cn.macControl = ctrVal s 8 port Cn.macControl + 1 ∧ only [.ctr, .ev] dt s t) ∧
  (∀ dt port b par s, portUp s port = true → macsecOn s port = true → isMacControl b = false → isMka b = false → ctrVal s 8 port Cn.untagged + 1 < 2 ^ 48 →
    ctrVal s 8 port Cn.rxFrames + 1 < 2 ^ 48 → ctrVal s 8 port Cn.rxBytes + b.length < 2 ^ 48 →
    goesTo (.pipelinePass dt .down port b none par) s fun t =>
      ctrVal t 8 port Cn.untagged = ctrVal s 8 port Cn.untagged + 1 ∧
      ctrVal t 8 port Cn.rxFrames = ctrVal s 8 port Cn.rxFrames + 1 ∧
      ctrVal t 8 port Cn.rxBytes = ctrVal s 8 port Cn.rxBytes + b.length ∧ only [.ctr, .ev] dt s t) ∧
  (∀ dt port b tag par s, portUp s port = true → isMacControl b = true → ctrVal s 8 port Cn.macControl + 1 < 2 ^ 48 →
    ctrVal s 8 port Cn.rxFrames + 1 < 2 ^ 48 → ctrVal s 8 port Cn.rxBytes + b.length < 2 ^ 48 →
    goesTo (.pipelinePass dt .down port b tag par) s fun t =>
      ctrVal t 8 port Cn.macControl = ctrVal s 8 port Cn.macControl + 1 ∧ only [.ctr, .ev] dt s t) ∧
  (∀ dt port b par s, portUp s port = true → macsecOn s port = true → isMacControl b = false →
    ∀ m : SecTag, let a := assocNum port m.chan m.an
    ctrVal s 8 port Cn.ingressDrops + 1 < 2 ^ 48 → ctrVal s 9 (192 + a) Cn.noSa + 1 < 2 ^ 48 →
    ctrVal s 9 (192 + a) Cn.icvFail + 1 < 2 ^ 48 → (m.room = true → assocUsable s port a = true → m.ctx.spill = none) →
    (m.room = true → assocUsable s port a = true → ctxGood s slotSak a m.ctx = false ∨ m.icvOk = false ∨ replayed s port a m.pn = true) →
    goesTo (.pipelinePass dt .down port b (some m) par) s fun t =>
      ctrVal t 8 port Cn.ingressDrops = ctrVal s 8 port Cn.ingressDrops + (if m.room = false then 1 else 0) ∧
      (m.room = true → ctrVal t 9 (192 + a) Cn.noSa = ctrVal s 9 (192 + a) Cn.noSa + (if assocUsable s port a = true then 0 else 1)) ∧
      (m.room = true → assocUsable s port a = true → ctxGood s slotSak a m.ctx = false →
        (assocOf t a).stopped = true ∧ raisedAmong Ev.contextIntegrity (dieOfPort port) [.u32 a] s t ∧
        raisedAmong Ev.macsecSaStopped (dieOfPort port) [.u8 port, .u8 (a % 36)] s t ∧ only [.ctr, .ev, .ciph] dt s t) ∧
      (m.room = true → assocUsable s port a = true → ctxGood s slotSak a m.ctx = true → m.icvOk = false ∨ replayed s port a m.pn = true →
        ctrVal t 9 (192 + a) Cn.icvFail = ctrVal s 9 (192 + a) Cn.icvFail + 1 ∧ only [.ctr, .ev] dt s t)) ∧
  (∀ dt port b tag par s, portUp s port = true → isMacControl b = false → macsecOn s port = false → portTenant (bankCfg s) (dieOfPort port) port b = none →
    (bankCfg s).valN Kind.tenant 0 (Fld.tnPolicy (dirNum .down) 5) ≠ 1 →
    ctrVal s 1 (objTenant (dieOfPort port) 0) (Cn.exception 5) + 1 < 2 ^ 48 →
    goesTo (.pipelinePass dt .down port b tag par) s fun t =>
      ctrVal t 1 (objTenant (dieOfPort port) 0) (Cn.exception 5) = ctrVal s 1 (objTenant (dieOfPort port) 0) (Cn.exception 5) + 1 ∧
      only [.ctr, .ev] dt s t) ∧
  (∀ dt flow b tag par s, (bankCfg s).live Kind.flow flow = false →
    let d := dieNum (dieOfTerm s ((cfgOf s).valN Kind.flow flow Fld.flTerm))
    ctrVal s 0 d Cn.stitchDiscards + 1 < 2 ^ 48 →
    goesTo (.pipelinePass dt .up flow b tag par) s fun t =>
      ctrVal t 0 d Cn.stitchDiscards = ctrVal s 0 d Cn.stitchDiscards + 1 ∧ only [.ctr] dt s t) ∧
  (∀ dt flow b tag par s, (bankCfg s).live Kind.flow flow = true → loopBlocked s flow b = true →
    goesTo (.pipelinePass dt .up flow b tag par) s fun t => only [.ctr, .ev] dt s t) ∧
  (∀ dt flow b tag s e, (bankCfg s).live Kind.flow flow = true → loopBlocked s flow b = false →
    let p := upFirst (tick dt s) flow b
    let vl := 2 ^ 18 * dieNum p.die + 4096 * p.tenant + p.vid
    p.parse.exc = none → lenExc b p.parse = none → p.trap = none → searchRows s p.cfg p.die true p.key p.wide = [] →
    excAction p 6 = 2 → policerFor p none = none → p.cfg.has Kind.vlan vl = true → p.cfg.on Kind.vlan vl Fld.vlLearn = false →
    fmtLookup s p (rd b 0 6) = some e → e.dtype = 1 → portUp s e.dvalue = true → s.tab.recirc = [] → s.tab.exits = [] →
    goesTo (.pipelinePass dt .up flow b tag .none) s fun t =>
      (∃ f, t.q = { s.q with transit := s.q.transit ++ [⟨f, .port e.dvalue, p.die⟩] } ∧
        f = { p.frame with parsedLen := parsedLen b p.parse, cls := p.pcp, colour := 0 }) ∧ only [.q, .ctr, .ev] dt s t) ∧
  (∀ dt flow b tag s h l, (bankCfg s).live Kind.flow flow = true → loopBlocked s flow b = false →
    let p := upFirst (tick dt s) flow b
    p.parse.exc = none → lenExc b p.parse = none → p.trap = none → searchRows s p.cfg p.die true p.key p.wide = h :: l →
    p.cfg.val Kind.row h.num Fld.rwRecirc < 0 → policerFor p (some h) = none → p.cfg.valN Kind.row h.num Fld.rwDisposition = 1 →
    ctrVal s 1 (objTenant p.die p.tenant) Cn.policyDrops + 1 < 2 ^ 48 →
    goesTo (.pipelinePass dt .up flow b tag .none) s fun t =>
      ctrVal t 1 (objTenant p.die p.tenant) Cn.policyDrops = ctrVal s 1 (objTenant p.die p.tenant) Cn.policyDrops + 1 ∧
      (t.tab.rows.find? h.key).map (·.hits) = (s.tab.rows.find? h.key).map (·.hits + 1) ∧ only [.tab, .ctr, .ev] dt s t) ∧
  (∀ dt flow b tag s h l, (bankCfg s).live Kind.flow flow = true → loopBlocked s flow b = false →
    let p := upFirst (tick dt s) flow b
    let k := pipeKey p.die .up (upPipe flow)
    p.parse.exc = none → lenExc b p.parse = none → searchRows s p.cfg p.die true p.key p.wide = h :: l →
    0 ≤ p.cfg.val Kind.row h.num Fld.rwRecirc → (s.tab.recirc.getD k []).length < 256 →
    goesTo (.pipelinePass dt .up flow b tag .none) s fun t =>
      t.tab.recirc.getD k [] = s.tab.recirc.getD k [] ++
        [⟨{ p.frame with parsedLen := parsedLen b p.parse }, p.cfg.valN Kind.row h.num Fld.rwRecirc, p.parse.stackEnd⟩] ∧
      only [.tab, .ctr, .ev] dt s t) ∧
  (∀ dt die dir pipe s r rest, s.tab.recirc.getD (pipeKey die dir pipe) [] = r :: rest →
    bankOf s die r.frame.stitch = none → ctrVal s 0 (dieNum die) Cn.stitchDiscards + 1 < 2 ^ 48 →
    goesTo (.recirculation dt die dir pipe) s fun t =>
      t.tab.recirc.getD (pipeKey die dir pipe) [] = rest ∧
      ctrVal t 0 (dieNum die) Cn.stitchDiscards = ctrVal s 0 (dieNum die) Cn.stitchDiscards + 1 ∧ only [.tab, .q, .ctr, .ev] dt s t) ∧
  (∀ dt die dir pipe s r rest c h l, s.tab.recirc.getD (pipeKey die dir pipe) [] = r :: rest →
    bankOf s die r.frame.stitch = some c →
    let p : Pass := { die := die, dir := dir, cfg := c, stitch := r.frame.stitch, frame := r.frame, second := some (r.profile, r.skip), pipe := pipe }
    p.parse.exc = none → lenExc r.frame.bytes p.parse = none →
    searchRows s c die (p.newBank s) p.key p.wide = h :: l → 0 ≤ c.val Kind.row h.num Fld.rwRecirc → excAction p 7 ≠ 1 →
    let code := if dir = .down then Cn.exception 7 else Cn.exceptionUp 7
    ctrVal s 1 (objTenant die p.tenant) code + 1 < 2 ^ 48 →
    goesTo (.recirculation dt die dir pipe) s fun t =>
      t.tab.recirc.getD (pipeKey die dir pipe) [] = rest ∧
      ctrVal t 1 (objTenant die p.tenant) code = ctrVal s 1 (objTenant die p.tenant) code + 1 ∧ only [.tab, .q, .ctr, .ev] dt s t) ∧
  (∀ dt die dir pipe s, s.tab.recirc.getD (pipeKey die dir pipe) [] = [] →
    goesTo (.recirculation dt die dir pipe) s fun t => only [] dt s t) ∧
  (∀ dt die tenant vid mac s h, holdOf s die tenant vid mac = some h →
    goesTo (.holdWindowClose dt die tenant vid mac) s fun t =>
      if h.opened + Time.ms 1 ≤ s.now + dt then t.tab = { s.tab with holds := s.tab.holds.erase h } ∧ only [.tab] dt s t
      else only [] dt s t) ∧
  (∀ dt die s, goesTo (.ageSweep dt die) s fun t =>
    if s.tab.lastAge.getD (dieNum die) 0 + Time.sec ((cfgOf s).valN Kind.die (dieNum die) Fld.dieAgeS) ≤ s.now + dt then
      fmtOf t die = (fmtOf s die).map (fun e => if sweeps s die e then { e with hit := false } else e) ∧
      fmtOf t (dieOf (1 - dieNum die)) = fmtOf s (dieOf (1 - dieNum die)) ∧
      t.tab.lastAge.find? (dieNum die) = some t.now ∧ only [.tab, .ctr, .ev] dt s t
    else only [] dt s t)

/-- The next frame on its way on a die leaves the transit. One that is revoked is a counted discard. An untimed one for a queue
is appended when it is not to a shadow channel, is within the channel's maximum frame, is not red, fits the limit of its
colour and finds cells; longer than the maximum it is counted as oversize; red or above the limit it is dropped and counted.
One for a port within the die's upstream limit and with cells free joins its class. When one queue alone can be chosen on a
channel that sends frames, its first frame goes out as an XGEM frame and its peak level falls by the counted length, unless
the frame would collide with a timed one or its context fails its reload, when it stays, CONTEXT_INTEGRITY is raised and a
fresh exchange starts; nothing goes out without a candidate or while a frame is cut through. An express frame ready for cut-
through leaves its queue, and its end is handed on at its parsed length, with a bad FCS when its bytes or its ICV are wrong.
Once per 64-cycle period due, each bucket rises by its rate up to its burst. (06_downstream_queues.md, the pans and queues
(R160, R161, R166, R172); 06_downstream_queues.md, the scheduler (R164, R165, R168, R173, R174); 06_downstream_queues.md,
shapers and policers (R170, R181); 10_cipher.md, Contexts (R275); 01_organisation.md, the stitch window (R42)) -/
def Obligations.QueuesTakeAndGiveFrames : Prop :=
  (∀ dt d s, nextTransit s d = none → goesTo (.queueEnqueue dt d) s fun t => only [] dt s t) ∧
  (∀ dt d s x, nextTransit s d = some x → readyTransit s x = .revoked → ctrVal s 0 (dieNum x.die) Cn.stitchDiscards + 1 < 2 ^ 48 →
    goesTo (.queueEnqueue dt d) s fun t =>
      t.q = { s.q with transit := s.q.transit.erase x } ∧
      ctrVal t 0 (dieNum x.die) Cn.stitchDiscards = ctrVal s 0 (dieNum x.die) Cn.stitchDiscards + 1 ∧ only [.q, .ctr] dt s t) ∧
  (∀ dt d s x q ch, nextTransit s d = some x → readyTransit s x = .open_ → x.dest = .queue q → timed? x.frame = none →
    queueChan? s q = some ch → shadowDrop s ch = false → x.frame.len ≤ chValN s ch Fld.chMaxFrame → x.frame.colour ≠ 2 →
    queueLen (queueOf s q) + x.frame.len ≤ queueLimit s q x.frame.colour → panRoom s (queueDie s q) (queueOf s q).deep x.frame = true →
    ctrVal s 11 q Cn.qEnqFrames + 1 < 2 ^ 48 →
    goesTo (.queueEnqueue dt d) s fun t =>
      inOrder t q = inOrder s q ++ [x.frame] ∧ (∀ k, k ≠ q → inOrder t k = inOrder s k) ∧ t.q.transit = s.q.transit.erase x ∧
      ctrVal t 11 q Cn.qEnqFrames = ctrVal s 11 q Cn.qEnqFrames + 1 ∧ only [.q, .ctr, .ev, .stitch] dt s t) ∧
  (∀ dt d s x q ch, nextTransit s d = some x → readyTransit s x = .open_ → x.dest = .queue q → timed? x.frame = none →
    queueChan? s q = some ch → shadowDrop s ch = false → chValN s ch Fld.chMaxFrame < x.frame.len → ctrVal s 7 ch Cn.oversize + 1 < 2 ^ 48 →
    goesTo (.queueEnqueue dt d) s fun t =>
      t.q = { s.q with transit := s.q.transit.erase x } ∧
      ctrVal t 7 ch Cn.oversize = ctrVal s 7 ch Cn.oversize + 1 ∧ only [.q, .ctr, .ev] dt s t) ∧
  (∀ dt d s x q ch, nextTransit s d = some x → readyTransit s x = .open_ → x.dest = .queue q → timed? x.frame = none →
    queueChan? s q = some ch → shadowDrop s ch = false → x.frame.len ≤ chValN s ch Fld.chMaxFrame →
    x.frame.colour = 2 ∨ queueLimit s q x.frame.colour < queueLen (queueOf s q) + x.frame.len →
    ctrVal s 11 q Cn.qDropFrames + 1 < 2 ^ 48 →
    goesTo (.queueEnqueue dt d) s fun t =>
      t.q = { s.q with transit := s.q.transit.erase x } ∧
      ctrVal t 11 q Cn.qDropFrames = ctrVal s 11 q Cn.qDropFrames + 1 ∧ only [.q, .ctr, .ev] dt s t) ∧
  (∀ dt d s x i, nextTransit s d = some x → readyTransit s x = .open_ → x.dest = .port i → timed? x.frame = none →
    256 * (cellsOf false (upstreamFrames s x.die) + ceilDiv x.frame.len 256) ≤ 2 ^ 20 * (cfgOf s).valN Kind.die (dieNum x.die) Fld.dieUpLimit →
    panRoom s x.die false x.frame = true →
    goesTo (.queueEnqueue dt d) s fun t =>
      t.q.ports.getD (classKey x.die i x.frame.cls) [] = s.q.ports.getD (classKey x.die i x.frame.cls) [] ++ [x.frame] ∧
      onlyKey (classKey x.die i x.frame.cls) s.q.ports t.q.ports ∧ (∀ k, inOrder t k = inOrder s k) ∧
      t.q.transit = s.q.transit.erase x ∧ only [.q, .ctr, .ev, .stitch] dt s t) ∧
  (∀ dt ch ctx s, sendsFrames (tick dt s) ch = false ∨ (chOf s ch).cut ≠ none ∨ contenders s ch = [] →
    goesTo (.schedulerDequeue dt ch ctx) s fun t => only [] dt s t) ∧
  (∀ dt ch ctx s q f, sendsFrames (tick dt s) ch = true → (chOf s ch).cut = none → soleQueue s ch q →
    ch < 512 → q < 2 ^ 40 → nodeOf s q < 2 ^ 40 → headFrame (queueOf s q) = some f →
    ctx.spill = none → (∀ k o, frameContext s ch f = some (k, o) → ctxGood s k o ctx = true) →
    goesTo (.schedulerDequeue dt ch ctx) s fun t =>
      if collides (tick dt s) ch f = true then only [] dt s t
      else
        inOrder t q = (inOrder s q).drop 1 ∧ (∀ k, k ≠ q → inOrder t k = inOrder s k) ∧
        .xgem ch (xgemPort s ch q f) ((sendIndex s ch f).getD 0) f.len false ∈ t.out ∧
        (shaperOf t Kind.queue q).peak = (shaperOf s Kind.queue q).peak - levelOf f.counted ∧
        only [.q, .pon, .ctr, .ev, .stitch] dt s t) ∧
  (∀ dt ch ctx s q f x, sendsFrames (tick dt s) ch = true → (chOf s ch).cut = none → soleQueue s ch q →
    ch < 512 → q < 2 ^ 40 → nodeOf s q < 2 ^ 40 → headFrame (queueOf s q) = some f → collides (tick dt s) ch f = false →
    ctx.spill = none → frameContext s ch f = some (slotData, x) → (termOf s x).ctxLost = false → ctxGood s slotData x ctx = false →
    goesTo (.schedulerDequeue dt ch ctx) s fun t =>
      (termOf t x).ctxLost = true ∧ t.q = s.q ∧ raisedAmong Ev.contextIntegrity (dieOfChannel ch) [.u32 x] s t ∧
      (s.twin.held = true → (termOf s x).st = .operational → ((termOf t x).exch.map (·.startedAt)) = some t.now) ∧
      only [.pon, .ciph, .twin, .ctr, .ev] dt s t) ∧
  (∀ dt ch n s q f k, sendsFrames (tick dt s) ch = true → (chOf s ch).cut = none → contenders s ch ≠ [] →
    cutReady (tick dt s) ch n = some (q, f, k) →
    goesTo (.cutThroughStart dt ch n) s fun t =>
      (chOf t ch).cut = some (f, k) ∧ inOrder t q = (inOrder s q).drop 1 ∧ only [.q, .pon, .ctr, .ev, .stitch] dt s t) ∧
  (∀ dt ch n icv s f k, (chOf s ch).cut = some (f, k) →
    goesTo (.cutThroughFrameEnd dt ch n icv) s fun t =>
      (chOf t ch).cut = none ∧ t.q = s.q ∧
      .xgem ch (xgemPort s ch ((chOf s ch).expressQ.getD 0) f) ((sendIndex s ch f).getD 0) k (n != k || !icv) ∈ t.out ∧
      only [.pon, .ctr, .ev] dt s t) ∧
  (∀ dt ch n icv s, (chOf s ch).cut = none → goesTo (.cutThroughFrameEnd dt ch n icv) s fun t => only [] dt s t) ∧
  (∀ dt s, s.q.shaperTicks < corePeriods (s.now + dt) →
    goesTo (.shaperRefill dt) s fun t =>
      t.q.shaperTicks = corePeriods t.now ∧ only [.q] dt s t ∧
      ∀ kind num x, num < 2 ^ 40 → s.q.shapers.find? (objKey kind num) = some x →
        let n := corePeriods t.now - s.q.shaperTicks
        let v := (cfgOf s).valN kind num
        (shaperOf t kind num).committed = max x.committed (min (x.committed + (n * v Fld.shCir / 4 : Nat)) (levelOf (v Fld.shCbs))) ∧
        (kind ≠ Kind.queue → (shaperOf t kind num).peak
          = max x.peak (min (x.peak + (n * v Fld.shPir / 4 : Nat)) (levelOf (v Fld.shPbs)))) ∧
        (shaperOf t kind num).deficit = x.deficit) ∧
  (∀ dt s, s.q.policerTicks < corePeriods (s.now + dt) →
    goesTo (.policerRefill dt) s fun t =>
      t.q.policerTicks = corePeriods t.now ∧ only [.q] dt s t ∧
      ∀ num x, s.q.policers.find? num = some x →
        let n := corePeriods t.now - s.q.policerTicks
        let v := (cfgOf s).valN Kind.policer num
        t.q.policers.find? num = some
          { tc := max x.tc (min (x.tc + (n * v Fld.poCir / 4 : Nat)) (levelOf (v Fld.poCbs)))
            tp := max x.tp (min (x.tp + (n * v Fld.poPir / 4 : Nat)) (levelOf (v Fld.poPbs))) })

/-- A timed frame that is due leaves its list: a destination that can send sends it, otherwise it is a counted launch miss;
before its instant nothing happens. A port that is down or paused sends nothing; otherwise the first frame of its highest
class goes out unless it would collide with a timed frame, the class turns to the other die, and under MACsec it uses a
packet number, or is counted and dropped without an association. FC_IN going active is counted and kept with its instant;
going inactive ends it; longer active than its limit raises FC_IN_STUCK once. An FC_OUT pin without a source is inactive; it
goes active at the high watermark, counted, and inactive at the low one after its minimum hold. FLUSH of an unknown queue is
answered HANDLE; of another it answers how many frames it discards, and the queue and its launches are gone. PORT_SEND is
answered HANDLE for a destination that does not exist, PARAMETER for a class or launch descriptor that does not suit, and
otherwise puts the frame on its way. (11_time.md, timed launch (R302, R304); 06_downstream_queues.md, timed frames (R177,
R178); 06_downstream_queues.md, FLUSH (R175); 06_downstream_queues.md, flow control (R184, R185, R186);
06_downstream_queues.md, upstream classes (R161); 13_serial_lanes.md, uplink ports (R340); 10_cipher.md, MACsec (R279);
14_host_commands.md, Opcodes (FLUSH, PORT_SEND)) -/
def Obligations.LaunchesPausesAndFlushes : Prop :=
  (∀ dt isPort dest s, (∀ e, (s.q.launches.getD (launchKey isPort dest) []).head? = some e → launchDue (tick dt s) isPort dest e = false) →
    goesTo (.timedLaunch dt isPort dest) s fun t => only [] dt s t) ∧
  (∀ dt isPort dest s e rest, s.q.launches.getD (launchKey isPort dest) [] = e :: rest →
    launchDue (tick dt s) isPort dest e = true →
    let n := if isPort then ctrVal s 8 dest Cn.portLaunchMiss else ctrVal s 7 dest Cn.launchMiss
    n + 1 < 2 ^ 48 →
    goesTo (.timedLaunch dt isPort dest) s fun t =>
      t.q.launches.getD (launchKey isPort dest) [] = rest ∧
      (if launchOpen (tick dt s) isPort dest e = true then
        (if isPort then macsecOn s dest = false → .uplinkFrame dest e.frame.bytes ∈ t.out
         else .xgem dest (xgemPort s dest e.queue e.frame) ((sendIndex s dest e.frame).getD 0) e.frame.len false ∈ t.out)
      else (if isPort then ctrVal t 8 dest Cn.portLaunchMiss else ctrVal t 7 dest Cn.launchMiss) = n + 1) ∧
      only [.q, .ctr, .ev, .ciph, .stitch] dt s t) ∧
  (∀ dt port s, portUp s port = false ∨ portPaused s port = true ∨ portNext s port = none →
    goesTo (.uplinkTransmit dt port) s fun t => only [] dt s t) ∧
  (∀ dt port s c d f rest, portUp s port = true → portPaused s port = false → portNext s port = some (c, d) → 
    s.q.ports.getD (classKey d port c) [] = f :: rest → ctrVal s 9 (192 + assocNum port 0 0) Cn.noSa + 1 < 2 ^ 48 →
    goesTo (.uplinkTransmit dt port) s fun t =>
      if portCollides (tick dt s) port f = true then only [] dt s t
      else
        t.q.ports.getD (classKey d port c) [] = rest ∧ t.q.lastDie.find? (8 * port + c) = some (d == .west) ∧
        (macsecOn s port = false ∨ isMka f.bytes = true → t.out = [.uplinkFrame port f.bytes] ∧ t.ciph = s.ciph) ∧
        (macsecOn s port = true → isMka f.bytes = false → match assocFor s port 0 with
          | none => t.out = [] ∧ t.ciph = s.ciph ∧
              ctrVal t 9 (192 + assocNum port 0 0) Cn.noSa = ctrVal s 9 (192 + assocNum port 0 0) Cn.noSa + 1
          | some a => t.out = [.uplinkFrame port f.bytes] ∧
              ((assocOf s a).pn.toNat < pnMax s port → (assocOf t a).pn = (assocOf s a).pn + 1) ∧
              (pnMax s port ≤ (assocOf s a).pn.toNat → (assocOf t a).stopped = true)) ∧
        only [.q, .ctr, .ev, .ciph, .stitch] dt s t) ∧
  (∀ dt pin s, (s.q.fcIn.getD pin {}).active = false → ctrVal s 0 0 (Cn.fcInAsserts pin) + 1 < 2 ^ 48 →
    goesTo (.fcInAssert dt pin) s fun t =>
      t.q = { s.q with fcIn := s.q.fcIn.set pin ⟨true, t.now, false⟩ } ∧
      ctrVal t 0 0 (Cn.fcInAsserts pin) = ctrVal s 0 0 (Cn.fcInAsserts pin) + 1 ∧ only [.q, .ctr] dt s t) ∧
  (∀ dt pin s, (s.q.fcIn.getD pin {}).active = true →
    (goesTo (.fcInAssert dt pin) s fun t => only [] dt s t) ∧
    (goesTo (.fcInDeassert dt pin) s fun t => t.q = { s.q with fcIn := s.q.fcIn.set pin {} } ∧ only [.q] dt s t) ∧
    goesTo (.fcInStuck dt pin) s fun t =>
      if (s.q.fcIn.getD pin {}).stuck = false ∧
          (s.q.fcIn.getD pin {}).since + Time.ms ((cfgOf s).valN Kind.fcIn pin Fld.fiStuckMs) < s.now + dt then
        t.q = { s.q with fcIn := s.q.fcIn.set pin { s.q.fcIn.getD pin {} with stuck := true } } ∧
        raised Ev.fcInStuck .east [.u8 pin] s t ∧ only [.q, .ev] dt s t
      else only [] dt s t) ∧
  (∀ dt pin s, ctrVal s 0 0 (Cn.fcOutAsserts pin) + 1 < 2 ^ 48 →
    let x := s.q.fcOut.getD pin {}
    goesTo (.fcOutHoldEnd dt pin) s fun t =>
      t.q = { s.q with fcOut := t.q.fcOut } ∧ onlyKey pin s.q.fcOut t.q.fcOut ∧
      (t.q.fcOut.getD pin {}).active = (match fcLevel s pin with
        | none => false
        | some v =>
          if x.active then
            !(decide (v ≤ fcMark s pin Fld.foLow) && decide (x.since + Time.us ((cfgOf s).valN Kind.fcOut pin Fld.foHoldUs) ≤ s.now + dt))
          else decide (fcMark s pin Fld.foHigh ≤ v)) ∧
      ctrVal t 0 0 (Cn.fcOutAsserts pin) = ctrVal s 0 0 (Cn.fcOutAsserts pin) +
        (if x.active = false ∧ (t.q.fcOut.getD pin {}).active = true then 1 else 0) ∧ only [.q, .ctr] dt s t) ∧
  (∀ dt h q s, serves Op.flush h s → queueExists s q = false →
    goesTo (.flush dt h q) s fun t => answered Op.flush h { status := St.handle } s t ∧ only [.host, .ev] dt s t) ∧
  (∀ dt h q s, serves Op.flush h s → queueExists s q = true →
    goesTo (.flush dt h q) s fun t =>
      replied Op.flush h { result := [flushCount s q] } s t ∧ inOrder t q = [] ∧ (∀ k, k ≠ q → inOrder t k = inOrder s k) ∧
      (∀ k e, k < 512 → e ∈ t.q.launches.getD k [] → e.queue ≠ q) ∧ only [.host, .ev, .q, .ctr, .stitch, .twin] dt s t) ∧
  (∀ dt h dest b l c s, serves Op.portSend h s →
    (match dest with | .port i => (cfgOf s).has Kind.subport i = false | .queue q => queueExists s q = false) →
    goesTo (.portSend dt h dest b l c) s fun t => answered Op.portSend h { status := St.handle } s t ∧ only [.host, .ev] dt s t) ∧
  (∀ dt h dest b l c s, serves Op.portSend h s →
    (match dest with
      | .port i => (cfgOf s).has Kind.subport i = true ∧ (7 < c ∨ descOk true 0 l = false)
      | .queue q => queueExists s q = true ∧ descOk false ((queueChan? s q).getD 0) l = false) →
    goesTo (.portSend dt h dest b l c) s fun t => answered Op.portSend h { status := St.parameter } s t ∧ only [.host, .ev] dt s t) ∧
  (∀ dt h dest b l c s, serves Op.portSend h s →
    (match dest with
      | .port i => (cfgOf s).has Kind.subport i = true ∧ c ≤ 7 ∧ descOk true 0 l = true
      | .queue q => queueExists s q = true ∧ descOk false ((queueChan? s q).getD 0) l = true) →
    goesTo (.portSend dt h dest b l c) s fun t =>
      answered Op.portSend h {} s t ∧
      (∃ x, t.q = { s.q with transit := s.q.transit ++ [x] } ∧ x.frame.bytes = b ∧ x.frame.launch = some l ∧
        x.frame.stitch = bankStitch s ∧
        (match dest with
          | .port i => x.dest = .port i ∧ x.die = dieOfPort i ∧ x.frame.cls = c
          | .queue q => x.dest = .queue q ∧ x.die = queueDie s q)) ∧ only [.host, .ev, .q] dt s t)

/-- A served SESSION_CLOSE ends the ring's session, and with it the event, notice, OMCI and launch rings that the session holds;
a punt pool that it attached is detached. No Thimble and no bank lock stays owned by its agent on its port, every Thimble and
bank lock of another owner stays with that owner, and the reply returns the number released. The staging set stays as it is.
(R368) -/
def Obligations.SessionCloseReleasesWhatItsAgentOwns : Prop :=
  ∀ dt h s se, serves Op.sessionClose h s → (ringOf s h.port h.ring).session = some se →
    goesTo (.sessionClose dt h) s fun t =>
      (ringOf t h.port h.ring).session = none ∧ (se.punt = true → (puntOf t h.port).pool = none) ∧
      (∀ n, n < 64 → (thimbleOf t n).owner =
        if (thimbleOf s n).owner = some (h.port, se.agent) then none else (thimbleOf s n).owner) ∧
      (∀ d b, b < 16 → (lockOf t d b).owner =
        if (lockOf s d b).owner = some (h.port, se.agent) then none else (lockOf s d b).owner) ∧
      replied Op.sessionClose h { result := [(thimblesOf s fun o => o == (h.port, se.agent)).length
        + (locksOf s fun o => o == (h.port, se.agent)).length] } s t ∧
      t.stitch.staging = s.stitch.staging ∧ t.stitch.nextIndex = s.stitch.nextIndex

/-- After a power-on reset every base is UNSET with the value 0. After a supply reset of VDD_AON (rail 2) or VDDIO_AON (rail 15)
it is too; after a supply reset of any other rail, and after a thermal reset, every base has the value that it had, and is
UNSET only if it was. (R458) -/
def Obligations.TimeBasesAreResetWithTheAlwaysOnDomain : Prop :=
  (∀ dt width s, Time.us 1 ≤ width → goesTo (.porstNAssert dt width) s fun t =>
    ∀ b, b < 8 → (baseOf t b).st = .unset ∧ baseVal (baseOf t b) t.now = 0) ∧
  (∀ dt rail mv s, rail = 2 ∨ rail = 15 → goesTo (.supplyReset dt rail mv) s fun t =>
    ∀ b, b < 8 → (baseOf t b).st = .unset ∧ baseVal (baseOf t b) t.now = 0) ∧
  (∀ dt rail mv s, rail ≠ 2 → rail ≠ 15 → goesTo (.supplyReset dt rail mv) s fun t =>
    ∀ b, b < 8 → baseVal (baseOf t b) t.now = baseVal (baseOf s b) t.now ∧ ((baseOf t b).st = .unset ↔ (baseOf s b).st = .unset)) ∧
  (∀ dt s, goesTo (.thermalReset dt) s fun t =>
    ∀ b, b < 8 → baseVal (baseOf t b) t.now = baseVal (baseOf s b) t.now ∧ ((baseOf t b).st = .unset ↔ (baseOf s b).st = .unset))

/-- A served STITCH that does not name the staging number is answered STALE_STITCH and accepts nothing. When a served STITCH has
been accepted, that is when a pending stitch was added, the number it named was the staging number, the staging number is now
its successor, and every STITCH that names the same number and is served from that state, on either port and by any ring, is
answered STALE_STITCH and accepts nothing. (R33) -/
def Obligations.OneStitchCommandSucceedsForEachNumber : Prop :=
  (∀ dt h y s, serves Op.stitch h s → h.stitch ≠ stagingNumber s →
    goesTo (.stitch dt h y) s fun t =>
      answered Op.stitch h { status := St.staleStitch } s t ∧ t.stitch.pend = s.stitch.pend) ∧
  (∀ dt h y s, serves Op.stitch h s →
    goesTo (.stitch dt h y) s fun t => t.stitch.pend ≠ s.stitch.pend →
      h.stitch = stagingNumber s ∧ stagingNumber t = succStitch h.stitch ∧
      ∀ dt' h' y', serves Op.stitch h' t → h'.stitch = h.stitch →
        goesTo (.stitch dt' h' y') t fun u =>
          answered Op.stitch h' { status := St.staleStitch } t u ∧ u.stitch.pend = t.stitch.pend)
end

