-- ==== Sys2Proof/Laws/Tab.lean ====
section
/-! SUPPORT. What a read of a keyed table gives after a write, and that every operation on a table keeps its keys rising. -/

namespace Sys2Proof

namespace Tab
variable {α : Type}

@[simp] theorem find?_set_same (k : Nat) (v : α) : ∀ t : Tab α, (set k v t).find? k = some v
  | [] => by simp [set, find?]
  | (j, w) :: t => by
    simp only [set]
    split
    · simp [find?]
    · split
      · simp [find?]
      · rename_i h; simp [find?, Ne.symm h, find?_set_same k v t]

theorem find?_set_ne (k m : Nat) (h : m ≠ k) (v : α) : ∀ t : Tab α, (set k v t).find? m = t.find? m
  | [] => by simp [set, find?, Ne.symm h]
  | (j, w) :: t => by
    simp only [set]
    split
    · simp [find?, Ne.symm h]
    · split
      · rename_i e; subst e; simp [find?, Ne.symm h]
      · simp only [find?]; split
        · rfl
        · exact find?_set_ne k m h v t

@[simp] theorem getD_set_same (k : Nat) (v d : α) (t : Tab α) : (set k v t).getD k d = v := by simp [getD]
theorem getD_set_ne (k m : Nat) (h : m ≠ k) (v d : α) (t : Tab α) : (set k v t).getD m d = t.getD m d := by
  simp [getD, find?_set_ne k m h]

@[simp] theorem find?_del_same (k : Nat) : ∀ t : Tab α, (del k t).find? k = none
  | [] => rfl
  | (j, w) :: t => by
    simp only [del]
    split
    · exact find?_del_same k t
    · rename_i h; simp [find?, h, find?_del_same k t]

theorem find?_del_ne (k m : Nat) (h : m ≠ k) : ∀ t : Tab α, (del k t).find? m = t.find? m
  | [] => rfl
  | (j, w) :: t => by
    simp only [del]
    split
    · rename_i e; subst e; simp [find?, Ne.symm h, find?_del_ne _ m h t]
    · simp only [find?]; split
      · rfl
      · exact find?_del_ne k m h t

@[simp] theorem getD_put_same [DecidableEq α] (d : α) (k : Nat) (v : α) (t : Tab α) : (put d k v t).getD k d = v := by
  unfold put getD
  split
  · rename_i e; simp [e]
  · simp
theorem getD_put_ne [DecidableEq α] (d : α) (k m : Nat) (h : m ≠ k) (v : α) (t : Tab α) : (put d k v t).getD m d = t.getD m d := by
  unfold put getD
  split
  · rw [find?_del_ne k m h]
  · rw [find?_set_ne k m h]

@[simp] theorem getD_upd_same (d : α) (k : Nat) (f : α → α) (t : Tab α) :
    (Machine.Tab.upd d k f t).getD k d = f (t.getD k d) := by simp [Machine.Tab.upd]
theorem getD_upd_ne (d : α) (k m : Nat) (f : α → α) (t : Tab α) (h : m ≠ k) :
    (Machine.Tab.upd d k f t).getD m d = t.getD m d := getD_set_ne _ _ h _ _ _
theorem find?_upd_ne (d : α) (k m : Nat) (f : α → α) (t : Tab α) (h : m ≠ k) :
    (Machine.Tab.upd d k f t).find? m = t.find? m := find?_set_ne _ _ h _ _

/-- Every key of a table is above a bound. -/
def above (n : Nat) (t : Tab α) : Prop := ∀ p ∈ t, n < p.1

theorem sorted_cons (k : Nat) (v : α) (t : Tab α) : sorted ((k, v) :: t) = true ↔ above k t ∧ sorted t = true := by
  induction t generalizing k v with
  | nil => simp [sorted, above]
  | cons x t ih =>
    obtain ⟨j, w⟩ := x
    constructor
    · intro h
      simp only [sorted, Bool.and_eq_true, decide_eq_true_eq] at h
      refine ⟨fun p hp => ?_, h.2⟩
      rcases List.mem_cons.1 hp with rfl | hp
      · exact h.1
      · exact Nat.lt_trans h.1 (((ih j w).1 h.2).1 p hp)
    · intro h
      simp only [sorted, Bool.and_eq_true, decide_eq_true_eq]
      exact ⟨h.1 _ (List.mem_cons_self ..), h.2⟩

theorem above_set (n k : Nat) (h : n < k) (v : α) : ∀ t : Tab α, above n t → above n (set k v t)
  | [], _ => by simp [set, above, h]
  | (j, w) :: t, ha => by
    have hj : n < j := ha _ (List.mem_cons_self ..)
    have ht : above n t := fun p hp => ha p (List.mem_cons_of_mem _ hp)
    simp only [set]
    split
    · intro p hp
      rcases List.mem_cons.1 hp with rfl | hp
      · exact h
      · exact ha p hp
    · split
      · intro p hp
        rcases List.mem_cons.1 hp with rfl | hp
        · exact h
        · exact ht p hp
      · intro p hp
        rcases List.mem_cons.1 hp with rfl | hp
        · exact hj
        · exact above_set n k h v t ht p hp

theorem mem_del {k : Nat} {p : Nat × α} : ∀ {t : Tab α}, p ∈ del k t → p ∈ t
  | [], h => h
  | (j, w) :: t, h => by
    simp only [del] at h
    split at h
    · exact List.mem_cons_of_mem _ (mem_del h)
    · rcases List.mem_cons.1 h with rfl | h
      · exact List.mem_cons_self ..
      · exact List.mem_cons_of_mem _ (mem_del h)

/-- Setting a key keeps the keys rising. -/
theorem sorted_set (k : Nat) (v : α) : ∀ t : Tab α, sorted t = true → sorted (set k v t) = true
  | [], _ => rfl
  | (j, w) :: t, h => by
    have ⟨ha, ht⟩ := (sorted_cons j w t).1 h
    simp only [set]
    split
    · rename_i hk
      refine (sorted_cons k v _).2 ⟨fun p hp => ?_, h⟩
      rcases List.mem_cons.1 hp with rfl | hp
      · exact hk
      · exact Nat.lt_trans hk (ha p hp)
    · split
      · rename_i _ e; subst e; exact (sorted_cons _ v t).2 ⟨ha, ht⟩
      · rename_i h1 h2
        exact (sorted_cons j w _).2 ⟨above_set j k (by omega) v t ha, sorted_set k v t ht⟩

/-- Removing a key keeps the keys rising. -/
theorem sorted_del (k : Nat) : ∀ t : Tab α, sorted t = true → sorted (del k t) = true
  | [], _ => rfl
  | (j, w) :: t, h => by
    have ⟨ha, ht⟩ := (sorted_cons j w t).1 h
    simp only [del]
    split
    · exact sorted_del k t ht
    · exact (sorted_cons j w _).2 ⟨fun p hp => ha p (mem_del hp), sorted_del k t ht⟩

/-- Removing entries keeps the keys rising. -/
theorem sorted_filter (f : Nat × α → Bool) : ∀ t : Tab α, sorted t = true → sorted (t.filter f : Tab α) = true
  | [], _ => rfl
  | (j, w) :: t, h => by
    have ⟨ha, ht⟩ := (sorted_cons j w t).1 h
    have ih := sorted_filter f t ht
    rw [List.filter_cons]
    split
    · exact (sorted_cons j w _).2 ⟨fun p hp => ha p (List.mem_filter.1 hp).1, ih⟩
    · exact ih

theorem mem_set {k : Nat} {v : α} {p : Nat × α} : ∀ {t : Tab α}, p ∈ set k v t → p = (k, v) ∨ p ∈ t
  | [], h => by simp [set] at h; exact .inl h
  | (j, w) :: t, h => by
    simp only [set] at h
    split at h
    · exact (List.mem_cons.1 h).imp_right fun h => h
    · split at h
      · rcases List.mem_cons.1 h with h | h
        · exact .inl h
        · exact .inr (List.mem_cons_of_mem _ h)
      · rcases List.mem_cons.1 h with rfl | h
        · exact .inr (List.mem_cons_self ..)
        · exact (mem_set h).imp_right fun h => List.mem_cons_of_mem _ h

end Tab

end Sys2Proof
end

