-- ==== Sys2Proof/Laws/State.lean ====
section
/-! SUPPORT. What each update operation leaves alone, field by field and object by object, and what it makes of its own object. -/

namespace Sys2Proof.Machine
open Sys2Proof

/-! ### The queue of commands put back -/

@[simp] theorem withPending_now (s : State) (l : List Instr) : ({ s with pending := l } : State).now = s.now := rfl
@[simp] theorem withPending_draw (s : State) (l : List Instr) : ({ s with pending := l } : State).draw = s.draw := rfl
@[simp] theorem withPending_out (s : State) (l : List Instr) : ({ s with pending := l } : State).out = s.out := rfl
@[simp] theorem withPending_ev (s : State) (l : List Instr) : ({ s with pending := l } : State).ev = s.ev := rfl
@[simp] theorem withPending_ctr (s : State) (l : List Instr) : ({ s with pending := l } : State).ctr = s.ctr := rfl
@[simp] theorem withPending_host (s : State) (l : List Instr) : ({ s with pending := l } : State).host = s.host := rfl
@[simp] theorem withPending_stitch (s : State) (l : List Instr) : ({ s with pending := l } : State).stitch = s.stitch := rfl
@[simp] theorem withPending_pon (s : State) (l : List Instr) : ({ s with pending := l } : State).pon = s.pon := rfl
@[simp] theorem withPending_q (s : State) (l : List Instr) : ({ s with pending := l } : State).q = s.q := rfl
@[simp] theorem withPending_tab (s : State) (l : List Instr) : ({ s with pending := l } : State).tab = s.tab := rfl
@[simp] theorem withPending_svc (s : State) (l : List Instr) : ({ s with pending := l } : State).svc = s.svc := rfl
@[simp] theorem withPending_ciph (s : State) (l : List Instr) : ({ s with pending := l } : State).ciph = s.ciph := rfl
@[simp] theorem withPending_time (s : State) (l : List Instr) : ({ s with pending := l } : State).time = s.time := rfl
@[simp] theorem withPending_lane (s : State) (l : List Instr) : ({ s with pending := l } : State).lane = s.lane := rfl
@[simp] theorem withPending_twin (s : State) (l : List Instr) : ({ s with pending := l } : State).twin = s.twin := rfl
@[simp] theorem withPending_pwr (s : State) (l : List Instr) : ({ s with pending := l } : State).pwr = s.pwr := rfl

/-! ### Lists and conditions -/

@[simp] theorem forAll_nil {α : Type} (f : α → State → State) (s : State) : forAll [] f s = s := rfl
@[simp] theorem forAll_cons {α : Type} (a : α) (l : List α) (f : α → State → State) (s : State) :
    forAll (a :: l) f s = forAll l f (f a s) := rfl
@[simp] theorem doIf_true (f : State → State) (s : State) : doIf true f s = f s := rfl
@[simp] theorem doIf_false (f : State → State) (s : State) : doIf false f s = s := rfl

@[simp] theorem doIf_pending (b : Bool) (g : State → State) (s : State) : (doIf b g s).pending = if b then (g s).pending else s.pending := apply_ite _ _ _ _
@[simp] theorem doIf_now (b : Bool) (g : State → State) (s : State) : (doIf b g s).now = if b then (g s).now else s.now := apply_ite _ _ _ _
@[simp] theorem doIf_draw (b : Bool) (g : State → State) (s : State) : (doIf b g s).draw = if b then (g s).draw else s.draw := apply_ite _ _ _ _
@[simp] theorem doIf_out (b : Bool) (g : State → State) (s : State) : (doIf b g s).out = if b then (g s).out else s.out := apply_ite _ _ _ _
@[simp] theorem doIf_ev (b : Bool) (g : State → State) (s : State) : (doIf b g s).ev = if b then (g s).ev else s.ev := apply_ite _ _ _ _
@[simp] theorem doIf_ctr (b : Bool) (g : State → State) (s : State) : (doIf b g s).ctr = if b then (g s).ctr else s.ctr := apply_ite _ _ _ _
@[simp] theorem doIf_host (b : Bool) (g : State → State) (s : State) : (doIf b g s).host = if b then (g s).host else s.host := apply_ite _ _ _ _
@[simp] theorem doIf_stitch (b : Bool) (g : State → State) (s : State) : (doIf b g s).stitch = if b then (g s).stitch else s.stitch := apply_ite _ _ _ _
@[simp] theorem doIf_pon (b : Bool) (g : State → State) (s : State) : (doIf b g s).pon = if b then (g s).pon else s.pon := apply_ite _ _ _ _
@[simp] theorem doIf_q (b : Bool) (g : State → State) (s : State) : (doIf b g s).q = if b then (g s).q else s.q := apply_ite _ _ _ _
@[simp] theorem doIf_tab (b : Bool) (g : State → State) (s : State) : (doIf b g s).tab = if b then (g s).tab else s.tab := apply_ite _ _ _ _
@[simp] theorem doIf_svc (b : Bool) (g : State → State) (s : State) : (doIf b g s).svc = if b then (g s).svc else s.svc := apply_ite _ _ _ _
@[simp] theorem doIf_ciph (b : Bool) (g : State → State) (s : State) : (doIf b g s).ciph = if b then (g s).ciph else s.ciph := apply_ite _ _ _ _
@[simp] theorem doIf_time (b : Bool) (g : State → State) (s : State) : (doIf b g s).time = if b then (g s).time else s.time := apply_ite _ _ _ _
@[simp] theorem doIf_lane (b : Bool) (g : State → State) (s : State) : (doIf b g s).lane = if b then (g s).lane else s.lane := apply_ite _ _ _ _
@[simp] theorem doIf_twin (b : Bool) (g : State → State) (s : State) : (doIf b g s).twin = if b then (g s).twin else s.twin := apply_ite _ _ _ _
@[simp] theorem doIf_pwr (b : Bool) (g : State → State) (s : State) : (doIf b g s).pwr = if b then (g s).pwr else s.pwr := apply_ite _ _ _ _
@[simp] theorem chOf_doIf (b : Bool) (g : State → State) (c : Nat) (s : State) : chOf (doIf b g s) c = if b then chOf (g s) c else chOf s c := by cases b <;> rfl
@[simp] theorem termOf_doIf (b : Bool) (g : State → State) (x : Nat) (s : State) : termOf (doIf b g s) x = if b then termOf (g s) x else termOf s x := by cases b <;> rfl
@[simp] theorem fitOf_doIf (b : Bool) (g : State → State) (x : Nat) (s : State) : fitOf (doIf b g s) x = if b then fitOf (g s) x else fitOf s x := by cases b <;> rfl
@[simp] theorem allocOf_doIf (b : Bool) (g : State → State) (x : Nat) (s : State) : allocOf (doIf b g s) x = if b then allocOf (g s) x else allocOf s x := by cases b <;> rfl
@[simp] theorem bobOf_doIf (b : Bool) (g : State → State) (x : Nat) (s : State) : bobOf (doIf b g s) x = if b then bobOf (g s) x else bobOf s x := by cases b <;> rfl
@[simp] theorem queueOf_doIf (b : Bool) (g : State → State) (x : Nat) (s : State) : queueOf (doIf b g s) x = if b then queueOf (g s) x else queueOf s x := by cases b <;> rfl
@[simp] theorem shaperOf_doIf (b : Bool) (g : State → State) (x y : Nat) (s : State) : shaperOf (doIf b g s) x y = if b then shaperOf (g s) x y else shaperOf s x y := by cases b <;> rfl
@[simp] theorem policerOf_doIf (b : Bool) (g : State → State) (x : Nat) (s : State) : policerOf (doIf b g s) x = if b then policerOf (g s) x else policerOf s x := by cases b <;> rfl
@[simp] theorem laneOf_doIf (b : Bool) (g : State → State) (x : Nat) (s : State) : laneOf (doIf b g s) x = if b then laneOf (g s) x else laneOf s x := by cases b <;> rfl
@[simp] theorem subportOf_doIf (b : Bool) (g : State → State) (x : Nat) (s : State) : subportOf (doIf b g s) x = if b then subportOf (g s) x else subportOf s x := by cases b <;> rfl
@[simp] theorem baseOf_doIf (b : Bool) (g : State → State) (x : Nat) (s : State) : baseOf (doIf b g s) x = if b then baseOf (g s) x else baseOf s x := by cases b <;> rfl
@[simp] theorem cpoolOf_doIf (b : Bool) (g : State → State) (x : Nat) (s : State) : cpoolOf (doIf b g s) x = if b then cpoolOf (g s) x else cpoolOf s x := by cases b <;> rfl
@[simp] theorem railOf_doIf (b : Bool) (g : State → State) (x : Nat) (s : State) : railOf (doIf b g s) x = if b then railOf (g s) x else railOf s x := by cases b <;> rfl
@[simp] theorem ringOf_doIf (b : Bool) (g : State → State) (x : PortId) (y : Nat) (s : State) : ringOf (doIf b g s) x y = if b then ringOf (g s) x y else ringOf s x y := by cases b <;> rfl
@[simp] theorem thimbleOf_doIf (b : Bool) (g : State → State) (x : Nat) (s : State) : thimbleOf (doIf b g s) x = if b then thimbleOf (g s) x else thimbleOf s x := by cases b <;> rfl
@[simp] theorem lockOf_doIf (b : Bool) (g : State → State) (x : DieId) (y : Nat) (s : State) : lockOf (doIf b g s) x y = if b then lockOf (g s) x y else lockOf s x y := by cases b <;> rfl
@[simp] theorem puntOf_doIf (b : Bool) (g : State → State) (x : PortId) (s : State) : puntOf (doIf b g s) x = if b then puntOf (g s) x else puntOf s x := by cases b <;> rfl
@[simp] theorem imagesOf_doIf (b : Bool) (g : State → State) (x : DieId) (s : State) : imagesOf (doIf b g s) x = if b then imagesOf (g s) x else imagesOf s x := by cases b <;> rfl
@[simp] theorem linkOf_doIf (b : Bool) (g : State → State) (x : PortId) (s : State) : linkOf (doIf b g s) x = if b then linkOf (g s) x else linkOf s x := by cases b <;> rfl
@[simp] theorem fmtOf_doIf (b : Bool) (g : State → State) (x : DieId) (s : State) : fmtOf (doIf b g s) x = if b then fmtOf (g s) x else fmtOf s x := by cases b <;> rfl
@[simp] theorem cfgOf_doIf (b : Bool) (g : State → State) (s : State) : cfgOf (doIf b g s)  = if b then cfgOf (g s)  else cfgOf s  := by cases b <;> rfl
@[simp] theorem sfNow_doIf (b : Bool) (g : State → State) (s : State) : sfNow (doIf b g s)  = if b then sfNow (g s)  else sfNow s  := by cases b <;> rfl
@[simp] theorem stagingNumber_doIf (b : Bool) (g : State → State) (s : State) : stagingNumber (doIf b g s)  = if b then stagingNumber (g s)  else stagingNumber s  := by cases b <;> rfl

/-! ### Fields -/

@[simp] theorem tick_pending (dt : Nat) (s : State) : (tick dt s).pending = s.pending := rfl
@[simp] theorem tick_draw (dt : Nat) (s : State) : (tick dt s).draw = s.draw := rfl
@[simp] theorem tick_ev (dt : Nat) (s : State) : (tick dt s).ev = s.ev := rfl
@[simp] theorem tick_ctr (dt : Nat) (s : State) : (tick dt s).ctr = s.ctr := rfl
@[simp] theorem tick_host (dt : Nat) (s : State) : (tick dt s).host = s.host := rfl
@[simp] theorem tick_stitch (dt : Nat) (s : State) : (tick dt s).stitch = s.stitch := rfl
@[simp] theorem tick_pon (dt : Nat) (s : State) : (tick dt s).pon = s.pon := rfl
@[simp] theorem tick_q (dt : Nat) (s : State) : (tick dt s).q = s.q := rfl
@[simp] theorem tick_tab (dt : Nat) (s : State) : (tick dt s).tab = s.tab := rfl
@[simp] theorem tick_svc (dt : Nat) (s : State) : (tick dt s).svc = s.svc := rfl
@[simp] theorem tick_ciph (dt : Nat) (s : State) : (tick dt s).ciph = s.ciph := rfl
@[simp] theorem tick_time (dt : Nat) (s : State) : (tick dt s).time = s.time := rfl
@[simp] theorem tick_lane (dt : Nat) (s : State) : (tick dt s).lane = s.lane := rfl
@[simp] theorem tick_twin (dt : Nat) (s : State) : (tick dt s).twin = s.twin := rfl
@[simp] theorem tick_pwr (dt : Nat) (s : State) : (tick dt s).pwr = s.pwr := rfl
@[simp] theorem emit_pending (o : Output) (s : State) : (emit o s).pending = s.pending := rfl
@[simp] theorem emit_now (o : Output) (s : State) : (emit o s).now = s.now := rfl
@[simp] theorem emit_draw (o : Output) (s : State) : (emit o s).draw = s.draw := rfl
@[simp] theorem emit_ev (o : Output) (s : State) : (emit o s).ev = s.ev := rfl
@[simp] theorem emit_ctr (o : Output) (s : State) : (emit o s).ctr = s.ctr := rfl
@[simp] theorem emit_host (o : Output) (s : State) : (emit o s).host = s.host := rfl
@[simp] theorem emit_stitch (o : Output) (s : State) : (emit o s).stitch = s.stitch := rfl
@[simp] theorem emit_pon (o : Output) (s : State) : (emit o s).pon = s.pon := rfl
@[simp] theorem emit_q (o : Output) (s : State) : (emit o s).q = s.q := rfl
@[simp] theorem emit_tab (o : Output) (s : State) : (emit o s).tab = s.tab := rfl
@[simp] theorem emit_svc (o : Output) (s : State) : (emit o s).svc = s.svc := rfl
@[simp] theorem emit_ciph (o : Output) (s : State) : (emit o s).ciph = s.ciph := rfl
@[simp] theorem emit_time (o : Output) (s : State) : (emit o s).time = s.time := rfl
@[simp] theorem emit_lane (o : Output) (s : State) : (emit o s).lane = s.lane := rfl
@[simp] theorem emit_twin (o : Output) (s : State) : (emit o s).twin = s.twin := rfl
@[simp] theorem emit_pwr (o : Output) (s : State) : (emit o s).pwr = s.pwr := rfl
@[simp] theorem drawn_pending (s : State) : (drawn s).pending = s.pending := rfl
@[simp] theorem drawn_now (s : State) : (drawn s).now = s.now := rfl
@[simp] theorem drawn_out (s : State) : (drawn s).out = s.out := rfl
@[simp] theorem drawn_ev (s : State) : (drawn s).ev = s.ev := rfl
@[simp] theorem drawn_ctr (s : State) : (drawn s).ctr = s.ctr := rfl
@[simp] theorem drawn_host (s : State) : (drawn s).host = s.host := rfl
@[simp] theorem drawn_stitch (s : State) : (drawn s).stitch = s.stitch := rfl
@[simp] theorem drawn_pon (s : State) : (drawn s).pon = s.pon := rfl
@[simp] theorem drawn_q (s : State) : (drawn s).q = s.q := rfl
@[simp] theorem drawn_tab (s : State) : (drawn s).tab = s.tab := rfl
@[simp] theorem drawn_svc (s : State) : (drawn s).svc = s.svc := rfl
@[simp] theorem drawn_ciph (s : State) : (drawn s).ciph = s.ciph := rfl
@[simp] theorem drawn_time (s : State) : (drawn s).time = s.time := rfl
@[simp] theorem drawn_lane (s : State) : (drawn s).lane = s.lane := rfl
@[simp] theorem drawn_twin (s : State) : (drawn s).twin = s.twin := rfl
@[simp] theorem drawn_pwr (s : State) : (drawn s).pwr = s.pwr := rfl
@[simp] theorem modCh_pending (c : Nat) (f : Channel → Channel) (s : State) : (modCh c f s).pending = s.pending := rfl
@[simp] theorem modCh_now (c : Nat) (f : Channel → Channel) (s : State) : (modCh c f s).now = s.now := rfl
@[simp] theorem modCh_draw (c : Nat) (f : Channel → Channel) (s : State) : (modCh c f s).draw = s.draw := rfl
@[simp] theorem modCh_out (c : Nat) (f : Channel → Channel) (s : State) : (modCh c f s).out = s.out := rfl
@[simp] theorem modCh_ev (c : Nat) (f : Channel → Channel) (s : State) : (modCh c f s).ev = s.ev := rfl
@[simp] theorem modCh_ctr (c : Nat) (f : Channel → Channel) (s : State) : (modCh c f s).ctr = s.ctr := rfl
@[simp] theorem modCh_host (c : Nat) (f : Channel → Channel) (s : State) : (modCh c f s).host = s.host := rfl
@[simp] theorem modCh_stitch (c : Nat) (f : Channel → Channel) (s : State) : (modCh c f s).stitch = s.stitch := rfl
@[simp] theorem modCh_q (c : Nat) (f : Channel → Channel) (s : State) : (modCh c f s).q = s.q := rfl
@[simp] theorem modCh_tab (c : Nat) (f : Channel → Channel) (s : State) : (modCh c f s).tab = s.tab := rfl
@[simp] theorem modCh_svc (c : Nat) (f : Channel → Channel) (s : State) : (modCh c f s).svc = s.svc := rfl
@[simp] theorem modCh_ciph (c : Nat) (f : Channel → Channel) (s : State) : (modCh c f s).ciph = s.ciph := rfl
@[simp] theorem modCh_time (c : Nat) (f : Channel → Channel) (s : State) : (modCh c f s).time = s.time := rfl
@[simp] theorem modCh_lane (c : Nat) (f : Channel → Channel) (s : State) : (modCh c f s).lane = s.lane := rfl
@[simp] theorem modCh_twin (c : Nat) (f : Channel → Channel) (s : State) : (modCh c f s).twin = s.twin := rfl
@[simp] theorem modCh_pwr (c : Nat) (f : Channel → Channel) (s : State) : (modCh c f s).pwr = s.pwr := rfl
@[simp] theorem modTerm_pending (n : Nat) (f : Terminal → Terminal) (s : State) : (modTerm n f s).pending = s.pending := rfl
@[simp] theorem modTerm_now (n : Nat) (f : Terminal → Terminal) (s : State) : (modTerm n f s).now = s.now := rfl
@[simp] theorem modTerm_draw (n : Nat) (f : Terminal → Terminal) (s : State) : (modTerm n f s).draw = s.draw := rfl
@[simp] theorem modTerm_out (n : Nat) (f : Terminal → Terminal) (s : State) : (modTerm n f s).out = s.out := rfl
@[simp] theorem modTerm_ev (n : Nat) (f : Terminal → Terminal) (s : State) : (modTerm n f s).ev = s.ev := rfl
@[simp] theorem modTerm_ctr (n : Nat) (f : Terminal → Terminal) (s : State) : (modTerm n f s).ctr = s.ctr := rfl
@[simp] theorem modTerm_host (n : Nat) (f : Terminal → Terminal) (s : State) : (modTerm n f s).host = s.host := rfl
@[simp] theorem modTerm_stitch (n : Nat) (f : Terminal → Terminal) (s : State) : (modTerm n f s).stitch = s.stitch := rfl
@[simp] theorem modTerm_q (n : Nat) (f : Terminal → Terminal) (s : State) : (modTerm n f s).q = s.q := rfl
@[simp] theorem modTerm_tab (n : Nat) (f : Terminal → Terminal) (s : State) : (modTerm n f s).tab = s.tab := rfl
@[simp] theorem modTerm_svc (n : Nat) (f : Terminal → Terminal) (s : State) : (modTerm n f s).svc = s.svc := rfl
@[simp] theorem modTerm_ciph (n : Nat) (f : Terminal → Terminal) (s : State) : (modTerm n f s).ciph = s.ciph := rfl
@[simp] theorem modTerm_time (n : Nat) (f : Terminal → Terminal) (s : State) : (modTerm n f s).time = s.time := rfl
@[simp] theorem modTerm_lane (n : Nat) (f : Terminal → Terminal) (s : State) : (modTerm n f s).lane = s.lane := rfl
@[simp] theorem modTerm_twin (n : Nat) (f : Terminal → Terminal) (s : State) : (modTerm n f s).twin = s.twin := rfl
@[simp] theorem modTerm_pwr (n : Nat) (f : Terminal → Terminal) (s : State) : (modTerm n f s).pwr = s.pwr := rfl
@[simp] theorem modFit_pending (n : Nat) (f : Fitting → Fitting) (s : State) : (modFit n f s).pending = s.pending := rfl
@[simp] theorem modFit_now (n : Nat) (f : Fitting → Fitting) (s : State) : (modFit n f s).now = s.now := rfl
@[simp] theorem modFit_draw (n : Nat) (f : Fitting → Fitting) (s : State) : (modFit n f s).draw = s.draw := rfl
@[simp] theorem modFit_out (n : Nat) (f : Fitting → Fitting) (s : State) : (modFit n f s).out = s.out := rfl
@[simp] theorem modFit_ev (n : Nat) (f : Fitting → Fitting) (s : State) : (modFit n f s).ev = s.ev := rfl
@[simp] theorem modFit_ctr (n : Nat) (f : Fitting → Fitting) (s : State) : (modFit n f s).ctr = s.ctr := rfl
@[simp] theorem modFit_host (n : Nat) (f : Fitting → Fitting) (s : State) : (modFit n f s).host = s.host := rfl
@[simp] theorem modFit_stitch (n : Nat) (f : Fitting → Fitting) (s : State) : (modFit n f s).stitch = s.stitch := rfl
@[simp] theorem modFit_q (n : Nat) (f : Fitting → Fitting) (s : State) : (modFit n f s).q = s.q := rfl
@[simp] theorem modFit_tab (n : Nat) (f : Fitting → Fitting) (s : State) : (modFit n f s).tab = s.tab := rfl
@[simp] theorem modFit_svc (n : Nat) (f : Fitting → Fitting) (s : State) : (modFit n f s).svc = s.svc := rfl
@[simp] theorem modFit_ciph (n : Nat) (f : Fitting → Fitting) (s : State) : (modFit n f s).ciph = s.ciph := rfl
@[simp] theorem modFit_time (n : Nat) (f : Fitting → Fitting) (s : State) : (modFit n f s).time = s.time := rfl
@[simp] theorem modFit_lane (n : Nat) (f : Fitting → Fitting) (s : State) : (modFit n f s).lane = s.lane := rfl
@[simp] theorem modFit_twin (n : Nat) (f : Fitting → Fitting) (s : State) : (modFit n f s).twin = s.twin := rfl
@[simp] theorem modFit_pwr (n : Nat) (f : Fitting → Fitting) (s : State) : (modFit n f s).pwr = s.pwr := rfl
@[simp] theorem modAlloc_pending (n : Nat) (f : Alloc → Alloc) (s : State) : (modAlloc n f s).pending = s.pending := rfl
@[simp] theorem modAlloc_now (n : Nat) (f : Alloc → Alloc) (s : State) : (modAlloc n f s).now = s.now := rfl
@[simp] theorem modAlloc_draw (n : Nat) (f : Alloc → Alloc) (s : State) : (modAlloc n f s).draw = s.draw := rfl
@[simp] theorem modAlloc_out (n : Nat) (f : Alloc → Alloc) (s : State) : (modAlloc n f s).out = s.out := rfl
@[simp] theorem modAlloc_ev (n : Nat) (f : Alloc → Alloc) (s : State) : (modAlloc n f s).ev = s.ev := rfl
@[simp] theorem modAlloc_ctr (n : Nat) (f : Alloc → Alloc) (s : State) : (modAlloc n f s).ctr = s.ctr := rfl
@[simp] theorem modAlloc_host (n : Nat) (f : Alloc → Alloc) (s : State) : (modAlloc n f s).host = s.host := rfl
@[simp] theorem modAlloc_stitch (n : Nat) (f : Alloc → Alloc) (s : State) : (modAlloc n f s).stitch = s.stitch := rfl
@[simp] theorem modAlloc_q (n : Nat) (f : Alloc → Alloc) (s : State) : (modAlloc n f s).q = s.q := rfl
@[simp] theorem modAlloc_tab (n : Nat) (f : Alloc → Alloc) (s : State) : (modAlloc n f s).tab = s.tab := rfl
@[simp] theorem modAlloc_svc (n : Nat) (f : Alloc → Alloc) (s : State) : (modAlloc n f s).svc = s.svc := rfl
@[simp] theorem modAlloc_ciph (n : Nat) (f : Alloc → Alloc) (s : State) : (modAlloc n f s).ciph = s.ciph := rfl
@[simp] theorem modAlloc_time (n : Nat) (f : Alloc → Alloc) (s : State) : (modAlloc n f s).time = s.time := rfl
@[simp] theorem modAlloc_lane (n : Nat) (f : Alloc → Alloc) (s : State) : (modAlloc n f s).lane = s.lane := rfl
@[simp] theorem modAlloc_twin (n : Nat) (f : Alloc → Alloc) (s : State) : (modAlloc n f s).twin = s.twin := rfl
@[simp] theorem modAlloc_pwr (n : Nat) (f : Alloc → Alloc) (s : State) : (modAlloc n f s).pwr = s.pwr := rfl
@[simp] theorem modBob_pending (n : Nat) (f : Bobbin → Bobbin) (s : State) : (modBob n f s).pending = s.pending := rfl
@[simp] theorem modBob_now (n : Nat) (f : Bobbin → Bobbin) (s : State) : (modBob n f s).now = s.now := rfl
@[simp] theorem modBob_draw (n : Nat) (f : Bobbin → Bobbin) (s : State) : (modBob n f s).draw = s.draw := rfl
@[simp] theorem modBob_out (n : Nat) (f : Bobbin → Bobbin) (s : State) : (modBob n f s).out = s.out := rfl
@[simp] theorem modBob_ev (n : Nat) (f : Bobbin → Bobbin) (s : State) : (modBob n f s).ev = s.ev := rfl
@[simp] theorem modBob_ctr (n : Nat) (f : Bobbin → Bobbin) (s : State) : (modBob n f s).ctr = s.ctr := rfl
@[simp] theorem modBob_host (n : Nat) (f : Bobbin → Bobbin) (s : State) : (modBob n f s).host = s.host := rfl
@[simp] theorem modBob_stitch (n : Nat) (f : Bobbin → Bobbin) (s : State) : (modBob n f s).stitch = s.stitch := rfl
@[simp] theorem modBob_q (n : Nat) (f : Bobbin → Bobbin) (s : State) : (modBob n f s).q = s.q := rfl
@[simp] theorem modBob_tab (n : Nat) (f : Bobbin → Bobbin) (s : State) : (modBob n f s).tab = s.tab := rfl
@[simp] theorem modBob_svc (n : Nat) (f : Bobbin → Bobbin) (s : State) : (modBob n f s).svc = s.svc := rfl
@[simp] theorem modBob_ciph (n : Nat) (f : Bobbin → Bobbin) (s : State) : (modBob n f s).ciph = s.ciph := rfl
@[simp] theorem modBob_time (n : Nat) (f : Bobbin → Bobbin) (s : State) : (modBob n f s).time = s.time := rfl
@[simp] theorem modBob_lane (n : Nat) (f : Bobbin → Bobbin) (s : State) : (modBob n f s).lane = s.lane := rfl
@[simp] theorem modBob_twin (n : Nat) (f : Bobbin → Bobbin) (s : State) : (modBob n f s).twin = s.twin := rfl
@[simp] theorem modBob_pwr (n : Nat) (f : Bobbin → Bobbin) (s : State) : (modBob n f s).pwr = s.pwr := rfl
@[simp] theorem modQueue_pending (n : Nat) (f : Queue → Queue) (s : State) : (modQueue n f s).pending = s.pending := rfl
@[simp] theorem modQueue_now (n : Nat) (f : Queue → Queue) (s : State) : (modQueue n f s).now = s.now := rfl
@[simp] theorem modQueue_draw (n : Nat) (f : Queue → Queue) (s : State) : (modQueue n f s).draw = s.draw := rfl
@[simp] theorem modQueue_out (n : Nat) (f : Queue → Queue) (s : State) : (modQueue n f s).out = s.out := rfl
@[simp] theorem modQueue_ev (n : Nat) (f : Queue → Queue) (s : State) : (modQueue n f s).ev = s.ev := rfl
@[simp] theorem modQueue_ctr (n : Nat) (f : Queue → Queue) (s : State) : (modQueue n f s).ctr = s.ctr := rfl
@[simp] theorem modQueue_host (n : Nat) (f : Queue → Queue) (s : State) : (modQueue n f s).host = s.host := rfl
@[simp] theorem modQueue_stitch (n : Nat) (f : Queue → Queue) (s : State) : (modQueue n f s).stitch = s.stitch := rfl
@[simp] theorem modQueue_pon (n : Nat) (f : Queue → Queue) (s : State) : (modQueue n f s).pon = s.pon := rfl
@[simp] theorem modQueue_tab (n : Nat) (f : Queue → Queue) (s : State) : (modQueue n f s).tab = s.tab := rfl
@[simp] theorem modQueue_svc (n : Nat) (f : Queue → Queue) (s : State) : (modQueue n f s).svc = s.svc := rfl
@[simp] theorem modQueue_ciph (n : Nat) (f : Queue → Queue) (s : State) : (modQueue n f s).ciph = s.ciph := rfl
@[simp] theorem modQueue_time (n : Nat) (f : Queue → Queue) (s : State) : (modQueue n f s).time = s.time := rfl
@[simp] theorem modQueue_lane (n : Nat) (f : Queue → Queue) (s : State) : (modQueue n f s).lane = s.lane := rfl
@[simp] theorem modQueue_twin (n : Nat) (f : Queue → Queue) (s : State) : (modQueue n f s).twin = s.twin := rfl
@[simp] theorem modQueue_pwr (n : Nat) (f : Queue → Queue) (s : State) : (modQueue n f s).pwr = s.pwr := rfl
@[simp] theorem modShaper_pending (k n : Nat) (f : Shaper → Shaper) (s : State) : (modShaper k n f s).pending = s.pending := rfl
@[simp] theorem modShaper_now (k n : Nat) (f : Shaper → Shaper) (s : State) : (modShaper k n f s).now = s.now := rfl
@[simp] theorem modShaper_draw (k n : Nat) (f : Shaper → Shaper) (s : State) : (modShaper k n f s).draw = s.draw := rfl
@[simp] theorem modShaper_out (k n : Nat) (f : Shaper → Shaper) (s : State) : (modShaper k n f s).out = s.out := rfl
@[simp] theorem modShaper_ev (k n : Nat) (f : Shaper → Shaper) (s : State) : (modShaper k n f s).ev = s.ev := rfl
@[simp] theorem modShaper_ctr (k n : Nat) (f : Shaper → Shaper) (s : State) : (modShaper k n f s).ctr = s.ctr := rfl
@[simp] theorem modShaper_host (k n : Nat) (f : Shaper → Shaper) (s : State) : (modShaper k n f s).host = s.host := rfl
@[simp] theorem modShaper_stitch (k n : Nat) (f : Shaper → Shaper) (s : State) : (modShaper k n f s).stitch = s.stitch := rfl
@[simp] theorem modShaper_pon (k n : Nat) (f : Shaper → Shaper) (s : State) : (modShaper k n f s).pon = s.pon := rfl
@[simp] theorem modShaper_tab (k n : Nat) (f : Shaper → Shaper) (s : State) : (modShaper k n f s).tab = s.tab := rfl
@[simp] theorem modShaper_svc (k n : Nat) (f : Shaper → Shaper) (s : State) : (modShaper k n f s).svc = s.svc := rfl
@[simp] theorem modShaper_ciph (k n : Nat) (f : Shaper → Shaper) (s : State) : (modShaper k n f s).ciph = s.ciph := rfl
@[simp] theorem modShaper_time (k n : Nat) (f : Shaper → Shaper) (s : State) : (modShaper k n f s).time = s.time := rfl
@[simp] theorem modShaper_lane (k n : Nat) (f : Shaper → Shaper) (s : State) : (modShaper k n f s).lane = s.lane := rfl
@[simp] theorem modShaper_twin (k n : Nat) (f : Shaper → Shaper) (s : State) : (modShaper k n f s).twin = s.twin := rfl
@[simp] theorem modShaper_pwr (k n : Nat) (f : Shaper → Shaper) (s : State) : (modShaper k n f s).pwr = s.pwr := rfl
@[simp] theorem modPolicer_pending (n : Nat) (f : PolicerSt → PolicerSt) (s : State) : (modPolicer n f s).pending = s.pending := rfl
@[simp] theorem modPolicer_now (n : Nat) (f : PolicerSt → PolicerSt) (s : State) : (modPolicer n f s).now = s.now := rfl
@[simp] theorem modPolicer_draw (n : Nat) (f : PolicerSt → PolicerSt) (s : State) : (modPolicer n f s).draw = s.draw := rfl
@[simp] theorem modPolicer_out (n : Nat) (f : PolicerSt → PolicerSt) (s : State) : (modPolicer n f s).out = s.out := rfl
@[simp] theorem modPolicer_ev (n : Nat) (f : PolicerSt → PolicerSt) (s : State) : (modPolicer n f s).ev = s.ev := rfl
@[simp] theorem modPolicer_ctr (n : Nat) (f : PolicerSt → PolicerSt) (s : State) : (modPolicer n f s).ctr = s.ctr := rfl
@[simp] theorem modPolicer_host (n : Nat) (f : PolicerSt → PolicerSt) (s : State) : (modPolicer n f s).host = s.host := rfl
@[simp] theorem modPolicer_stitch (n : Nat) (f : PolicerSt → PolicerSt) (s : State) : (modPolicer n f s).stitch = s.stitch := rfl
@[simp] theorem modPolicer_pon (n : Nat) (f : PolicerSt → PolicerSt) (s : State) : (modPolicer n f s).pon = s.pon := rfl
@[simp] theorem modPolicer_tab (n : Nat) (f : PolicerSt → PolicerSt) (s : State) : (modPolicer n f s).tab = s.tab := rfl
@[simp] theorem modPolicer_svc (n : Nat) (f : PolicerSt → PolicerSt) (s : State) : (modPolicer n f s).svc = s.svc := rfl
@[simp] theorem modPolicer_ciph (n : Nat) (f : PolicerSt → PolicerSt) (s : State) : (modPolicer n f s).ciph = s.ciph := rfl
@[simp] theorem modPolicer_time (n : Nat) (f : PolicerSt → PolicerSt) (s : State) : (modPolicer n f s).time = s.time := rfl
@[simp] theorem modPolicer_lane (n : Nat) (f : PolicerSt → PolicerSt) (s : State) : (modPolicer n f s).lane = s.lane := rfl
@[simp] theorem modPolicer_twin (n : Nat) (f : PolicerSt → PolicerSt) (s : State) : (modPolicer n f s).twin = s.twin := rfl
@[simp] theorem modPolicer_pwr (n : Nat) (f : PolicerSt → PolicerSt) (s : State) : (modPolicer n f s).pwr = s.pwr := rfl
@[simp] theorem modLane_pending (n : Nat) (f : Lane → Lane) (s : State) : (modLane n f s).pending = s.pending := rfl
@[simp] theorem modLane_now (n : Nat) (f : Lane → Lane) (s : State) : (modLane n f s).now = s.now := rfl
@[simp] theorem modLane_draw (n : Nat) (f : Lane → Lane) (s : State) : (modLane n f s).draw = s.draw := rfl
@[simp] theorem modLane_out (n : Nat) (f : Lane → Lane) (s : State) : (modLane n f s).out = s.out := rfl
@[simp] theorem modLane_ev (n : Nat) (f : Lane → Lane) (s : State) : (modLane n f s).ev = s.ev := rfl
@[simp] theorem modLane_ctr (n : Nat) (f : Lane → Lane) (s : State) : (modLane n f s).ctr = s.ctr := rfl
@[simp] theorem modLane_host (n : Nat) (f : Lane → Lane) (s : State) : (modLane n f s).host = s.host := rfl
@[simp] theorem modLane_stitch (n : Nat) (f : Lane → Lane) (s : State) : (modLane n f s).stitch = s.stitch := rfl
@[simp] theorem modLane_pon (n : Nat) (f : Lane → Lane) (s : State) : (modLane n f s).pon = s.pon := rfl
@[simp] theorem modLane_q (n : Nat) (f : Lane → Lane) (s : State) : (modLane n f s).q = s.q := rfl
@[simp] theorem modLane_tab (n : Nat) (f : Lane → Lane) (s : State) : (modLane n f s).tab = s.tab := rfl
@[simp] theorem modLane_svc (n : Nat) (f : Lane → Lane) (s : State) : (modLane n f s).svc = s.svc := rfl
@[simp] theorem modLane_ciph (n : Nat) (f : Lane → Lane) (s : State) : (modLane n f s).ciph = s.ciph := rfl
@[simp] theorem modLane_time (n : Nat) (f : Lane → Lane) (s : State) : (modLane n f s).time = s.time := rfl
@[simp] theorem modLane_twin (n : Nat) (f : Lane → Lane) (s : State) : (modLane n f s).twin = s.twin := rfl
@[simp] theorem modLane_pwr (n : Nat) (f : Lane → Lane) (s : State) : (modLane n f s).pwr = s.pwr := rfl
@[simp] theorem modSubport_pending (n : Nat) (f : Subport → Subport) (s : State) : (modSubport n f s).pending = s.pending := rfl
@[simp] theorem modSubport_now (n : Nat) (f : Subport → Subport) (s : State) : (modSubport n f s).now = s.now := rfl
@[simp] theorem modSubport_draw (n : Nat) (f : Subport → Subport) (s : State) : (modSubport n f s).draw = s.draw := rfl
@[simp] theorem modSubport_out (n : Nat) (f : Subport → Subport) (s : State) : (modSubport n f s).out = s.out := rfl
@[simp] theorem modSubport_ev (n : Nat) (f : Subport → Subport) (s : State) : (modSubport n f s).ev = s.ev := rfl
@[simp] theorem modSubport_ctr (n : Nat) (f : Subport → Subport) (s : State) : (modSubport n f s).ctr = s.ctr := rfl
@[simp] theorem modSubport_host (n : Nat) (f : Subport → Subport) (s : State) : (modSubport n f s).host = s.host := rfl
@[simp] theorem modSubport_stitch (n : Nat) (f : Subport → Subport) (s : State) : (modSubport n f s).stitch = s.stitch := rfl
@[simp] theorem modSubport_pon (n : Nat) (f : Subport → Subport) (s : State) : (modSubport n f s).pon = s.pon := rfl
@[simp] theorem modSubport_q (n : Nat) (f : Subport → Subport) (s : State) : (modSubport n f s).q = s.q := rfl
@[simp] theorem modSubport_tab (n : Nat) (f : Subport → Subport) (s : State) : (modSubport n f s).tab = s.tab := rfl
@[simp] theorem modSubport_svc (n : Nat) (f : Subport → Subport) (s : State) : (modSubport n f s).svc = s.svc := rfl
@[simp] theorem modSubport_ciph (n : Nat) (f : Subport → Subport) (s : State) : (modSubport n f s).ciph = s.ciph := rfl
@[simp] theorem modSubport_time (n : Nat) (f : Subport → Subport) (s : State) : (modSubport n f s).time = s.time := rfl
@[simp] theorem modSubport_twin (n : Nat) (f : Subport → Subport) (s : State) : (modSubport n f s).twin = s.twin := rfl
@[simp] theorem modSubport_pwr (n : Nat) (f : Subport → Subport) (s : State) : (modSubport n f s).pwr = s.pwr := rfl
@[simp] theorem modBase_pending (n : Nat) (f : TimeBase → TimeBase) (s : State) : (modBase n f s).pending = s.pending := rfl
@[simp] theorem modBase_now (n : Nat) (f : TimeBase → TimeBase) (s : State) : (modBase n f s).now = s.now := rfl
@[simp] theorem modBase_draw (n : Nat) (f : TimeBase → TimeBase) (s : State) : (modBase n f s).draw = s.draw := rfl
@[simp] theorem modBase_out (n : Nat) (f : TimeBase → TimeBase) (s : State) : (modBase n f s).out = s.out := rfl
@[simp] theorem modBase_ev (n : Nat) (f : TimeBase → TimeBase) (s : State) : (modBase n f s).ev = s.ev := rfl
@[simp] theorem modBase_ctr (n : Nat) (f : TimeBase → TimeBase) (s : State) : (modBase n f s).ctr = s.ctr := rfl
@[simp] theorem modBase_host (n : Nat) (f : TimeBase → TimeBase) (s : State) : (modBase n f s).host = s.host := rfl
@[simp] theorem modBase_stitch (n : Nat) (f : TimeBase → TimeBase) (s : State) : (modBase n f s).stitch = s.stitch := rfl
@[simp] theorem modBase_pon (n : Nat) (f : TimeBase → TimeBase) (s : State) : (modBase n f s).pon = s.pon := rfl
@[simp] theorem modBase_q (n : Nat) (f : TimeBase → TimeBase) (s : State) : (modBase n f s).q = s.q := rfl
@[simp] theorem modBase_tab (n : Nat) (f : TimeBase → TimeBase) (s : State) : (modBase n f s).tab = s.tab := rfl
@[simp] theorem modBase_svc (n : Nat) (f : TimeBase → TimeBase) (s : State) : (modBase n f s).svc = s.svc := rfl
@[simp] theorem modBase_ciph (n : Nat) (f : TimeBase → TimeBase) (s : State) : (modBase n f s).ciph = s.ciph := rfl
@[simp] theorem modBase_lane (n : Nat) (f : TimeBase → TimeBase) (s : State) : (modBase n f s).lane = s.lane := rfl
@[simp] theorem modBase_twin (n : Nat) (f : TimeBase → TimeBase) (s : State) : (modBase n f s).twin = s.twin := rfl
@[simp] theorem modBase_pwr (n : Nat) (f : TimeBase → TimeBase) (s : State) : (modBase n f s).pwr = s.pwr := rfl
@[simp] theorem modSlots_pending (f : Tab KeySlot → Tab KeySlot) (s : State) : (modSlots f s).pending = s.pending := rfl
@[simp] theorem modSlots_now (f : Tab KeySlot → Tab KeySlot) (s : State) : (modSlots f s).now = s.now := rfl
@[simp] theorem modSlots_draw (f : Tab KeySlot → Tab KeySlot) (s : State) : (modSlots f s).draw = s.draw := rfl
@[simp] theorem modSlots_out (f : Tab KeySlot → Tab KeySlot) (s : State) : (modSlots f s).out = s.out := rfl
@[simp] theorem modSlots_ev (f : Tab KeySlot → Tab KeySlot) (s : State) : (modSlots f s).ev = s.ev := rfl
@[simp] theorem modSlots_ctr (f : Tab KeySlot → Tab KeySlot) (s : State) : (modSlots f s).ctr = s.ctr := rfl
@[simp] theorem modSlots_host (f : Tab KeySlot → Tab KeySlot) (s : State) : (modSlots f s).host = s.host := rfl
@[simp] theorem modSlots_stitch (f : Tab KeySlot → Tab KeySlot) (s : State) : (modSlots f s).stitch = s.stitch := rfl
@[simp] theorem modSlots_pon (f : Tab KeySlot → Tab KeySlot) (s : State) : (modSlots f s).pon = s.pon := rfl
@[simp] theorem modSlots_q (f : Tab KeySlot → Tab KeySlot) (s : State) : (modSlots f s).q = s.q := rfl
@[simp] theorem modSlots_tab (f : Tab KeySlot → Tab KeySlot) (s : State) : (modSlots f s).tab = s.tab := rfl
@[simp] theorem modSlots_svc (f : Tab KeySlot → Tab KeySlot) (s : State) : (modSlots f s).svc = s.svc := rfl
@[simp] theorem modSlots_time (f : Tab KeySlot → Tab KeySlot) (s : State) : (modSlots f s).time = s.time := rfl
@[simp] theorem modSlots_lane (f : Tab KeySlot → Tab KeySlot) (s : State) : (modSlots f s).lane = s.lane := rfl
@[simp] theorem modSlots_twin (f : Tab KeySlot → Tab KeySlot) (s : State) : (modSlots f s).twin = s.twin := rfl
@[simp] theorem modSlots_pwr (f : Tab KeySlot → Tab KeySlot) (s : State) : (modSlots f s).pwr = s.pwr := rfl
@[simp] theorem modCpool_pending (n : Nat) (f : CipherPool → CipherPool) (s : State) : (modCpool n f s).pending = s.pending := rfl
@[simp] theorem modCpool_now (n : Nat) (f : CipherPool → CipherPool) (s : State) : (modCpool n f s).now = s.now := rfl
@[simp] theorem modCpool_draw (n : Nat) (f : CipherPool → CipherPool) (s : State) : (modCpool n f s).draw = s.draw := rfl
@[simp] theorem modCpool_out (n : Nat) (f : CipherPool → CipherPool) (s : State) : (modCpool n f s).out = s.out := rfl
@[simp] theorem modCpool_ev (n : Nat) (f : CipherPool → CipherPool) (s : State) : (modCpool n f s).ev = s.ev := rfl
@[simp] theorem modCpool_ctr (n : Nat) (f : CipherPool → CipherPool) (s : State) : (modCpool n f s).ctr = s.ctr := rfl
@[simp] theorem modCpool_host (n : Nat) (f : CipherPool → CipherPool) (s : State) : (modCpool n f s).host = s.host := rfl
@[simp] theorem modCpool_stitch (n : Nat) (f : CipherPool → CipherPool) (s : State) : (modCpool n f s).stitch = s.stitch := rfl
@[simp] theorem modCpool_pon (n : Nat) (f : CipherPool → CipherPool) (s : State) : (modCpool n f s).pon = s.pon := rfl
@[simp] theorem modCpool_q (n : Nat) (f : CipherPool → CipherPool) (s : State) : (modCpool n f s).q = s.q := rfl
@[simp] theorem modCpool_tab (n : Nat) (f : CipherPool → CipherPool) (s : State) : (modCpool n f s).tab = s.tab := rfl
@[simp] theorem modCpool_svc (n : Nat) (f : CipherPool → CipherPool) (s : State) : (modCpool n f s).svc = s.svc := rfl
@[simp] theorem modCpool_time (n : Nat) (f : CipherPool → CipherPool) (s : State) : (modCpool n f s).time = s.time := rfl
@[simp] theorem modCpool_lane (n : Nat) (f : CipherPool → CipherPool) (s : State) : (modCpool n f s).lane = s.lane := rfl
@[simp] theorem modCpool_twin (n : Nat) (f : CipherPool → CipherPool) (s : State) : (modCpool n f s).twin = s.twin := rfl
@[simp] theorem modCpool_pwr (n : Nat) (f : CipherPool → CipherPool) (s : State) : (modCpool n f s).pwr = s.pwr := rfl
@[simp] theorem modRail_pending (n : Nat) (f : Rail → Rail) (s : State) : (modRail n f s).pending = s.pending := rfl
@[simp] theorem modRail_now (n : Nat) (f : Rail → Rail) (s : State) : (modRail n f s).now = s.now := rfl
@[simp] theorem modRail_draw (n : Nat) (f : Rail → Rail) (s : State) : (modRail n f s).draw = s.draw := rfl
@[simp] theorem modRail_out (n : Nat) (f : Rail → Rail) (s : State) : (modRail n f s).out = s.out := rfl
@[simp] theorem modRail_ev (n : Nat) (f : Rail → Rail) (s : State) : (modRail n f s).ev = s.ev := rfl
@[simp] theorem modRail_ctr (n : Nat) (f : Rail → Rail) (s : State) : (modRail n f s).ctr = s.ctr := rfl
@[simp] theorem modRail_host (n : Nat) (f : Rail → Rail) (s : State) : (modRail n f s).host = s.host := rfl
@[simp] theorem modRail_stitch (n : Nat) (f : Rail → Rail) (s : State) : (modRail n f s).stitch = s.stitch := rfl
@[simp] theorem modRail_pon (n : Nat) (f : Rail → Rail) (s : State) : (modRail n f s).pon = s.pon := rfl
@[simp] theorem modRail_q (n : Nat) (f : Rail → Rail) (s : State) : (modRail n f s).q = s.q := rfl
@[simp] theorem modRail_tab (n : Nat) (f : Rail → Rail) (s : State) : (modRail n f s).tab = s.tab := rfl
@[simp] theorem modRail_svc (n : Nat) (f : Rail → Rail) (s : State) : (modRail n f s).svc = s.svc := rfl
@[simp] theorem modRail_ciph (n : Nat) (f : Rail → Rail) (s : State) : (modRail n f s).ciph = s.ciph := rfl
@[simp] theorem modRail_time (n : Nat) (f : Rail → Rail) (s : State) : (modRail n f s).time = s.time := rfl
@[simp] theorem modRail_lane (n : Nat) (f : Rail → Rail) (s : State) : (modRail n f s).lane = s.lane := rfl
@[simp] theorem modRail_twin (n : Nat) (f : Rail → Rail) (s : State) : (modRail n f s).twin = s.twin := rfl
@[simp] theorem modRing_pending (p : PortId) (r : Nat) (f : Ring → Ring) (s : State) : (modRing p r f s).pending = s.pending := rfl
@[simp] theorem modRing_now (p : PortId) (r : Nat) (f : Ring → Ring) (s : State) : (modRing p r f s).now = s.now := rfl
@[simp] theorem modRing_draw (p : PortId) (r : Nat) (f : Ring → Ring) (s : State) : (modRing p r f s).draw = s.draw := rfl
@[simp] theorem modRing_out (p : PortId) (r : Nat) (f : Ring → Ring) (s : State) : (modRing p r f s).out = s.out := rfl
@[simp] theorem modRing_ev (p : PortId) (r : Nat) (f : Ring → Ring) (s : State) : (modRing p r f s).ev = s.ev := rfl
@[simp] theorem modRing_ctr (p : PortId) (r : Nat) (f : Ring → Ring) (s : State) : (modRing p r f s).ctr = s.ctr := rfl
@[simp] theorem modRing_stitch (p : PortId) (r : Nat) (f : Ring → Ring) (s : State) : (modRing p r f s).stitch = s.stitch := rfl
@[simp] theorem modRing_pon (p : PortId) (r : Nat) (f : Ring → Ring) (s : State) : (modRing p r f s).pon = s.pon := rfl
@[simp] theorem modRing_q (p : PortId) (r : Nat) (f : Ring → Ring) (s : State) : (modRing p r f s).q = s.q := rfl
@[simp] theorem modRing_tab (p : PortId) (r : Nat) (f : Ring → Ring) (s : State) : (modRing p r f s).tab = s.tab := rfl
@[simp] theorem modRing_svc (p : PortId) (r : Nat) (f : Ring → Ring) (s : State) : (modRing p r f s).svc = s.svc := rfl
@[simp] theorem modRing_ciph (p : PortId) (r : Nat) (f : Ring → Ring) (s : State) : (modRing p r f s).ciph = s.ciph := rfl
@[simp] theorem modRing_time (p : PortId) (r : Nat) (f : Ring → Ring) (s : State) : (modRing p r f s).time = s.time := rfl
@[simp] theorem modRing_lane (p : PortId) (r : Nat) (f : Ring → Ring) (s : State) : (modRing p r f s).lane = s.lane := rfl
@[simp] theorem modRing_twin (p : PortId) (r : Nat) (f : Ring → Ring) (s : State) : (modRing p r f s).twin = s.twin := rfl
@[simp] theorem modRing_pwr (p : PortId) (r : Nat) (f : Ring → Ring) (s : State) : (modRing p r f s).pwr = s.pwr := rfl
@[simp] theorem modThimble_pending (n : Nat) (f : Thimble → Thimble) (s : State) : (modThimble n f s).pending = s.pending := rfl
@[simp] theorem modThimble_now (n : Nat) (f : Thimble → Thimble) (s : State) : (modThimble n f s).now = s.now := rfl
@[simp] theorem modThimble_draw (n : Nat) (f : Thimble → Thimble) (s : State) : (modThimble n f s).draw = s.draw := rfl
@[simp] theorem modThimble_out (n : Nat) (f : Thimble → Thimble) (s : State) : (modThimble n f s).out = s.out := rfl
@[simp] theorem modThimble_ev (n : Nat) (f : Thimble → Thimble) (s : State) : (modThimble n f s).ev = s.ev := rfl
@[simp] theorem modThimble_ctr (n : Nat) (f : Thimble → Thimble) (s : State) : (modThimble n f s).ctr = s.ctr := rfl
@[simp] theorem modThimble_stitch (n : Nat) (f : Thimble → Thimble) (s : State) : (modThimble n f s).stitch = s.stitch := rfl
@[simp] theorem modThimble_pon (n : Nat) (f : Thimble → Thimble) (s : State) : (modThimble n f s).pon = s.pon := rfl
@[simp] theorem modThimble_q (n : Nat) (f : Thimble → Thimble) (s : State) : (modThimble n f s).q = s.q := rfl
@[simp] theorem modThimble_tab (n : Nat) (f : Thimble → Thimble) (s : State) : (modThimble n f s).tab = s.tab := rfl
@[simp] theorem modThimble_svc (n : Nat) (f : Thimble → Thimble) (s : State) : (modThimble n f s).svc = s.svc := rfl
@[simp] theorem modThimble_ciph (n : Nat) (f : Thimble → Thimble) (s : State) : (modThimble n f s).ciph = s.ciph := rfl
@[simp] theorem modThimble_time (n : Nat) (f : Thimble → Thimble) (s : State) : (modThimble n f s).time = s.time := rfl
@[simp] theorem modThimble_lane (n : Nat) (f : Thimble → Thimble) (s : State) : (modThimble n f s).lane = s.lane := rfl
@[simp] theorem modThimble_twin (n : Nat) (f : Thimble → Thimble) (s : State) : (modThimble n f s).twin = s.twin := rfl
@[simp] theorem modThimble_pwr (n : Nat) (f : Thimble → Thimble) (s : State) : (modThimble n f s).pwr = s.pwr := rfl
@[simp] theorem modLock_pending (d : DieId) (b : Nat) (f : FmtLock → FmtLock) (s : State) : (modLock d b f s).pending = s.pending := rfl
@[simp] theorem modLock_now (d : DieId) (b : Nat) (f : FmtLock → FmtLock) (s : State) : (modLock d b f s).now = s.now := rfl
@[simp] theorem modLock_draw (d : DieId) (b : Nat) (f : FmtLock → FmtLock) (s : State) : (modLock d b f s).draw = s.draw := rfl
@[simp] theorem modLock_out (d : DieId) (b : Nat) (f : FmtLock → FmtLock) (s : State) : (modLock d b f s).out = s.out := rfl
@[simp] theorem modLock_ev (d : DieId) (b : Nat) (f : FmtLock → FmtLock) (s : State) : (modLock d b f s).ev = s.ev := rfl
@[simp] theorem modLock_ctr (d : DieId) (b : Nat) (f : FmtLock → FmtLock) (s : State) : (modLock d b f s).ctr = s.ctr := rfl
@[simp] theorem modLock_stitch (d : DieId) (b : Nat) (f : FmtLock → FmtLock) (s : State) : (modLock d b f s).stitch = s.stitch := rfl
@[simp] theorem modLock_pon (d : DieId) (b : Nat) (f : FmtLock → FmtLock) (s : State) : (modLock d b f s).pon = s.pon := rfl
@[simp] theorem modLock_q (d : DieId) (b : Nat) (f : FmtLock → FmtLock) (s : State) : (modLock d b f s).q = s.q := rfl
@[simp] theorem modLock_tab (d : DieId) (b : Nat) (f : FmtLock → FmtLock) (s : State) : (modLock d b f s).tab = s.tab := rfl
@[simp] theorem modLock_svc (d : DieId) (b : Nat) (f : FmtLock → FmtLock) (s : State) : (modLock d b f s).svc = s.svc := rfl
@[simp] theorem modLock_ciph (d : DieId) (b : Nat) (f : FmtLock → FmtLock) (s : State) : (modLock d b f s).ciph = s.ciph := rfl
@[simp] theorem modLock_time (d : DieId) (b : Nat) (f : FmtLock → FmtLock) (s : State) : (modLock d b f s).time = s.time := rfl
@[simp] theorem modLock_lane (d : DieId) (b : Nat) (f : FmtLock → FmtLock) (s : State) : (modLock d b f s).lane = s.lane := rfl
@[simp] theorem modLock_twin (d : DieId) (b : Nat) (f : FmtLock → FmtLock) (s : State) : (modLock d b f s).twin = s.twin := rfl
@[simp] theorem modLock_pwr (d : DieId) (b : Nat) (f : FmtLock → FmtLock) (s : State) : (modLock d b f s).pwr = s.pwr := rfl
@[simp] theorem modPunt_pending (p : PortId) (f : PuntPort → PuntPort) (s : State) : (modPunt p f s).pending = s.pending := by cases p <;> rfl
@[simp] theorem modPunt_now (p : PortId) (f : PuntPort → PuntPort) (s : State) : (modPunt p f s).now = s.now := by cases p <;> rfl
@[simp] theorem modPunt_draw (p : PortId) (f : PuntPort → PuntPort) (s : State) : (modPunt p f s).draw = s.draw := by cases p <;> rfl
@[simp] theorem modPunt_out (p : PortId) (f : PuntPort → PuntPort) (s : State) : (modPunt p f s).out = s.out := by cases p <;> rfl
@[simp] theorem modPunt_ev (p : PortId) (f : PuntPort → PuntPort) (s : State) : (modPunt p f s).ev = s.ev := by cases p <;> rfl
@[simp] theorem modPunt_ctr (p : PortId) (f : PuntPort → PuntPort) (s : State) : (modPunt p f s).ctr = s.ctr := by cases p <;> rfl
@[simp] theorem modPunt_stitch (p : PortId) (f : PuntPort → PuntPort) (s : State) : (modPunt p f s).stitch = s.stitch := by cases p <;> rfl
@[simp] theorem modPunt_pon (p : PortId) (f : PuntPort → PuntPort) (s : State) : (modPunt p f s).pon = s.pon := by cases p <;> rfl
@[simp] theorem modPunt_q (p : PortId) (f : PuntPort → PuntPort) (s : State) : (modPunt p f s).q = s.q := by cases p <;> rfl
@[simp] theorem modPunt_tab (p : PortId) (f : PuntPort → PuntPort) (s : State) : (modPunt p f s).tab = s.tab := by cases p <;> rfl
@[simp] theorem modPunt_svc (p : PortId) (f : PuntPort → PuntPort) (s : State) : (modPunt p f s).svc = s.svc := by cases p <;> rfl
@[simp] theorem modPunt_ciph (p : PortId) (f : PuntPort → PuntPort) (s : State) : (modPunt p f s).ciph = s.ciph := by cases p <;> rfl
@[simp] theorem modPunt_time (p : PortId) (f : PuntPort → PuntPort) (s : State) : (modPunt p f s).time = s.time := by cases p <;> rfl
@[simp] theorem modPunt_lane (p : PortId) (f : PuntPort → PuntPort) (s : State) : (modPunt p f s).lane = s.lane := by cases p <;> rfl
@[simp] theorem modPunt_twin (p : PortId) (f : PuntPort → PuntPort) (s : State) : (modPunt p f s).twin = s.twin := by cases p <;> rfl
@[simp] theorem modPunt_pwr (p : PortId) (f : PuntPort → PuntPort) (s : State) : (modPunt p f s).pwr = s.pwr := by cases p <;> rfl
@[simp] theorem modImages_pending (d : DieId) (f : ImageStore → ImageStore) (s : State) : (modImages d f s).pending = s.pending := by cases d <;> rfl
@[simp] theorem modImages_now (d : DieId) (f : ImageStore → ImageStore) (s : State) : (modImages d f s).now = s.now := by cases d <;> rfl
@[simp] theorem modImages_draw (d : DieId) (f : ImageStore → ImageStore) (s : State) : (modImages d f s).draw = s.draw := by cases d <;> rfl
@[simp] theorem modImages_out (d : DieId) (f : ImageStore → ImageStore) (s : State) : (modImages d f s).out = s.out := by cases d <;> rfl
@[simp] theorem modImages_ev (d : DieId) (f : ImageStore → ImageStore) (s : State) : (modImages d f s).ev = s.ev := by cases d <;> rfl
@[simp] theorem modImages_ctr (d : DieId) (f : ImageStore → ImageStore) (s : State) : (modImages d f s).ctr = s.ctr := by cases d <;> rfl
@[simp] theorem modImages_stitch (d : DieId) (f : ImageStore → ImageStore) (s : State) : (modImages d f s).stitch = s.stitch := by cases d <;> rfl
@[simp] theorem modImages_pon (d : DieId) (f : ImageStore → ImageStore) (s : State) : (modImages d f s).pon = s.pon := by cases d <;> rfl
@[simp] theorem modImages_q (d : DieId) (f : ImageStore → ImageStore) (s : State) : (modImages d f s).q = s.q := by cases d <;> rfl
@[simp] theorem modImages_tab (d : DieId) (f : ImageStore → ImageStore) (s : State) : (modImages d f s).tab = s.tab := by cases d <;> rfl
@[simp] theorem modImages_svc (d : DieId) (f : ImageStore → ImageStore) (s : State) : (modImages d f s).svc = s.svc := by cases d <;> rfl
@[simp] theorem modImages_ciph (d : DieId) (f : ImageStore → ImageStore) (s : State) : (modImages d f s).ciph = s.ciph := by cases d <;> rfl
@[simp] theorem modImages_time (d : DieId) (f : ImageStore → ImageStore) (s : State) : (modImages d f s).time = s.time := by cases d <;> rfl
@[simp] theorem modImages_lane (d : DieId) (f : ImageStore → ImageStore) (s : State) : (modImages d f s).lane = s.lane := by cases d <;> rfl
@[simp] theorem modImages_twin (d : DieId) (f : ImageStore → ImageStore) (s : State) : (modImages d f s).twin = s.twin := by cases d <;> rfl
@[simp] theorem modImages_pwr (d : DieId) (f : ImageStore → ImageStore) (s : State) : (modImages d f s).pwr = s.pwr := by cases d <;> rfl
@[simp] theorem setLink_pending (p : PortId) (b : Bool) (s : State) : (setLink p b s).pending = s.pending := by cases p <;> rfl
@[simp] theorem setLink_now (p : PortId) (b : Bool) (s : State) : (setLink p b s).now = s.now := by cases p <;> rfl
@[simp] theorem setLink_draw (p : PortId) (b : Bool) (s : State) : (setLink p b s).draw = s.draw := by cases p <;> rfl
@[simp] theorem setLink_out (p : PortId) (b : Bool) (s : State) : (setLink p b s).out = s.out := by cases p <;> rfl
@[simp] theorem setLink_ev (p : PortId) (b : Bool) (s : State) : (setLink p b s).ev = s.ev := by cases p <;> rfl
@[simp] theorem setLink_ctr (p : PortId) (b : Bool) (s : State) : (setLink p b s).ctr = s.ctr := by cases p <;> rfl
@[simp] theorem setLink_stitch (p : PortId) (b : Bool) (s : State) : (setLink p b s).stitch = s.stitch := by cases p <;> rfl
@[simp] theorem setLink_pon (p : PortId) (b : Bool) (s : State) : (setLink p b s).pon = s.pon := by cases p <;> rfl
@[simp] theorem setLink_q (p : PortId) (b : Bool) (s : State) : (setLink p b s).q = s.q := by cases p <;> rfl
@[simp] theorem setLink_tab (p : PortId) (b : Bool) (s : State) : (setLink p b s).tab = s.tab := by cases p <;> rfl
@[simp] theorem setLink_svc (p : PortId) (b : Bool) (s : State) : (setLink p b s).svc = s.svc := by cases p <;> rfl
@[simp] theorem setLink_ciph (p : PortId) (b : Bool) (s : State) : (setLink p b s).ciph = s.ciph := by cases p <;> rfl
@[simp] theorem setLink_time (p : PortId) (b : Bool) (s : State) : (setLink p b s).time = s.time := by cases p <;> rfl
@[simp] theorem setLink_lane (p : PortId) (b : Bool) (s : State) : (setLink p b s).lane = s.lane := by cases p <;> rfl
@[simp] theorem setLink_twin (p : PortId) (b : Bool) (s : State) : (setLink p b s).twin = s.twin := by cases p <;> rfl
@[simp] theorem setLink_pwr (p : PortId) (b : Bool) (s : State) : (setLink p b s).pwr = s.pwr := by cases p <;> rfl
@[simp] theorem modFmt_pending (d : DieId) (f : List FmtEntry → List FmtEntry) (s : State) : (modFmt d f s).pending = s.pending := by cases d <;> rfl
@[simp] theorem modFmt_now (d : DieId) (f : List FmtEntry → List FmtEntry) (s : State) : (modFmt d f s).now = s.now := by cases d <;> rfl
@[simp] theorem modFmt_draw (d : DieId) (f : List FmtEntry → List FmtEntry) (s : State) : (modFmt d f s).draw = s.draw := by cases d <;> rfl
@[simp] theorem modFmt_out (d : DieId) (f : List FmtEntry → List FmtEntry) (s : State) : (modFmt d f s).out = s.out := by cases d <;> rfl
@[simp] theorem modFmt_ev (d : DieId) (f : List FmtEntry → List FmtEntry) (s : State) : (modFmt d f s).ev = s.ev := by cases d <;> rfl
@[simp] theorem modFmt_ctr (d : DieId) (f : List FmtEntry → List FmtEntry) (s : State) : (modFmt d f s).ctr = s.ctr := by cases d <;> rfl
@[simp] theorem modFmt_host (d : DieId) (f : List FmtEntry → List FmtEntry) (s : State) : (modFmt d f s).host = s.host := by cases d <;> rfl
@[simp] theorem modFmt_stitch (d : DieId) (f : List FmtEntry → List FmtEntry) (s : State) : (modFmt d f s).stitch = s.stitch := by cases d <;> rfl
@[simp] theorem modFmt_pon (d : DieId) (f : List FmtEntry → List FmtEntry) (s : State) : (modFmt d f s).pon = s.pon := by cases d <;> rfl
@[simp] theorem modFmt_q (d : DieId) (f : List FmtEntry → List FmtEntry) (s : State) : (modFmt d f s).q = s.q := by cases d <;> rfl
@[simp] theorem modFmt_svc (d : DieId) (f : List FmtEntry → List FmtEntry) (s : State) : (modFmt d f s).svc = s.svc := by cases d <;> rfl
@[simp] theorem modFmt_ciph (d : DieId) (f : List FmtEntry → List FmtEntry) (s : State) : (modFmt d f s).ciph = s.ciph := by cases d <;> rfl
@[simp] theorem modFmt_time (d : DieId) (f : List FmtEntry → List FmtEntry) (s : State) : (modFmt d f s).time = s.time := by cases d <;> rfl
@[simp] theorem modFmt_lane (d : DieId) (f : List FmtEntry → List FmtEntry) (s : State) : (modFmt d f s).lane = s.lane := by cases d <;> rfl
@[simp] theorem modFmt_twin (d : DieId) (f : List FmtEntry → List FmtEntry) (s : State) : (modFmt d f s).twin = s.twin := by cases d <;> rfl
@[simp] theorem modFmt_pwr (d : DieId) (f : List FmtEntry → List FmtEntry) (s : State) : (modFmt d f s).pwr = s.pwr := by cases d <;> rfl
@[simp] theorem pushEv_pending (r : EvRec) (s : State) : (pushEv r s).pending = s.pending := rfl
@[simp] theorem pushEv_now (r : EvRec) (s : State) : (pushEv r s).now = s.now := rfl
@[simp] theorem pushEv_draw (r : EvRec) (s : State) : (pushEv r s).draw = s.draw := rfl
@[simp] theorem pushEv_out (r : EvRec) (s : State) : (pushEv r s).out = s.out := rfl
@[simp] theorem pushEv_ctr (r : EvRec) (s : State) : (pushEv r s).ctr = s.ctr := rfl
@[simp] theorem pushEv_host (r : EvRec) (s : State) : (pushEv r s).host = s.host := rfl
@[simp] theorem pushEv_stitch (r : EvRec) (s : State) : (pushEv r s).stitch = s.stitch := rfl
@[simp] theorem pushEv_pon (r : EvRec) (s : State) : (pushEv r s).pon = s.pon := rfl
@[simp] theorem pushEv_q (r : EvRec) (s : State) : (pushEv r s).q = s.q := rfl
@[simp] theorem pushEv_tab (r : EvRec) (s : State) : (pushEv r s).tab = s.tab := rfl
@[simp] theorem pushEv_svc (r : EvRec) (s : State) : (pushEv r s).svc = s.svc := rfl
@[simp] theorem pushEv_ciph (r : EvRec) (s : State) : (pushEv r s).ciph = s.ciph := rfl
@[simp] theorem pushEv_time (r : EvRec) (s : State) : (pushEv r s).time = s.time := rfl
@[simp] theorem pushEv_lane (r : EvRec) (s : State) : (pushEv r s).lane = s.lane := rfl
@[simp] theorem pushEv_twin (r : EvRec) (s : State) : (pushEv r s).twin = s.twin := rfl
@[simp] theorem pushEv_pwr (r : EvRec) (s : State) : (pushEv r s).pwr = s.pwr := rfl
@[simp] theorem raise_pending (n : Nat) (d : DieId) (a : List Arg) (s : State) : (raise n d a s).pending = s.pending := rfl
@[simp] theorem raise_now (n : Nat) (d : DieId) (a : List Arg) (s : State) : (raise n d a s).now = s.now := rfl
@[simp] theorem raise_draw (n : Nat) (d : DieId) (a : List Arg) (s : State) : (raise n d a s).draw = s.draw := rfl
@[simp] theorem raise_out (n : Nat) (d : DieId) (a : List Arg) (s : State) : (raise n d a s).out = s.out := rfl
@[simp] theorem raise_ctr (n : Nat) (d : DieId) (a : List Arg) (s : State) : (raise n d a s).ctr = s.ctr := rfl
@[simp] theorem raise_host (n : Nat) (d : DieId) (a : List Arg) (s : State) : (raise n d a s).host = s.host := rfl
@[simp] theorem raise_stitch (n : Nat) (d : DieId) (a : List Arg) (s : State) : (raise n d a s).stitch = s.stitch := rfl
@[simp] theorem raise_pon (n : Nat) (d : DieId) (a : List Arg) (s : State) : (raise n d a s).pon = s.pon := rfl
@[simp] theorem raise_q (n : Nat) (d : DieId) (a : List Arg) (s : State) : (raise n d a s).q = s.q := rfl
@[simp] theorem raise_tab (n : Nat) (d : DieId) (a : List Arg) (s : State) : (raise n d a s).tab = s.tab := rfl
@[simp] theorem raise_svc (n : Nat) (d : DieId) (a : List Arg) (s : State) : (raise n d a s).svc = s.svc := rfl
@[simp] theorem raise_ciph (n : Nat) (d : DieId) (a : List Arg) (s : State) : (raise n d a s).ciph = s.ciph := rfl
@[simp] theorem raise_time (n : Nat) (d : DieId) (a : List Arg) (s : State) : (raise n d a s).time = s.time := rfl
@[simp] theorem raise_lane (n : Nat) (d : DieId) (a : List Arg) (s : State) : (raise n d a s).lane = s.lane := rfl
@[simp] theorem raise_twin (n : Nat) (d : DieId) (a : List Arg) (s : State) : (raise n d a s).twin = s.twin := rfl
@[simp] theorem raise_pwr (n : Nat) (d : DieId) (a : List Arg) (s : State) : (raise n d a s).pwr = s.pwr := rfl
@[simp] theorem raiseClear_pending (n : Nat) (d : DieId) (a : List Arg) (s : State) : (raiseClear n d a s).pending = s.pending := rfl
@[simp] theorem raiseClear_now (n : Nat) (d : DieId) (a : List Arg) (s : State) : (raiseClear n d a s).now = s.now := rfl
@[simp] theorem raiseClear_draw (n : Nat) (d : DieId) (a : List Arg) (s : State) : (raiseClear n d a s).draw = s.draw := rfl
@[simp] theorem raiseClear_out (n : Nat) (d : DieId) (a : List Arg) (s : State) : (raiseClear n d a s).out = s.out := rfl
@[simp] theorem raiseClear_ctr (n : Nat) (d : DieId) (a : List Arg) (s : State) : (raiseClear n d a s).ctr = s.ctr := rfl
@[simp] theorem raiseClear_host (n : Nat) (d : DieId) (a : List Arg) (s : State) : (raiseClear n d a s).host = s.host := rfl
@[simp] theorem raiseClear_stitch (n : Nat) (d : DieId) (a : List Arg) (s : State) : (raiseClear n d a s).stitch = s.stitch := rfl
@[simp] theorem raiseClear_pon (n : Nat) (d : DieId) (a : List Arg) (s : State) : (raiseClear n d a s).pon = s.pon := rfl
@[simp] theorem raiseClear_q (n : Nat) (d : DieId) (a : List Arg) (s : State) : (raiseClear n d a s).q = s.q := rfl
@[simp] theorem raiseClear_tab (n : Nat) (d : DieId) (a : List Arg) (s : State) : (raiseClear n d a s).tab = s.tab := rfl
@[simp] theorem raiseClear_svc (n : Nat) (d : DieId) (a : List Arg) (s : State) : (raiseClear n d a s).svc = s.svc := rfl
@[simp] theorem raiseClear_ciph (n : Nat) (d : DieId) (a : List Arg) (s : State) : (raiseClear n d a s).ciph = s.ciph := rfl
@[simp] theorem raiseClear_time (n : Nat) (d : DieId) (a : List Arg) (s : State) : (raiseClear n d a s).time = s.time := rfl
@[simp] theorem raiseClear_lane (n : Nat) (d : DieId) (a : List Arg) (s : State) : (raiseClear n d a s).lane = s.lane := rfl
@[simp] theorem raiseClear_twin (n : Nat) (d : DieId) (a : List Arg) (s : State) : (raiseClear n d a s).twin = s.twin := rfl
@[simp] theorem raiseClear_pwr (n : Nat) (d : DieId) (a : List Arg) (s : State) : (raiseClear n d a s).pwr = s.pwr := rfl
@[simp] theorem putRate_pending (e : RateEnt) (s : State) : (putRate e s).pending = s.pending := rfl
@[simp] theorem putRate_now (e : RateEnt) (s : State) : (putRate e s).now = s.now := rfl
@[simp] theorem putRate_draw (e : RateEnt) (s : State) : (putRate e s).draw = s.draw := rfl
@[simp] theorem putRate_out (e : RateEnt) (s : State) : (putRate e s).out = s.out := rfl
@[simp] theorem putRate_ctr (e : RateEnt) (s : State) : (putRate e s).ctr = s.ctr := rfl
@[simp] theorem putRate_host (e : RateEnt) (s : State) : (putRate e s).host = s.host := rfl
@[simp] theorem putRate_stitch (e : RateEnt) (s : State) : (putRate e s).stitch = s.stitch := rfl
@[simp] theorem putRate_pon (e : RateEnt) (s : State) : (putRate e s).pon = s.pon := rfl
@[simp] theorem putRate_q (e : RateEnt) (s : State) : (putRate e s).q = s.q := rfl
@[simp] theorem putRate_tab (e : RateEnt) (s : State) : (putRate e s).tab = s.tab := rfl
@[simp] theorem putRate_svc (e : RateEnt) (s : State) : (putRate e s).svc = s.svc := rfl
@[simp] theorem putRate_ciph (e : RateEnt) (s : State) : (putRate e s).ciph = s.ciph := rfl
@[simp] theorem putRate_time (e : RateEnt) (s : State) : (putRate e s).time = s.time := rfl
@[simp] theorem putRate_lane (e : RateEnt) (s : State) : (putRate e s).lane = s.lane := rfl
@[simp] theorem putRate_twin (e : RateEnt) (s : State) : (putRate e s).twin = s.twin := rfl
@[simp] theorem putRate_pwr (e : RateEnt) (s : State) : (putRate e s).pwr = s.pwr := rfl
@[simp] theorem raiseLimited_pending (n : Nat) (d : DieId) (j : Nat) (p : Time) (a : List Arg) (s : State) : (raiseLimited n d j p a s).pending = s.pending := by
  unfold raiseLimited; (repeat' split) <;> rfl
@[simp] theorem raiseLimited_now (n : Nat) (d : DieId) (j : Nat) (p : Time) (a : List Arg) (s : State) : (raiseLimited n d j p a s).now = s.now := by
  unfold raiseLimited; (repeat' split) <;> rfl
@[simp] theorem raiseLimited_draw (n : Nat) (d : DieId) (j : Nat) (p : Time) (a : List Arg) (s : State) : (raiseLimited n d j p a s).draw = s.draw := by
  unfold raiseLimited; (repeat' split) <;> rfl
@[simp] theorem raiseLimited_out (n : Nat) (d : DieId) (j : Nat) (p : Time) (a : List Arg) (s : State) : (raiseLimited n d j p a s).out = s.out := by
  unfold raiseLimited; (repeat' split) <;> rfl
@[simp] theorem raiseLimited_ctr (n : Nat) (d : DieId) (j : Nat) (p : Time) (a : List Arg) (s : State) : (raiseLimited n d j p a s).ctr = s.ctr := by
  unfold raiseLimited; (repeat' split) <;> rfl
@[simp] theorem raiseLimited_host (n : Nat) (d : DieId) (j : Nat) (p : Time) (a : List Arg) (s : State) : (raiseLimited n d j p a s).host = s.host := by
  unfold raiseLimited; (repeat' split) <;> rfl
@[simp] theorem raiseLimited_stitch (n : Nat) (d : DieId) (j : Nat) (p : Time) (a : List Arg) (s : State) : (raiseLimited n d j p a s).stitch = s.stitch := by
  unfold raiseLimited; (repeat' split) <;> rfl
@[simp] theorem raiseLimited_pon (n : Nat) (d : DieId) (j : Nat) (p : Time) (a : List Arg) (s : State) : (raiseLimited n d j p a s).pon = s.pon := by
  unfold raiseLimited; (repeat' split) <;> rfl
@[simp] theorem raiseLimited_q (n : Nat) (d : DieId) (j : Nat) (p : Time) (a : List Arg) (s : State) : (raiseLimited n d j p a s).q = s.q := by
  unfold raiseLimited; (repeat' split) <;> rfl
@[simp] theorem raiseLimited_tab (n : Nat) (d : DieId) (j : Nat) (p : Time) (a : List Arg) (s : State) : (raiseLimited n d j p a s).tab = s.tab := by
  unfold raiseLimited; (repeat' split) <;> rfl
@[simp] theorem raiseLimited_svc (n : Nat) (d : DieId) (j : Nat) (p : Time) (a : List Arg) (s : State) : (raiseLimited n d j p a s).svc = s.svc := by
  unfold raiseLimited; (repeat' split) <;> rfl
@[simp] theorem raiseLimited_ciph (n : Nat) (d : DieId) (j : Nat) (p : Time) (a : List Arg) (s : State) : (raiseLimited n d j p a s).ciph = s.ciph := by
  unfold raiseLimited; (repeat' split) <;> rfl
@[simp] theorem raiseLimited_time (n : Nat) (d : DieId) (j : Nat) (p : Time) (a : List Arg) (s : State) : (raiseLimited n d j p a s).time = s.time := by
  unfold raiseLimited; (repeat' split) <;> rfl
@[simp] theorem raiseLimited_lane (n : Nat) (d : DieId) (j : Nat) (p : Time) (a : List Arg) (s : State) : (raiseLimited n d j p a s).lane = s.lane := by
  unfold raiseLimited; (repeat' split) <;> rfl
@[simp] theorem raiseLimited_twin (n : Nat) (d : DieId) (j : Nat) (p : Time) (a : List Arg) (s : State) : (raiseLimited n d j p a s).twin = s.twin := by
  unfold raiseLimited; (repeat' split) <;> rfl
@[simp] theorem raiseLimited_pwr (n : Nat) (d : DieId) (j : Nat) (p : Time) (a : List Arg) (s : State) : (raiseLimited n d j p a s).pwr = s.pwr := by
  unfold raiseLimited; (repeat' split) <;> rfl
@[simp] theorem bumpStat_pending (k o j n : Nat) (s : State) : (bumpStat k o j n s).pending = s.pending := rfl
@[simp] theorem bumpStat_now (k o j n : Nat) (s : State) : (bumpStat k o j n s).now = s.now := rfl
@[simp] theorem bumpStat_draw (k o j n : Nat) (s : State) : (bumpStat k o j n s).draw = s.draw := rfl
@[simp] theorem bumpStat_out (k o j n : Nat) (s : State) : (bumpStat k o j n s).out = s.out := rfl
@[simp] theorem bumpStat_ev (k o j n : Nat) (s : State) : (bumpStat k o j n s).ev = s.ev := rfl
@[simp] theorem bumpStat_host (k o j n : Nat) (s : State) : (bumpStat k o j n s).host = s.host := rfl
@[simp] theorem bumpStat_stitch (k o j n : Nat) (s : State) : (bumpStat k o j n s).stitch = s.stitch := rfl
@[simp] theorem bumpStat_pon (k o j n : Nat) (s : State) : (bumpStat k o j n s).pon = s.pon := rfl
@[simp] theorem bumpStat_q (k o j n : Nat) (s : State) : (bumpStat k o j n s).q = s.q := rfl
@[simp] theorem bumpStat_tab (k o j n : Nat) (s : State) : (bumpStat k o j n s).tab = s.tab := rfl
@[simp] theorem bumpStat_svc (k o j n : Nat) (s : State) : (bumpStat k o j n s).svc = s.svc := rfl
@[simp] theorem bumpStat_ciph (k o j n : Nat) (s : State) : (bumpStat k o j n s).ciph = s.ciph := rfl
@[simp] theorem bumpStat_time (k o j n : Nat) (s : State) : (bumpStat k o j n s).time = s.time := rfl
@[simp] theorem bumpStat_lane (k o j n : Nat) (s : State) : (bumpStat k o j n s).lane = s.lane := rfl
@[simp] theorem bumpStat_twin (k o j n : Nat) (s : State) : (bumpStat k o j n s).twin = s.twin := rfl
@[simp] theorem bumpStat_pwr (k o j n : Nat) (s : State) : (bumpStat k o j n s).pwr = s.pwr := rfl
@[simp] theorem bump_pending (g o j n : Nat) (s : State) : (bump g o j n s).pending = s.pending := by
  unfold bump; simp only []; split <;> simp
@[simp] theorem bump_now (g o j n : Nat) (s : State) : (bump g o j n s).now = s.now := by
  unfold bump; simp only []; split <;> simp
@[simp] theorem bump_draw (g o j n : Nat) (s : State) : (bump g o j n s).draw = s.draw := by
  unfold bump; simp only []; split <;> simp
@[simp] theorem bump_out (g o j n : Nat) (s : State) : (bump g o j n s).out = s.out := by
  unfold bump; simp only []; split <;> simp
@[simp] theorem bump_host (g o j n : Nat) (s : State) : (bump g o j n s).host = s.host := by
  unfold bump; simp only []; split <;> simp
@[simp] theorem bump_stitch (g o j n : Nat) (s : State) : (bump g o j n s).stitch = s.stitch := by
  unfold bump; simp only []; split <;> simp
@[simp] theorem bump_pon (g o j n : Nat) (s : State) : (bump g o j n s).pon = s.pon := by
  unfold bump; simp only []; split <;> simp
@[simp] theorem bump_q (g o j n : Nat) (s : State) : (bump g o j n s).q = s.q := by
  unfold bump; simp only []; split <;> simp
@[simp] theorem bump_tab (g o j n : Nat) (s : State) : (bump g o j n s).tab = s.tab := by
  unfold bump; simp only []; split <;> simp
@[simp] theorem bump_svc (g o j n : Nat) (s : State) : (bump g o j n s).svc = s.svc := by
  unfold bump; simp only []; split <;> simp
@[simp] theorem bump_ciph (g o j n : Nat) (s : State) : (bump g o j n s).ciph = s.ciph := by
  unfold bump; simp only []; split <;> simp
@[simp] theorem bump_time (g o j n : Nat) (s : State) : (bump g o j n s).time = s.time := by
  unfold bump; simp only []; split <;> simp
@[simp] theorem bump_lane (g o j n : Nat) (s : State) : (bump g o j n s).lane = s.lane := by
  unfold bump; simp only []; split <;> simp
@[simp] theorem bump_twin (g o j n : Nat) (s : State) : (bump g o j n s).twin = s.twin := by
  unfold bump; simp only []; split <;> simp
@[simp] theorem bump_pwr (g o j n : Nat) (s : State) : (bump g o j n s).pwr = s.pwr := by
  unfold bump; simp only []; split <;> simp
@[simp] theorem putPlace_pending (p : Place) (s : State) : (putPlace p s).pending = s.pending := rfl
@[simp] theorem putPlace_now (p : Place) (s : State) : (putPlace p s).now = s.now := rfl
@[simp] theorem putPlace_draw (p : Place) (s : State) : (putPlace p s).draw = s.draw := rfl
@[simp] theorem putPlace_out (p : Place) (s : State) : (putPlace p s).out = s.out := rfl
@[simp] theorem putPlace_ev (p : Place) (s : State) : (putPlace p s).ev = s.ev := rfl
@[simp] theorem putPlace_ctr (p : Place) (s : State) : (putPlace p s).ctr = s.ctr := rfl
@[simp] theorem putPlace_host (p : Place) (s : State) : (putPlace p s).host = s.host := rfl
@[simp] theorem putPlace_pon (p : Place) (s : State) : (putPlace p s).pon = s.pon := rfl
@[simp] theorem putPlace_q (p : Place) (s : State) : (putPlace p s).q = s.q := rfl
@[simp] theorem putPlace_tab (p : Place) (s : State) : (putPlace p s).tab = s.tab := rfl
@[simp] theorem putPlace_svc (p : Place) (s : State) : (putPlace p s).svc = s.svc := rfl
@[simp] theorem putPlace_ciph (p : Place) (s : State) : (putPlace p s).ciph = s.ciph := rfl
@[simp] theorem putPlace_time (p : Place) (s : State) : (putPlace p s).time = s.time := rfl
@[simp] theorem putPlace_lane (p : Place) (s : State) : (putPlace p s).lane = s.lane := rfl
@[simp] theorem putPlace_twin (p : Place) (s : State) : (putPlace p s).twin = s.twin := rfl
@[simp] theorem putPlace_pwr (p : Place) (s : State) : (putPlace p s).pwr = s.pwr := rfl
@[simp] theorem dropPlace_pending (k n : Nat) (s : State) : (dropPlace k n s).pending = s.pending := rfl
@[simp] theorem dropPlace_now (k n : Nat) (s : State) : (dropPlace k n s).now = s.now := rfl
@[simp] theorem dropPlace_draw (k n : Nat) (s : State) : (dropPlace k n s).draw = s.draw := rfl
@[simp] theorem dropPlace_out (k n : Nat) (s : State) : (dropPlace k n s).out = s.out := rfl
@[simp] theorem dropPlace_ev (k n : Nat) (s : State) : (dropPlace k n s).ev = s.ev := rfl
@[simp] theorem dropPlace_ctr (k n : Nat) (s : State) : (dropPlace k n s).ctr = s.ctr := rfl
@[simp] theorem dropPlace_host (k n : Nat) (s : State) : (dropPlace k n s).host = s.host := rfl
@[simp] theorem dropPlace_pon (k n : Nat) (s : State) : (dropPlace k n s).pon = s.pon := rfl
@[simp] theorem dropPlace_q (k n : Nat) (s : State) : (dropPlace k n s).q = s.q := rfl
@[simp] theorem dropPlace_tab (k n : Nat) (s : State) : (dropPlace k n s).tab = s.tab := rfl
@[simp] theorem dropPlace_svc (k n : Nat) (s : State) : (dropPlace k n s).svc = s.svc := rfl
@[simp] theorem dropPlace_ciph (k n : Nat) (s : State) : (dropPlace k n s).ciph = s.ciph := rfl
@[simp] theorem dropPlace_time (k n : Nat) (s : State) : (dropPlace k n s).time = s.time := rfl
@[simp] theorem dropPlace_lane (k n : Nat) (s : State) : (dropPlace k n s).lane = s.lane := rfl
@[simp] theorem dropPlace_twin (k n : Nat) (s : State) : (dropPlace k n s).twin = s.twin := rfl
@[simp] theorem dropPlace_pwr (k n : Nat) (s : State) : (dropPlace k n s).pwr = s.pwr := rfl
@[simp] theorem takeEntry_pending (h : Hdr) (s : State) : (takeEntry h s).pending = s.pending := rfl
@[simp] theorem takeEntry_now (h : Hdr) (s : State) : (takeEntry h s).now = s.now := rfl
@[simp] theorem takeEntry_draw (h : Hdr) (s : State) : (takeEntry h s).draw = s.draw := rfl
@[simp] theorem takeEntry_out (h : Hdr) (s : State) : (takeEntry h s).out = s.out := rfl
@[simp] theorem takeEntry_ev (h : Hdr) (s : State) : (takeEntry h s).ev = s.ev := rfl
@[simp] theorem takeEntry_ctr (h : Hdr) (s : State) : (takeEntry h s).ctr = s.ctr := rfl
@[simp] theorem takeEntry_stitch (h : Hdr) (s : State) : (takeEntry h s).stitch = s.stitch := rfl
@[simp] theorem takeEntry_pon (h : Hdr) (s : State) : (takeEntry h s).pon = s.pon := rfl
@[simp] theorem takeEntry_q (h : Hdr) (s : State) : (takeEntry h s).q = s.q := rfl
@[simp] theorem takeEntry_tab (h : Hdr) (s : State) : (takeEntry h s).tab = s.tab := rfl
@[simp] theorem takeEntry_svc (h : Hdr) (s : State) : (takeEntry h s).svc = s.svc := rfl
@[simp] theorem takeEntry_ciph (h : Hdr) (s : State) : (takeEntry h s).ciph = s.ciph := rfl
@[simp] theorem takeEntry_time (h : Hdr) (s : State) : (takeEntry h s).time = s.time := rfl
@[simp] theorem takeEntry_lane (h : Hdr) (s : State) : (takeEntry h s).lane = s.lane := rfl
@[simp] theorem takeEntry_twin (h : Hdr) (s : State) : (takeEntry h s).twin = s.twin := rfl
@[simp] theorem takeEntry_pwr (h : Hdr) (s : State) : (takeEntry h s).pwr = s.pwr := rfl
@[simp] theorem fireVector_pending (p : PortId) (v : Nat) (s : State) : (fireVector p v s).pending = s.pending := by
  unfold fireVector; simp only []; split <;> rfl
@[simp] theorem fireVector_now (p : PortId) (v : Nat) (s : State) : (fireVector p v s).now = s.now := by
  unfold fireVector; simp only []; split <;> rfl
@[simp] theorem fireVector_draw (p : PortId) (v : Nat) (s : State) : (fireVector p v s).draw = s.draw := by
  unfold fireVector; simp only []; split <;> rfl
@[simp] theorem fireVector_ctr (p : PortId) (v : Nat) (s : State) : (fireVector p v s).ctr = s.ctr := by
  unfold fireVector; simp only []; split <;> rfl
@[simp] theorem fireVector_host (p : PortId) (v : Nat) (s : State) : (fireVector p v s).host = s.host := by
  unfold fireVector; simp only []; split <;> rfl
@[simp] theorem fireVector_stitch (p : PortId) (v : Nat) (s : State) : (fireVector p v s).stitch = s.stitch := by
  unfold fireVector; simp only []; split <;> rfl
@[simp] theorem fireVector_pon (p : PortId) (v : Nat) (s : State) : (fireVector p v s).pon = s.pon := by
  unfold fireVector; simp only []; split <;> rfl
@[simp] theorem fireVector_q (p : PortId) (v : Nat) (s : State) : (fireVector p v s).q = s.q := by
  unfold fireVector; simp only []; split <;> rfl
@[simp] theorem fireVector_tab (p : PortId) (v : Nat) (s : State) : (fireVector p v s).tab = s.tab := by
  unfold fireVector; simp only []; split <;> rfl
@[simp] theorem fireVector_svc (p : PortId) (v : Nat) (s : State) : (fireVector p v s).svc = s.svc := by
  unfold fireVector; simp only []; split <;> rfl
@[simp] theorem fireVector_ciph (p : PortId) (v : Nat) (s : State) : (fireVector p v s).ciph = s.ciph := by
  unfold fireVector; simp only []; split <;> rfl
@[simp] theorem fireVector_time (p : PortId) (v : Nat) (s : State) : (fireVector p v s).time = s.time := by
  unfold fireVector; simp only []; split <;> rfl
@[simp] theorem fireVector_lane (p : PortId) (v : Nat) (s : State) : (fireVector p v s).lane = s.lane := by
  unfold fireVector; simp only []; split <;> rfl
@[simp] theorem fireVector_twin (p : PortId) (v : Nat) (s : State) : (fireVector p v s).twin = s.twin := by
  unfold fireVector; simp only []; split <;> rfl
@[simp] theorem fireVector_pwr (p : PortId) (v : Nat) (s : State) : (fireVector p v s).pwr = s.pwr := by
  unfold fireVector; simp only []; split <;> rfl
@[simp] theorem postReply_pending (p : PortId) (r o : Nat) (q z : Word) (g : Bool) (a : Answer) (s : State) : (postReply p r o q z g a s).pending = s.pending := by
  unfold postReply; (repeat' split) <;> (try rfl); cases g <;> simp
@[simp] theorem postReply_now (p : PortId) (r o : Nat) (q z : Word) (g : Bool) (a : Answer) (s : State) : (postReply p r o q z g a s).now = s.now := by
  unfold postReply; (repeat' split) <;> (try rfl); cases g <;> simp
@[simp] theorem postReply_draw (p : PortId) (r o : Nat) (q z : Word) (g : Bool) (a : Answer) (s : State) : (postReply p r o q z g a s).draw = s.draw := by
  unfold postReply; (repeat' split) <;> (try rfl); cases g <;> simp
@[simp] theorem postReply_ctr (p : PortId) (r o : Nat) (q z : Word) (g : Bool) (a : Answer) (s : State) : (postReply p r o q z g a s).ctr = s.ctr := by
  unfold postReply; (repeat' split) <;> (try rfl); cases g <;> simp
@[simp] theorem postReply_stitch (p : PortId) (r o : Nat) (q z : Word) (g : Bool) (a : Answer) (s : State) : (postReply p r o q z g a s).stitch = s.stitch := by
  unfold postReply; (repeat' split) <;> (try rfl); cases g <;> simp
@[simp] theorem postReply_pon (p : PortId) (r o : Nat) (q z : Word) (g : Bool) (a : Answer) (s : State) : (postReply p r o q z g a s).pon = s.pon := by
  unfold postReply; (repeat' split) <;> (try rfl); cases g <;> simp
@[simp] theorem postReply_q (p : PortId) (r o : Nat) (q z : Word) (g : Bool) (a : Answer) (s : State) : (postReply p r o q z g a s).q = s.q := by
  unfold postReply; (repeat' split) <;> (try rfl); cases g <;> simp
@[simp] theorem postReply_tab (p : PortId) (r o : Nat) (q z : Word) (g : Bool) (a : Answer) (s : State) : (postReply p r o q z g a s).tab = s.tab := by
  unfold postReply; (repeat' split) <;> (try rfl); cases g <;> simp
@[simp] theorem postReply_svc (p : PortId) (r o : Nat) (q z : Word) (g : Bool) (a : Answer) (s : State) : (postReply p r o q z g a s).svc = s.svc := by
  unfold postReply; (repeat' split) <;> (try rfl); cases g <;> simp
@[simp] theorem postReply_ciph (p : PortId) (r o : Nat) (q z : Word) (g : Bool) (a : Answer) (s : State) : (postReply p r o q z g a s).ciph = s.ciph := by
  unfold postReply; (repeat' split) <;> (try rfl); cases g <;> simp
@[simp] theorem postReply_time (p : PortId) (r o : Nat) (q z : Word) (g : Bool) (a : Answer) (s : State) : (postReply p r o q z g a s).time = s.time := by
  unfold postReply; (repeat' split) <;> (try rfl); cases g <;> simp
@[simp] theorem postReply_lane (p : PortId) (r o : Nat) (q z : Word) (g : Bool) (a : Answer) (s : State) : (postReply p r o q z g a s).lane = s.lane := by
  unfold postReply; (repeat' split) <;> (try rfl); cases g <;> simp
@[simp] theorem postReply_twin (p : PortId) (r o : Nat) (q z : Word) (g : Bool) (a : Answer) (s : State) : (postReply p r o q z g a s).twin = s.twin := by
  unfold postReply; (repeat' split) <;> (try rfl); cases g <;> simp
@[simp] theorem postReply_pwr (p : PortId) (r o : Nat) (q z : Word) (g : Bool) (a : Answer) (s : State) : (postReply p r o q z g a s).pwr = s.pwr := by
  unfold postReply; (repeat' split) <;> (try rfl); cases g <;> simp
@[simp] theorem finishRunning_pending (p : PortId) (r : Nat) (a : Answer) (s : State) : (finishRunning p r a s).pending = s.pending := by
  unfold finishRunning; split; (try rfl); simp only [doIf]; split <;> simp
@[simp] theorem finishRunning_now (p : PortId) (r : Nat) (a : Answer) (s : State) : (finishRunning p r a s).now = s.now := by
  unfold finishRunning; split; (try rfl); simp only [doIf]; split <;> simp
@[simp] theorem finishRunning_draw (p : PortId) (r : Nat) (a : Answer) (s : State) : (finishRunning p r a s).draw = s.draw := by
  unfold finishRunning; split; (try rfl); simp only [doIf]; split <;> simp
@[simp] theorem finishRunning_ctr (p : PortId) (r : Nat) (a : Answer) (s : State) : (finishRunning p r a s).ctr = s.ctr := by
  unfold finishRunning; split; (try rfl); simp only [doIf]; split <;> simp
@[simp] theorem finishRunning_stitch (p : PortId) (r : Nat) (a : Answer) (s : State) : (finishRunning p r a s).stitch = s.stitch := by
  unfold finishRunning; split; (try rfl); simp only [doIf]; split <;> simp
@[simp] theorem finishRunning_pon (p : PortId) (r : Nat) (a : Answer) (s : State) : (finishRunning p r a s).pon = s.pon := by
  unfold finishRunning; split; (try rfl); simp only [doIf]; split <;> simp
@[simp] theorem finishRunning_q (p : PortId) (r : Nat) (a : Answer) (s : State) : (finishRunning p r a s).q = s.q := by
  unfold finishRunning; split; (try rfl); simp only [doIf]; split <;> simp
@[simp] theorem finishRunning_tab (p : PortId) (r : Nat) (a : Answer) (s : State) : (finishRunning p r a s).tab = s.tab := by
  unfold finishRunning; split; (try rfl); simp only [doIf]; split <;> simp
@[simp] theorem finishRunning_svc (p : PortId) (r : Nat) (a : Answer) (s : State) : (finishRunning p r a s).svc = s.svc := by
  unfold finishRunning; split; (try rfl); simp only [doIf]; split <;> simp
@[simp] theorem finishRunning_ciph (p : PortId) (r : Nat) (a : Answer) (s : State) : (finishRunning p r a s).ciph = s.ciph := by
  unfold finishRunning; split; (try rfl); simp only [doIf]; split <;> simp
@[simp] theorem finishRunning_time (p : PortId) (r : Nat) (a : Answer) (s : State) : (finishRunning p r a s).time = s.time := by
  unfold finishRunning; split; (try rfl); simp only [doIf]; split <;> simp
@[simp] theorem finishRunning_lane (p : PortId) (r : Nat) (a : Answer) (s : State) : (finishRunning p r a s).lane = s.lane := by
  unfold finishRunning; split; (try rfl); simp only [doIf]; split <;> simp
@[simp] theorem finishRunning_twin (p : PortId) (r : Nat) (a : Answer) (s : State) : (finishRunning p r a s).twin = s.twin := by
  unfold finishRunning; split; (try rfl); simp only [doIf]; split <;> simp
@[simp] theorem finishRunning_pwr (p : PortId) (r : Nat) (a : Answer) (s : State) : (finishRunning p r a s).pwr = s.pwr := by
  unfold finishRunning; split; (try rfl); simp only [doIf]; split <;> simp

@[simp] theorem tick_now (dt : Nat) (s : State) : (tick dt s).now = s.now + dt := rfl
@[simp] theorem tick_out (dt : Nat) (s : State) : (tick dt s).out = [] := rfl
@[simp] theorem emit_out (o : Output) (s : State) : (emit o s).out = s.out ++ [o] := rfl
@[simp] theorem drawn_draw (s : State) : (drawn s).draw = s.draw + 1 := rfl
@[simp] theorem raise_held (n : Nat) (d : DieId) (a : List Arg) (s : State) :
    (raise n d a s).ev.held = s.ev.held ++ [evRec n false d 0 a s] := rfl
@[simp] theorem raiseClear_held (n : Nat) (d : DieId) (a : List Arg) (s : State) :
    (raiseClear n d a s).ev.held = s.ev.held ++ [evRec n true d 0 a s] := rfl
@[simp] theorem fireVector_held (p : PortId) (v : Nat) (s : State) : (fireVector p v s).ev.held = s.ev.held := by
  unfold fireVector; simp only []; split <;> rfl

/-! ### Objects -/

@[simp] theorem chOf_tick (dt : Nat) (c : Nat) (s : State) : chOf (tick dt s) c = chOf s c := rfl
@[simp] theorem chOf_emit (o : Output) (c : Nat) (s : State) : chOf (emit o s) c = chOf s c := rfl
@[simp] theorem chOf_drawn (c : Nat) (s : State) : chOf (drawn s) c = chOf s c := rfl
@[simp] theorem chOf_modTerm (n : Nat) (f : Terminal → Terminal) (c : Nat) (s : State) : chOf (modTerm n f s) c = chOf s c := rfl
@[simp] theorem chOf_modFit (n : Nat) (f : Fitting → Fitting) (c : Nat) (s : State) : chOf (modFit n f s) c = chOf s c := rfl
@[simp] theorem chOf_modAlloc (n : Nat) (f : Alloc → Alloc) (c : Nat) (s : State) : chOf (modAlloc n f s) c = chOf s c := rfl
@[simp] theorem chOf_modBob (n : Nat) (f : Bobbin → Bobbin) (c : Nat) (s : State) : chOf (modBob n f s) c = chOf s c := rfl
@[simp] theorem chOf_modQueue (n : Nat) (f : Queue → Queue) (c : Nat) (s : State) : chOf (modQueue n f s) c = chOf s c := rfl
@[simp] theorem chOf_modShaper (k n : Nat) (f : Shaper → Shaper) (c : Nat) (s : State) : chOf (modShaper k n f s) c = chOf s c := rfl
@[simp] theorem chOf_modPolicer (n : Nat) (f : PolicerSt → PolicerSt) (c : Nat) (s : State) : chOf (modPolicer n f s) c = chOf s c := rfl
@[simp] theorem chOf_modLane (n : Nat) (f : Lane → Lane) (c : Nat) (s : State) : chOf (modLane n f s) c = chOf s c := rfl
@[simp] theorem chOf_modSubport (n : Nat) (f : Subport → Subport) (c : Nat) (s : State) : chOf (modSubport n f s) c = chOf s c := rfl
@[simp] theorem chOf_modBase (n : Nat) (f : TimeBase → TimeBase) (c : Nat) (s : State) : chOf (modBase n f s) c = chOf s c := rfl
@[simp] theorem chOf_modSlots (f : Tab KeySlot → Tab KeySlot) (c : Nat) (s : State) : chOf (modSlots f s) c = chOf s c := rfl
@[simp] theorem chOf_modCpool (n : Nat) (f : CipherPool → CipherPool) (c : Nat) (s : State) : chOf (modCpool n f s) c = chOf s c := rfl
@[simp] theorem chOf_modRail (n : Nat) (f : Rail → Rail) (c : Nat) (s : State) : chOf (modRail n f s) c = chOf s c := rfl
@[simp] theorem chOf_modRing (p : PortId) (r : Nat) (f : Ring → Ring) (c : Nat) (s : State) : chOf (modRing p r f s) c = chOf s c := rfl
@[simp] theorem chOf_modThimble (n : Nat) (f : Thimble → Thimble) (c : Nat) (s : State) : chOf (modThimble n f s) c = chOf s c := rfl
@[simp] theorem chOf_modLock (d : DieId) (b : Nat) (f : FmtLock → FmtLock) (c : Nat) (s : State) : chOf (modLock d b f s) c = chOf s c := rfl
@[simp] theorem chOf_modPunt (p : PortId) (f : PuntPort → PuntPort) (c : Nat) (s : State) : chOf (modPunt p f s) c = chOf s c := by cases p <;> rfl
@[simp] theorem chOf_modImages (d : DieId) (f : ImageStore → ImageStore) (c : Nat) (s : State) : chOf (modImages d f s) c = chOf s c := by cases d <;> rfl
@[simp] theorem chOf_setLink (p : PortId) (b : Bool) (c : Nat) (s : State) : chOf (setLink p b s) c = chOf s c := by cases p <;> rfl
@[simp] theorem chOf_modFmt (d : DieId) (f : List FmtEntry → List FmtEntry) (c : Nat) (s : State) : chOf (modFmt d f s) c = chOf s c := by cases d <;> rfl
@[simp] theorem chOf_pushEv (r : EvRec) (c : Nat) (s : State) : chOf (pushEv r s) c = chOf s c := rfl
@[simp] theorem chOf_raise (n : Nat) (d : DieId) (a : List Arg) (c : Nat) (s : State) : chOf (raise n d a s) c = chOf s c := rfl
@[simp] theorem chOf_raiseClear (n : Nat) (d : DieId) (a : List Arg) (c : Nat) (s : State) : chOf (raiseClear n d a s) c = chOf s c := rfl
@[simp] theorem chOf_putRate (e : RateEnt) (c : Nat) (s : State) : chOf (putRate e s) c = chOf s c := rfl
@[simp] theorem chOf_raiseLimited (n : Nat) (d : DieId) (j : Nat) (p : Time) (a : List Arg) (c : Nat) (s : State) : chOf (raiseLimited n d j p a s) c = chOf s c := by simp [chOf]
@[simp] theorem chOf_bumpStat (k o j n : Nat) (c : Nat) (s : State) : chOf (bumpStat k o j n s) c = chOf s c := rfl
@[simp] theorem chOf_bump (g o j n : Nat) (c : Nat) (s : State) : chOf (bump g o j n s) c = chOf s c := by simp [chOf]
@[simp] theorem chOf_putPlace (p : Place) (c : Nat) (s : State) : chOf (putPlace p s) c = chOf s c := rfl
@[simp] theorem chOf_dropPlace (k n : Nat) (c : Nat) (s : State) : chOf (dropPlace k n s) c = chOf s c := rfl
@[simp] theorem chOf_takeEntry (h : Hdr) (c : Nat) (s : State) : chOf (takeEntry h s) c = chOf s c := rfl
@[simp] theorem chOf_fireVector (p : PortId) (v : Nat) (c : Nat) (s : State) : chOf (fireVector p v s) c = chOf s c := by simp [chOf]
@[simp] theorem chOf_postReply (p : PortId) (r o : Nat) (q z : Word) (g : Bool) (a : Answer) (c : Nat) (s : State) : chOf (postReply p r o q z g a s) c = chOf s c := by simp [chOf]
@[simp] theorem chOf_finishRunning (p : PortId) (r : Nat) (a : Answer) (c : Nat) (s : State) : chOf (finishRunning p r a s) c = chOf s c := by simp [chOf]

@[simp] theorem termOf_tick (dt : Nat) (x : Nat) (s : State) : termOf (tick dt s) x = termOf s x := rfl
@[simp] theorem termOf_emit (o : Output) (x : Nat) (s : State) : termOf (emit o s) x = termOf s x := rfl
@[simp] theorem termOf_drawn (x : Nat) (s : State) : termOf (drawn s) x = termOf s x := rfl
@[simp] theorem termOf_modCh (c : Nat) (f : Channel → Channel) (x : Nat) (s : State) : termOf (modCh c f s) x = termOf s x := rfl
@[simp] theorem termOf_modFit (n : Nat) (f : Fitting → Fitting) (x : Nat) (s : State) : termOf (modFit n f s) x = termOf s x := rfl
@[simp] theorem termOf_modAlloc (n : Nat) (f : Alloc → Alloc) (x : Nat) (s : State) : termOf (modAlloc n f s) x = termOf s x := rfl
@[simp] theorem termOf_modBob (n : Nat) (f : Bobbin → Bobbin) (x : Nat) (s : State) : termOf (modBob n f s) x = termOf s x := rfl
@[simp] theorem termOf_modQueue (n : Nat) (f : Queue → Queue) (x : Nat) (s : State) : termOf (modQueue n f s) x = termOf s x := rfl
@[simp] theorem termOf_modShaper (k n : Nat) (f : Shaper → Shaper) (x : Nat) (s : State) : termOf (modShaper k n f s) x = termOf s x := rfl
@[simp] theorem termOf_modPolicer (n : Nat) (f : PolicerSt → PolicerSt) (x : Nat) (s : State) : termOf (modPolicer n f s) x = termOf s x := rfl
@[simp] theorem termOf_modLane (n : Nat) (f : Lane → Lane) (x : Nat) (s : State) : termOf (modLane n f s) x = termOf s x := rfl
@[simp] theorem termOf_modSubport (n : Nat) (f : Subport → Subport) (x : Nat) (s : State) : termOf (modSubport n f s) x = termOf s x := rfl
@[simp] theorem termOf_modBase (n : Nat) (f : TimeBase → TimeBase) (x : Nat) (s : State) : termOf (modBase n f s) x = termOf s x := rfl
@[simp] theorem termOf_modSlots (f : Tab KeySlot → Tab KeySlot) (x : Nat) (s : State) : termOf (modSlots f s) x = termOf s x := rfl
@[simp] theorem termOf_modCpool (n : Nat) (f : CipherPool → CipherPool) (x : Nat) (s : State) : termOf (modCpool n f s) x = termOf s x := rfl
@[simp] theorem termOf_modRail (n : Nat) (f : Rail → Rail) (x : Nat) (s : State) : termOf (modRail n f s) x = termOf s x := rfl
@[simp] theorem termOf_modRing (p : PortId) (r : Nat) (f : Ring → Ring) (x : Nat) (s : State) : termOf (modRing p r f s) x = termOf s x := rfl
@[simp] theorem termOf_modThimble (n : Nat) (f : Thimble → Thimble) (x : Nat) (s : State) : termOf (modThimble n f s) x = termOf s x := rfl
@[simp] theorem termOf_modLock (d : DieId) (b : Nat) (f : FmtLock → FmtLock) (x : Nat) (s : State) : termOf (modLock d b f s) x = termOf s x := rfl
@[simp] theorem termOf_modPunt (p : PortId) (f : PuntPort → PuntPort) (x : Nat) (s : State) : termOf (modPunt p f s) x = termOf s x := by cases p <;> rfl
@[simp] theorem termOf_modImages (d : DieId) (f : ImageStore → ImageStore) (x : Nat) (s : State) : termOf (modImages d f s) x = termOf s x := by cases d <;> rfl
@[simp] theorem termOf_setLink (p : PortId) (b : Bool) (x : Nat) (s : State) : termOf (setLink p b s) x = termOf s x := by cases p <;> rfl
@[simp] theorem termOf_modFmt (d : DieId) (f : List FmtEntry → List FmtEntry) (x : Nat) (s : State) : termOf (modFmt d f s) x = termOf s x := by cases d <;> rfl
@[simp] theorem termOf_pushEv (r : EvRec) (x : Nat) (s : State) : termOf (pushEv r s) x = termOf s x := rfl
@[simp] theorem termOf_raise (n : Nat) (d : DieId) (a : List Arg) (x : Nat) (s : State) : termOf (raise n d a s) x = termOf s x := rfl
@[simp] theorem termOf_raiseClear (n : Nat) (d : DieId) (a : List Arg) (x : Nat) (s : State) : termOf (raiseClear n d a s) x = termOf s x := rfl
@[simp] theorem termOf_putRate (e : RateEnt) (x : Nat) (s : State) : termOf (putRate e s) x = termOf s x := rfl
@[simp] theorem termOf_raiseLimited (n : Nat) (d : DieId) (j : Nat) (p : Time) (a : List Arg) (x : Nat) (s : State) : termOf (raiseLimited n d j p a s) x = termOf s x := by simp [termOf]
@[simp] theorem termOf_bumpStat (k o j n : Nat) (x : Nat) (s : State) : termOf (bumpStat k o j n s) x = termOf s x := rfl
@[simp] theorem termOf_bump (g o j n : Nat) (x : Nat) (s : State) : termOf (bump g o j n s) x = termOf s x := by simp [termOf]
@[simp] theorem termOf_putPlace (p : Place) (x : Nat) (s : State) : termOf (putPlace p s) x = termOf s x := rfl
@[simp] theorem termOf_dropPlace (k n : Nat) (x : Nat) (s : State) : termOf (dropPlace k n s) x = termOf s x := rfl
@[simp] theorem termOf_takeEntry (h : Hdr) (x : Nat) (s : State) : termOf (takeEntry h s) x = termOf s x := rfl
@[simp] theorem termOf_fireVector (p : PortId) (v : Nat) (x : Nat) (s : State) : termOf (fireVector p v s) x = termOf s x := by simp [termOf]
@[simp] theorem termOf_postReply (p : PortId) (r o : Nat) (q z : Word) (g : Bool) (a : Answer) (x : Nat) (s : State) : termOf (postReply p r o q z g a s) x = termOf s x := by simp [termOf]
@[simp] theorem termOf_finishRunning (p : PortId) (r : Nat) (a : Answer) (x : Nat) (s : State) : termOf (finishRunning p r a s) x = termOf s x := by simp [termOf]

@[simp] theorem fitOf_tick (dt : Nat) (x : Nat) (s : State) : fitOf (tick dt s) x = fitOf s x := rfl
@[simp] theorem fitOf_emit (o : Output) (x : Nat) (s : State) : fitOf (emit o s) x = fitOf s x := rfl
@[simp] theorem fitOf_drawn (x : Nat) (s : State) : fitOf (drawn s) x = fitOf s x := rfl
@[simp] theorem fitOf_modCh (c : Nat) (f : Channel → Channel) (x : Nat) (s : State) : fitOf (modCh c f s) x = fitOf s x := rfl
@[simp] theorem fitOf_modTerm (n : Nat) (f : Terminal → Terminal) (x : Nat) (s : State) : fitOf (modTerm n f s) x = fitOf s x := rfl
@[simp] theorem fitOf_modAlloc (n : Nat) (f : Alloc → Alloc) (x : Nat) (s : State) : fitOf (modAlloc n f s) x = fitOf s x := rfl
@[simp] theorem fitOf_modBob (n : Nat) (f : Bobbin → Bobbin) (x : Nat) (s : State) : fitOf (modBob n f s) x = fitOf s x := rfl
@[simp] theorem fitOf_modQueue (n : Nat) (f : Queue → Queue) (x : Nat) (s : State) : fitOf (modQueue n f s) x = fitOf s x := rfl
@[simp] theorem fitOf_modShaper (k n : Nat) (f : Shaper → Shaper) (x : Nat) (s : State) : fitOf (modShaper k n f s) x = fitOf s x := rfl
@[simp] theorem fitOf_modPolicer (n : Nat) (f : PolicerSt → PolicerSt) (x : Nat) (s : State) : fitOf (modPolicer n f s) x = fitOf s x := rfl
@[simp] theorem fitOf_modLane (n : Nat) (f : Lane → Lane) (x : Nat) (s : State) : fitOf (modLane n f s) x = fitOf s x := rfl
@[simp] theorem fitOf_modSubport (n : Nat) (f : Subport → Subport) (x : Nat) (s : State) : fitOf (modSubport n f s) x = fitOf s x := rfl
@[simp] theorem fitOf_modBase (n : Nat) (f : TimeBase → TimeBase) (x : Nat) (s : State) : fitOf (modBase n f s) x = fitOf s x := rfl
@[simp] theorem fitOf_modSlots (f : Tab KeySlot → Tab KeySlot) (x : Nat) (s : State) : fitOf (modSlots f s) x = fitOf s x := rfl
@[simp] theorem fitOf_modCpool (n : Nat) (f : CipherPool → CipherPool) (x : Nat) (s : State) : fitOf (modCpool n f s) x = fitOf s x := rfl
@[simp] theorem fitOf_modRail (n : Nat) (f : Rail → Rail) (x : Nat) (s : State) : fitOf (modRail n f s) x = fitOf s x := rfl
@[simp] theorem fitOf_modRing (p : PortId) (r : Nat) (f : Ring → Ring) (x : Nat) (s : State) : fitOf (modRing p r f s) x = fitOf s x := rfl
@[simp] theorem fitOf_modThimble (n : Nat) (f : Thimble → Thimble) (x : Nat) (s : State) : fitOf (modThimble n f s) x = fitOf s x := rfl
@[simp] theorem fitOf_modLock (d : DieId) (b : Nat) (f : FmtLock → FmtLock) (x : Nat) (s : State) : fitOf (modLock d b f s) x = fitOf s x := rfl
@[simp] theorem fitOf_modPunt (p : PortId) (f : PuntPort → PuntPort) (x : Nat) (s : State) : fitOf (modPunt p f s) x = fitOf s x := by cases p <;> rfl
@[simp] theorem fitOf_modImages (d : DieId) (f : ImageStore → ImageStore) (x : Nat) (s : State) : fitOf (modImages d f s) x = fitOf s x := by cases d <;> rfl
@[simp] theorem fitOf_setLink (p : PortId) (b : Bool) (x : Nat) (s : State) : fitOf (setLink p b s) x = fitOf s x := by cases p <;> rfl
@[simp] theorem fitOf_modFmt (d : DieId) (f : List FmtEntry → List FmtEntry) (x : Nat) (s : State) : fitOf (modFmt d f s) x = fitOf s x := by cases d <;> rfl
@[simp] theorem fitOf_pushEv (r : EvRec) (x : Nat) (s : State) : fitOf (pushEv r s) x = fitOf s x := rfl
@[simp] theorem fitOf_raise (n : Nat) (d : DieId) (a : List Arg) (x : Nat) (s : State) : fitOf (raise n d a s) x = fitOf s x := rfl
@[simp] theorem fitOf_raiseClear (n : Nat) (d : DieId) (a : List Arg) (x : Nat) (s : State) : fitOf (raiseClear n d a s) x = fitOf s x := rfl
@[simp] theorem fitOf_putRate (e : RateEnt) (x : Nat) (s : State) : fitOf (putRate e s) x = fitOf s x := rfl
@[simp] theorem fitOf_raiseLimited (n : Nat) (d : DieId) (j : Nat) (p : Time) (a : List Arg) (x : Nat) (s : State) : fitOf (raiseLimited n d j p a s) x = fitOf s x := by simp [fitOf]
@[simp] theorem fitOf_bumpStat (k o j n : Nat) (x : Nat) (s : State) : fitOf (bumpStat k o j n s) x = fitOf s x := rfl
@[simp] theorem fitOf_bump (g o j n : Nat) (x : Nat) (s : State) : fitOf (bump g o j n s) x = fitOf s x := by simp [fitOf]
@[simp] theorem fitOf_putPlace (p : Place) (x : Nat) (s : State) : fitOf (putPlace p s) x = fitOf s x := rfl
@[simp] theorem fitOf_dropPlace (k n : Nat) (x : Nat) (s : State) : fitOf (dropPlace k n s) x = fitOf s x := rfl
@[simp] theorem fitOf_takeEntry (h : Hdr) (x : Nat) (s : State) : fitOf (takeEntry h s) x = fitOf s x := rfl
@[simp] theorem fitOf_fireVector (p : PortId) (v : Nat) (x : Nat) (s : State) : fitOf (fireVector p v s) x = fitOf s x := by simp [fitOf]
@[simp] theorem fitOf_postReply (p : PortId) (r o : Nat) (q z : Word) (g : Bool) (a : Answer) (x : Nat) (s : State) : fitOf (postReply p r o q z g a s) x = fitOf s x := by simp [fitOf]
@[simp] theorem fitOf_finishRunning (p : PortId) (r : Nat) (a : Answer) (x : Nat) (s : State) : fitOf (finishRunning p r a s) x = fitOf s x := by simp [fitOf]

@[simp] theorem allocOf_tick (dt : Nat) (x : Nat) (s : State) : allocOf (tick dt s) x = allocOf s x := rfl
@[simp] theorem allocOf_emit (o : Output) (x : Nat) (s : State) : allocOf (emit o s) x = allocOf s x := rfl
@[simp] theorem allocOf_drawn (x : Nat) (s : State) : allocOf (drawn s) x = allocOf s x := rfl
@[simp] theorem allocOf_modCh (c : Nat) (f : Channel → Channel) (x : Nat) (s : State) : allocOf (modCh c f s) x = allocOf s x := rfl
@[simp] theorem allocOf_modTerm (n : Nat) (f : Terminal → Terminal) (x : Nat) (s : State) : allocOf (modTerm n f s) x = allocOf s x := rfl
@[simp] theorem allocOf_modFit (n : Nat) (f : Fitting → Fitting) (x : Nat) (s : State) : allocOf (modFit n f s) x = allocOf s x := rfl
@[simp] theorem allocOf_modBob (n : Nat) (f : Bobbin → Bobbin) (x : Nat) (s : State) : allocOf (modBob n f s) x = allocOf s x := rfl
@[simp] theorem allocOf_modQueue (n : Nat) (f : Queue → Queue) (x : Nat) (s : State) : allocOf (modQueue n f s) x = allocOf s x := rfl
@[simp] theorem allocOf_modShaper (k n : Nat) (f : Shaper → Shaper) (x : Nat) (s : State) : allocOf (modShaper k n f s) x = allocOf s x := rfl
@[simp] theorem allocOf_modPolicer (n : Nat) (f : PolicerSt → PolicerSt) (x : Nat) (s : State) : allocOf (modPolicer n f s) x = allocOf s x := rfl
@[simp] theorem allocOf_modLane (n : Nat) (f : Lane → Lane) (x : Nat) (s : State) : allocOf (modLane n f s) x = allocOf s x := rfl
@[simp] theorem allocOf_modSubport (n : Nat) (f : Subport → Subport) (x : Nat) (s : State) : allocOf (modSubport n f s) x = allocOf s x := rfl
@[simp] theorem allocOf_modBase (n : Nat) (f : TimeBase → TimeBase) (x : Nat) (s : State) : allocOf (modBase n f s) x = allocOf s x := rfl
@[simp] theorem allocOf_modSlots (f : Tab KeySlot → Tab KeySlot) (x : Nat) (s : State) : allocOf (modSlots f s) x = allocOf s x := rfl
@[simp] theorem allocOf_modCpool (n : Nat) (f : CipherPool → CipherPool) (x : Nat) (s : State) : allocOf (modCpool n f s) x = allocOf s x := rfl
@[simp] theorem allocOf_modRail (n : Nat) (f : Rail → Rail) (x : Nat) (s : State) : allocOf (modRail n f s) x = allocOf s x := rfl
@[simp] theorem allocOf_modRing (p : PortId) (r : Nat) (f : Ring → Ring) (x : Nat) (s : State) : allocOf (modRing p r f s) x = allocOf s x := rfl
@[simp] theorem allocOf_modThimble (n : Nat) (f : Thimble → Thimble) (x : Nat) (s : State) : allocOf (modThimble n f s) x = allocOf s x := rfl
@[simp] theorem allocOf_modLock (d : DieId) (b : Nat) (f : FmtLock → FmtLock) (x : Nat) (s : State) : allocOf (modLock d b f s) x = allocOf s x := rfl
@[simp] theorem allocOf_modPunt (p : PortId) (f : PuntPort → PuntPort) (x : Nat) (s : State) : allocOf (modPunt p f s) x = allocOf s x := by cases p <;> rfl
@[simp] theorem allocOf_modImages (d : DieId) (f : ImageStore → ImageStore) (x : Nat) (s : State) : allocOf (modImages d f s) x = allocOf s x := by cases d <;> rfl
@[simp] theorem allocOf_setLink (p : PortId) (b : Bool) (x : Nat) (s : State) : allocOf (setLink p b s) x = allocOf s x := by cases p <;> rfl
@[simp] theorem allocOf_modFmt (d : DieId) (f : List FmtEntry → List FmtEntry) (x : Nat) (s : State) : allocOf (modFmt d f s) x = allocOf s x := by cases d <;> rfl
@[simp] theorem allocOf_pushEv (r : EvRec) (x : Nat) (s : State) : allocOf (pushEv r s) x = allocOf s x := rfl
@[simp] theorem allocOf_raise (n : Nat) (d : DieId) (a : List Arg) (x : Nat) (s : State) : allocOf (raise n d a s) x = allocOf s x := rfl
@[simp] theorem allocOf_raiseClear (n : Nat) (d : DieId) (a : List Arg) (x : Nat) (s : State) : allocOf (raiseClear n d a s) x = allocOf s x := rfl
@[simp] theorem allocOf_putRate (e : RateEnt) (x : Nat) (s : State) : allocOf (putRate e s) x = allocOf s x := rfl
@[simp] theorem allocOf_raiseLimited (n : Nat) (d : DieId) (j : Nat) (p : Time) (a : List Arg) (x : Nat) (s : State) : allocOf (raiseLimited n d j p a s) x = allocOf s x := by simp [allocOf]
@[simp] theorem allocOf_bumpStat (k o j n : Nat) (x : Nat) (s : State) : allocOf (bumpStat k o j n s) x = allocOf s x := rfl
@[simp] theorem allocOf_bump (g o j n : Nat) (x : Nat) (s : State) : allocOf (bump g o j n s) x = allocOf s x := by simp [allocOf]
@[simp] theorem allocOf_putPlace (p : Place) (x : Nat) (s : State) : allocOf (putPlace p s) x = allocOf s x := rfl
@[simp] theorem allocOf_dropPlace (k n : Nat) (x : Nat) (s : State) : allocOf (dropPlace k n s) x = allocOf s x := rfl
@[simp] theorem allocOf_takeEntry (h : Hdr) (x : Nat) (s : State) : allocOf (takeEntry h s) x = allocOf s x := rfl
@[simp] theorem allocOf_fireVector (p : PortId) (v : Nat) (x : Nat) (s : State) : allocOf (fireVector p v s) x = allocOf s x := by simp [allocOf]
@[simp] theorem allocOf_postReply (p : PortId) (r o : Nat) (q z : Word) (g : Bool) (a : Answer) (x : Nat) (s : State) : allocOf (postReply p r o q z g a s) x = allocOf s x := by simp [allocOf]
@[simp] theorem allocOf_finishRunning (p : PortId) (r : Nat) (a : Answer) (x : Nat) (s : State) : allocOf (finishRunning p r a s) x = allocOf s x := by simp [allocOf]

@[simp] theorem bobOf_tick (dt : Nat) (x : Nat) (s : State) : bobOf (tick dt s) x = bobOf s x := rfl
@[simp] theorem bobOf_emit (o : Output) (x : Nat) (s : State) : bobOf (emit o s) x = bobOf s x := rfl
@[simp] theorem bobOf_drawn (x : Nat) (s : State) : bobOf (drawn s) x = bobOf s x := rfl
@[simp] theorem bobOf_modCh (c : Nat) (f : Channel → Channel) (x : Nat) (s : State) : bobOf (modCh c f s) x = bobOf s x := rfl
@[simp] theorem bobOf_modTerm (n : Nat) (f : Terminal → Terminal) (x : Nat) (s : State) : bobOf (modTerm n f s) x = bobOf s x := rfl
@[simp] theorem bobOf_modFit (n : Nat) (f : Fitting → Fitting) (x : Nat) (s : State) : bobOf (modFit n f s) x = bobOf s x := rfl
@[simp] theorem bobOf_modAlloc (n : Nat) (f : Alloc → Alloc) (x : Nat) (s : State) : bobOf (modAlloc n f s) x = bobOf s x := rfl
@[simp] theorem bobOf_modQueue (n : Nat) (f : Queue → Queue) (x : Nat) (s : State) : bobOf (modQueue n f s) x = bobOf s x := rfl
@[simp] theorem bobOf_modShaper (k n : Nat) (f : Shaper → Shaper) (x : Nat) (s : State) : bobOf (modShaper k n f s) x = bobOf s x := rfl
@[simp] theorem bobOf_modPolicer (n : Nat) (f : PolicerSt → PolicerSt) (x : Nat) (s : State) : bobOf (modPolicer n f s) x = bobOf s x := rfl
@[simp] theorem bobOf_modLane (n : Nat) (f : Lane → Lane) (x : Nat) (s : State) : bobOf (modLane n f s) x = bobOf s x := rfl
@[simp] theorem bobOf_modSubport (n : Nat) (f : Subport → Subport) (x : Nat) (s : State) : bobOf (modSubport n f s) x = bobOf s x := rfl
@[simp] theorem bobOf_modBase (n : Nat) (f : TimeBase → TimeBase) (x : Nat) (s : State) : bobOf (modBase n f s) x = bobOf s x := rfl
@[simp] theorem bobOf_modSlots (f : Tab KeySlot → Tab KeySlot) (x : Nat) (s : State) : bobOf (modSlots f s) x = bobOf s x := rfl
@[simp] theorem bobOf_modCpool (n : Nat) (f : CipherPool → CipherPool) (x : Nat) (s : State) : bobOf (modCpool n f s) x = bobOf s x := rfl
@[simp] theorem bobOf_modRail (n : Nat) (f : Rail → Rail) (x : Nat) (s : State) : bobOf (modRail n f s) x = bobOf s x := rfl
@[simp] theorem bobOf_modRing (p : PortId) (r : Nat) (f : Ring → Ring) (x : Nat) (s : State) : bobOf (modRing p r f s) x = bobOf s x := rfl
@[simp] theorem bobOf_modThimble (n : Nat) (f : Thimble → Thimble) (x : Nat) (s : State) : bobOf (modThimble n f s) x = bobOf s x := rfl
@[simp] theorem bobOf_modLock (d : DieId) (b : Nat) (f : FmtLock → FmtLock) (x : Nat) (s : State) : bobOf (modLock d b f s) x = bobOf s x := rfl
@[simp] theorem bobOf_modPunt (p : PortId) (f : PuntPort → PuntPort) (x : Nat) (s : State) : bobOf (modPunt p f s) x = bobOf s x := by cases p <;> rfl
@[simp] theorem bobOf_modImages (d : DieId) (f : ImageStore → ImageStore) (x : Nat) (s : State) : bobOf (modImages d f s) x = bobOf s x := by cases d <;> rfl
@[simp] theorem bobOf_setLink (p : PortId) (b : Bool) (x : Nat) (s : State) : bobOf (setLink p b s) x = bobOf s x := by cases p <;> rfl
@[simp] theorem bobOf_modFmt (d : DieId) (f : List FmtEntry → List FmtEntry) (x : Nat) (s : State) : bobOf (modFmt d f s) x = bobOf s x := by cases d <;> rfl
@[simp] theorem bobOf_pushEv (r : EvRec) (x : Nat) (s : State) : bobOf (pushEv r s) x = bobOf s x := rfl
@[simp] theorem bobOf_raise (n : Nat) (d : DieId) (a : List Arg) (x : Nat) (s : State) : bobOf (raise n d a s) x = bobOf s x := rfl
@[simp] theorem bobOf_raiseClear (n : Nat) (d : DieId) (a : List Arg) (x : Nat) (s : State) : bobOf (raiseClear n d a s) x = bobOf s x := rfl
@[simp] theorem bobOf_putRate (e : RateEnt) (x : Nat) (s : State) : bobOf (putRate e s) x = bobOf s x := rfl
@[simp] theorem bobOf_raiseLimited (n : Nat) (d : DieId) (j : Nat) (p : Time) (a : List Arg) (x : Nat) (s : State) : bobOf (raiseLimited n d j p a s) x = bobOf s x := by simp [bobOf]
@[simp] theorem bobOf_bumpStat (k o j n : Nat) (x : Nat) (s : State) : bobOf (bumpStat k o j n s) x = bobOf s x := rfl
@[simp] theorem bobOf_bump (g o j n : Nat) (x : Nat) (s : State) : bobOf (bump g o j n s) x = bobOf s x := by simp [bobOf]
@[simp] theorem bobOf_putPlace (p : Place) (x : Nat) (s : State) : bobOf (putPlace p s) x = bobOf s x := rfl
@[simp] theorem bobOf_dropPlace (k n : Nat) (x : Nat) (s : State) : bobOf (dropPlace k n s) x = bobOf s x := rfl
@[simp] theorem bobOf_takeEntry (h : Hdr) (x : Nat) (s : State) : bobOf (takeEntry h s) x = bobOf s x := rfl
@[simp] theorem bobOf_fireVector (p : PortId) (v : Nat) (x : Nat) (s : State) : bobOf (fireVector p v s) x = bobOf s x := by simp [bobOf]
@[simp] theorem bobOf_postReply (p : PortId) (r o : Nat) (q z : Word) (g : Bool) (a : Answer) (x : Nat) (s : State) : bobOf (postReply p r o q z g a s) x = bobOf s x := by simp [bobOf]
@[simp] theorem bobOf_finishRunning (p : PortId) (r : Nat) (a : Answer) (x : Nat) (s : State) : bobOf (finishRunning p r a s) x = bobOf s x := by simp [bobOf]

@[simp] theorem queueOf_tick (dt : Nat) (x : Nat) (s : State) : queueOf (tick dt s) x = queueOf s x := rfl
@[simp] theorem queueOf_emit (o : Output) (x : Nat) (s : State) : queueOf (emit o s) x = queueOf s x := rfl
@[simp] theorem queueOf_drawn (x : Nat) (s : State) : queueOf (drawn s) x = queueOf s x := rfl
@[simp] theorem queueOf_modCh (c : Nat) (f : Channel → Channel) (x : Nat) (s : State) : queueOf (modCh c f s) x = queueOf s x := rfl
@[simp] theorem queueOf_modTerm (n : Nat) (f : Terminal → Terminal) (x : Nat) (s : State) : queueOf (modTerm n f s) x = queueOf s x := rfl
@[simp] theorem queueOf_modFit (n : Nat) (f : Fitting → Fitting) (x : Nat) (s : State) : queueOf (modFit n f s) x = queueOf s x := rfl
@[simp] theorem queueOf_modAlloc (n : Nat) (f : Alloc → Alloc) (x : Nat) (s : State) : queueOf (modAlloc n f s) x = queueOf s x := rfl
@[simp] theorem queueOf_modBob (n : Nat) (f : Bobbin → Bobbin) (x : Nat) (s : State) : queueOf (modBob n f s) x = queueOf s x := rfl
@[simp] theorem queueOf_modShaper (k n : Nat) (f : Shaper → Shaper) (x : Nat) (s : State) : queueOf (modShaper k n f s) x = queueOf s x := rfl
@[simp] theorem queueOf_modPolicer (n : Nat) (f : PolicerSt → PolicerSt) (x : Nat) (s : State) : queueOf (modPolicer n f s) x = queueOf s x := rfl
@[simp] theorem queueOf_modLane (n : Nat) (f : Lane → Lane) (x : Nat) (s : State) : queueOf (modLane n f s) x = queueOf s x := rfl
@[simp] theorem queueOf_modSubport (n : Nat) (f : Subport → Subport) (x : Nat) (s : State) : queueOf (modSubport n f s) x = queueOf s x := rfl
@[simp] theorem queueOf_modBase (n : Nat) (f : TimeBase → TimeBase) (x : Nat) (s : State) : queueOf (modBase n f s) x = queueOf s x := rfl
@[simp] theorem queueOf_modSlots (f : Tab KeySlot → Tab KeySlot) (x : Nat) (s : State) : queueOf (modSlots f s) x = queueOf s x := rfl
@[simp] theorem queueOf_modCpool (n : Nat) (f : CipherPool → CipherPool) (x : Nat) (s : State) : queueOf (modCpool n f s) x = queueOf s x := rfl
@[simp] theorem queueOf_modRail (n : Nat) (f : Rail → Rail) (x : Nat) (s : State) : queueOf (modRail n f s) x = queueOf s x := rfl
@[simp] theorem queueOf_modRing (p : PortId) (r : Nat) (f : Ring → Ring) (x : Nat) (s : State) : queueOf (modRing p r f s) x = queueOf s x := rfl
@[simp] theorem queueOf_modThimble (n : Nat) (f : Thimble → Thimble) (x : Nat) (s : State) : queueOf (modThimble n f s) x = queueOf s x := rfl
@[simp] theorem queueOf_modLock (d : DieId) (b : Nat) (f : FmtLock → FmtLock) (x : Nat) (s : State) : queueOf (modLock d b f s) x = queueOf s x := rfl
@[simp] theorem queueOf_modPunt (p : PortId) (f : PuntPort → PuntPort) (x : Nat) (s : State) : queueOf (modPunt p f s) x = queueOf s x := by cases p <;> rfl
@[simp] theorem queueOf_modImages (d : DieId) (f : ImageStore → ImageStore) (x : Nat) (s : State) : queueOf (modImages d f s) x = queueOf s x := by cases d <;> rfl
@[simp] theorem queueOf_setLink (p : PortId) (b : Bool) (x : Nat) (s : State) : queueOf (setLink p b s) x = queueOf s x := by cases p <;> rfl
@[simp] theorem queueOf_modFmt (d : DieId) (f : List FmtEntry → List FmtEntry) (x : Nat) (s : State) : queueOf (modFmt d f s) x = queueOf s x := by cases d <;> rfl
@[simp] theorem queueOf_pushEv (r : EvRec) (x : Nat) (s : State) : queueOf (pushEv r s) x = queueOf s x := rfl
@[simp] theorem queueOf_raise (n : Nat) (d : DieId) (a : List Arg) (x : Nat) (s : State) : queueOf (raise n d a s) x = queueOf s x := rfl
@[simp] theorem queueOf_raiseClear (n : Nat) (d : DieId) (a : List Arg) (x : Nat) (s : State) : queueOf (raiseClear n d a s) x = queueOf s x := rfl
@[simp] theorem queueOf_putRate (e : RateEnt) (x : Nat) (s : State) : queueOf (putRate e s) x = queueOf s x := rfl
@[simp] theorem queueOf_raiseLimited (n : Nat) (d : DieId) (j : Nat) (p : Time) (a : List Arg) (x : Nat) (s : State) : queueOf (raiseLimited n d j p a s) x = queueOf s x := by simp [queueOf]
@[simp] theorem queueOf_bumpStat (k o j n : Nat) (x : Nat) (s : State) : queueOf (bumpStat k o j n s) x = queueOf s x := rfl
@[simp] theorem queueOf_bump (g o j n : Nat) (x : Nat) (s : State) : queueOf (bump g o j n s) x = queueOf s x := by simp [queueOf]
@[simp] theorem queueOf_putPlace (p : Place) (x : Nat) (s : State) : queueOf (putPlace p s) x = queueOf s x := rfl
@[simp] theorem queueOf_dropPlace (k n : Nat) (x : Nat) (s : State) : queueOf (dropPlace k n s) x = queueOf s x := rfl
@[simp] theorem queueOf_takeEntry (h : Hdr) (x : Nat) (s : State) : queueOf (takeEntry h s) x = queueOf s x := rfl
@[simp] theorem queueOf_fireVector (p : PortId) (v : Nat) (x : Nat) (s : State) : queueOf (fireVector p v s) x = queueOf s x := by simp [queueOf]
@[simp] theorem queueOf_postReply (p : PortId) (r o : Nat) (q z : Word) (g : Bool) (a : Answer) (x : Nat) (s : State) : queueOf (postReply p r o q z g a s) x = queueOf s x := by simp [queueOf]
@[simp] theorem queueOf_finishRunning (p : PortId) (r : Nat) (a : Answer) (x : Nat) (s : State) : queueOf (finishRunning p r a s) x = queueOf s x := by simp [queueOf]

@[simp] theorem shaperOf_tick (dt : Nat) (x y : Nat) (s : State) : shaperOf (tick dt s) x y = shaperOf s x y := rfl
@[simp] theorem shaperOf_emit (o : Output) (x y : Nat) (s : State) : shaperOf (emit o s) x y = shaperOf s x y := rfl
@[simp] theorem shaperOf_drawn (x y : Nat) (s : State) : shaperOf (drawn s) x y = shaperOf s x y := rfl
@[simp] theorem shaperOf_modCh (c : Nat) (f : Channel → Channel) (x y : Nat) (s : State) : shaperOf (modCh c f s) x y = shaperOf s x y := rfl
@[simp] theorem shaperOf_modTerm (n : Nat) (f : Terminal → Terminal) (x y : Nat) (s : State) : shaperOf (modTerm n f s) x y = shaperOf s x y := rfl
@[simp] theorem shaperOf_modFit (n : Nat) (f : Fitting → Fitting) (x y : Nat) (s : State) : shaperOf (modFit n f s) x y = shaperOf s x y := rfl
@[simp] theorem shaperOf_modAlloc (n : Nat) (f : Alloc → Alloc) (x y : Nat) (s : State) : shaperOf (modAlloc n f s) x y = shaperOf s x y := rfl
@[simp] theorem shaperOf_modBob (n : Nat) (f : Bobbin → Bobbin) (x y : Nat) (s : State) : shaperOf (modBob n f s) x y = shaperOf s x y := rfl
@[simp] theorem shaperOf_modQueue (n : Nat) (f : Queue → Queue) (x y : Nat) (s : State) : shaperOf (modQueue n f s) x y = shaperOf s x y := rfl
@[simp] theorem shaperOf_modPolicer (n : Nat) (f : PolicerSt → PolicerSt) (x y : Nat) (s : State) : shaperOf (modPolicer n f s) x y = shaperOf s x y := rfl
@[simp] theorem shaperOf_modLane (n : Nat) (f : Lane → Lane) (x y : Nat) (s : State) : shaperOf (modLane n f s) x y = shaperOf s x y := rfl
@[simp] theorem shaperOf_modSubport (n : Nat) (f : Subport → Subport) (x y : Nat) (s : State) : shaperOf (modSubport n f s) x y = shaperOf s x y := rfl
@[simp] theorem shaperOf_modBase (n : Nat) (f : TimeBase → TimeBase) (x y : Nat) (s : State) : shaperOf (modBase n f s) x y = shaperOf s x y := rfl
@[simp] theorem shaperOf_modSlots (f : Tab KeySlot → Tab KeySlot) (x y : Nat) (s : State) : shaperOf (modSlots f s) x y = shaperOf s x y := rfl
@[simp] theorem shaperOf_modCpool (n : Nat) (f : CipherPool → CipherPool) (x y : Nat) (s : State) : shaperOf (modCpool n f s) x y = shaperOf s x y := rfl
@[simp] theorem shaperOf_modRail (n : Nat) (f : Rail → Rail) (x y : Nat) (s : State) : shaperOf (modRail n f s) x y = shaperOf s x y := rfl
@[simp] theorem shaperOf_modRing (p : PortId) (r : Nat) (f : Ring → Ring) (x y : Nat) (s : State) : shaperOf (modRing p r f s) x y = shaperOf s x y := rfl
@[simp] theorem shaperOf_modThimble (n : Nat) (f : Thimble → Thimble) (x y : Nat) (s : State) : shaperOf (modThimble n f s) x y = shaperOf s x y := rfl
@[simp] theorem shaperOf_modLock (d : DieId) (b : Nat) (f : FmtLock → FmtLock) (x y : Nat) (s : State) : shaperOf (modLock d b f s) x y = shaperOf s x y := rfl
@[simp] theorem shaperOf_modPunt (p : PortId) (f : PuntPort → PuntPort) (x y : Nat) (s : State) : shaperOf (modPunt p f s) x y = shaperOf s x y := by cases p <;> rfl
@[simp] theorem shaperOf_modImages (d : DieId) (f : ImageStore → ImageStore) (x y : Nat) (s : State) : shaperOf (modImages d f s) x y = shaperOf s x y := by cases d <;> rfl
@[simp] theorem shaperOf_setLink (p : PortId) (b : Bool) (x y : Nat) (s : State) : shaperOf (setLink p b s) x y = shaperOf s x y := by cases p <;> rfl
@[simp] theorem shaperOf_modFmt (d : DieId) (f : List FmtEntry → List FmtEntry) (x y : Nat) (s : State) : shaperOf (modFmt d f s) x y = shaperOf s x y := by cases d <;> rfl
@[simp] theorem shaperOf_pushEv (r : EvRec) (x y : Nat) (s : State) : shaperOf (pushEv r s) x y = shaperOf s x y := rfl
@[simp] theorem shaperOf_raise (n : Nat) (d : DieId) (a : List Arg) (x y : Nat) (s : State) : shaperOf (raise n d a s) x y = shaperOf s x y := rfl
@[simp] theorem shaperOf_raiseClear (n : Nat) (d : DieId) (a : List Arg) (x y : Nat) (s : State) : shaperOf (raiseClear n d a s) x y = shaperOf s x y := rfl
@[simp] theorem shaperOf_putRate (e : RateEnt) (x y : Nat) (s : State) : shaperOf (putRate e s) x y = shaperOf s x y := rfl
@[simp] theorem shaperOf_raiseLimited (n : Nat) (d : DieId) (j : Nat) (p : Time) (a : List Arg) (x y : Nat) (s : State) : shaperOf (raiseLimited n d j p a s) x y = shaperOf s x y := by simp [shaperOf]
@[simp] theorem shaperOf_bumpStat (k o j n : Nat) (x y : Nat) (s : State) : shaperOf (bumpStat k o j n s) x y = shaperOf s x y := rfl
@[simp] theorem shaperOf_bump (g o j n : Nat) (x y : Nat) (s : State) : shaperOf (bump g o j n s) x y = shaperOf s x y := by simp [shaperOf]
@[simp] theorem shaperOf_putPlace (p : Place) (x y : Nat) (s : State) : shaperOf (putPlace p s) x y = shaperOf s x y := rfl
@[simp] theorem shaperOf_dropPlace (k n : Nat) (x y : Nat) (s : State) : shaperOf (dropPlace k n s) x y = shaperOf s x y := rfl
@[simp] theorem shaperOf_takeEntry (h : Hdr) (x y : Nat) (s : State) : shaperOf (takeEntry h s) x y = shaperOf s x y := rfl
@[simp] theorem shaperOf_fireVector (p : PortId) (v : Nat) (x y : Nat) (s : State) : shaperOf (fireVector p v s) x y = shaperOf s x y := by simp [shaperOf]
@[simp] theorem shaperOf_postReply (p : PortId) (r o : Nat) (q z : Word) (g : Bool) (a : Answer) (x y : Nat) (s : State) : shaperOf (postReply p r o q z g a s) x y = shaperOf s x y := by simp [shaperOf]
@[simp] theorem shaperOf_finishRunning (p : PortId) (r : Nat) (a : Answer) (x y : Nat) (s : State) : shaperOf (finishRunning p r a s) x y = shaperOf s x y := by simp [shaperOf]

@[simp] theorem policerOf_tick (dt : Nat) (x : Nat) (s : State) : policerOf (tick dt s) x = policerOf s x := rfl
@[simp] theorem policerOf_emit (o : Output) (x : Nat) (s : State) : policerOf (emit o s) x = policerOf s x := rfl
@[simp] theorem policerOf_drawn (x : Nat) (s : State) : policerOf (drawn s) x = policerOf s x := rfl
@[simp] theorem policerOf_modCh (c : Nat) (f : Channel → Channel) (x : Nat) (s : State) : policerOf (modCh c f s) x = policerOf s x := rfl
@[simp] theorem policerOf_modTerm (n : Nat) (f : Terminal → Terminal) (x : Nat) (s : State) : policerOf (modTerm n f s) x = policerOf s x := rfl
@[simp] theorem policerOf_modFit (n : Nat) (f : Fitting → Fitting) (x : Nat) (s : State) : policerOf (modFit n f s) x = policerOf s x := rfl
@[simp] theorem policerOf_modAlloc (n : Nat) (f : Alloc → Alloc) (x : Nat) (s : State) : policerOf (modAlloc n f s) x = policerOf s x := rfl
@[simp] theorem policerOf_modBob (n : Nat) (f : Bobbin → Bobbin) (x : Nat) (s : State) : policerOf (modBob n f s) x = policerOf s x := rfl
@[simp] theorem policerOf_modQueue (n : Nat) (f : Queue → Queue) (x : Nat) (s : State) : policerOf (modQueue n f s) x = policerOf s x := rfl
@[simp] theorem policerOf_modShaper (k n : Nat) (f : Shaper → Shaper) (x : Nat) (s : State) : policerOf (modShaper k n f s) x = policerOf s x := rfl
@[simp] theorem policerOf_modLane (n : Nat) (f : Lane → Lane) (x : Nat) (s : State) : policerOf (modLane n f s) x = policerOf s x := rfl
@[simp] theorem policerOf_modSubport (n : Nat) (f : Subport → Subport) (x : Nat) (s : State) : policerOf (modSubport n f s) x = policerOf s x := rfl
@[simp] theorem policerOf_modBase (n : Nat) (f : TimeBase → TimeBase) (x : Nat) (s : State) : policerOf (modBase n f s) x = policerOf s x := rfl
@[simp] theorem policerOf_modSlots (f : Tab KeySlot → Tab KeySlot) (x : Nat) (s : State) : policerOf (modSlots f s) x = policerOf s x := rfl
@[simp] theorem policerOf_modCpool (n : Nat) (f : CipherPool → CipherPool) (x : Nat) (s : State) : policerOf (modCpool n f s) x = policerOf s x := rfl
@[simp] theorem policerOf_modRail (n : Nat) (f : Rail → Rail) (x : Nat) (s : State) : policerOf (modRail n f s) x = policerOf s x := rfl
@[simp] theorem policerOf_modRing (p : PortId) (r : Nat) (f : Ring → Ring) (x : Nat) (s : State) : policerOf (modRing p r f s) x = policerOf s x := rfl
@[simp] theorem policerOf_modThimble (n : Nat) (f : Thimble → Thimble) (x : Nat) (s : State) : policerOf (modThimble n f s) x = policerOf s x := rfl
@[simp] theorem policerOf_modLock (d : DieId) (b : Nat) (f : FmtLock → FmtLock) (x : Nat) (s : State) : policerOf (modLock d b f s) x = policerOf s x := rfl
@[simp] theorem policerOf_modPunt (p : PortId) (f : PuntPort → PuntPort) (x : Nat) (s : State) : policerOf (modPunt p f s) x = policerOf s x := by cases p <;> rfl
@[simp] theorem policerOf_modImages (d : DieId) (f : ImageStore → ImageStore) (x : Nat) (s : State) : policerOf (modImages d f s) x = policerOf s x := by cases d <;> rfl
@[simp] theorem policerOf_setLink (p : PortId) (b : Bool) (x : Nat) (s : State) : policerOf (setLink p b s) x = policerOf s x := by cases p <;> rfl
@[simp] theorem policerOf_modFmt (d : DieId) (f : List FmtEntry → List FmtEntry) (x : Nat) (s : State) : policerOf (modFmt d f s) x = policerOf s x := by cases d <;> rfl
@[simp] theorem policerOf_pushEv (r : EvRec) (x : Nat) (s : State) : policerOf (pushEv r s) x = policerOf s x := rfl
@[simp] theorem policerOf_raise (n : Nat) (d : DieId) (a : List Arg) (x : Nat) (s : State) : policerOf (raise n d a s) x = policerOf s x := rfl
@[simp] theorem policerOf_raiseClear (n : Nat) (d : DieId) (a : List Arg) (x : Nat) (s : State) : policerOf (raiseClear n d a s) x = policerOf s x := rfl
@[simp] theorem policerOf_putRate (e : RateEnt) (x : Nat) (s : State) : policerOf (putRate e s) x = policerOf s x := rfl
@[simp] theorem policerOf_raiseLimited (n : Nat) (d : DieId) (j : Nat) (p : Time) (a : List Arg) (x : Nat) (s : State) : policerOf (raiseLimited n d j p a s) x = policerOf s x := by simp [policerOf]
@[simp] theorem policerOf_bumpStat (k o j n : Nat) (x : Nat) (s : State) : policerOf (bumpStat k o j n s) x = policerOf s x := rfl
@[simp] theorem policerOf_bump (g o j n : Nat) (x : Nat) (s : State) : policerOf (bump g o j n s) x = policerOf s x := by simp [policerOf]
@[simp] theorem policerOf_putPlace (p : Place) (x : Nat) (s : State) : policerOf (putPlace p s) x = policerOf s x := rfl
@[simp] theorem policerOf_dropPlace (k n : Nat) (x : Nat) (s : State) : policerOf (dropPlace k n s) x = policerOf s x := rfl
@[simp] theorem policerOf_takeEntry (h : Hdr) (x : Nat) (s : State) : policerOf (takeEntry h s) x = policerOf s x := rfl
@[simp] theorem policerOf_fireVector (p : PortId) (v : Nat) (x : Nat) (s : State) : policerOf (fireVector p v s) x = policerOf s x := by simp [policerOf]
@[simp] theorem policerOf_postReply (p : PortId) (r o : Nat) (q z : Word) (g : Bool) (a : Answer) (x : Nat) (s : State) : policerOf (postReply p r o q z g a s) x = policerOf s x := by simp [policerOf]
@[simp] theorem policerOf_finishRunning (p : PortId) (r : Nat) (a : Answer) (x : Nat) (s : State) : policerOf (finishRunning p r a s) x = policerOf s x := by simp [policerOf]

@[simp] theorem laneOf_tick (dt : Nat) (x : Nat) (s : State) : laneOf (tick dt s) x = laneOf s x := rfl
@[simp] theorem laneOf_emit (o : Output) (x : Nat) (s : State) : laneOf (emit o s) x = laneOf s x := rfl
@[simp] theorem laneOf_drawn (x : Nat) (s : State) : laneOf (drawn s) x = laneOf s x := rfl
@[simp] theorem laneOf_modCh (c : Nat) (f : Channel → Channel) (x : Nat) (s : State) : laneOf (modCh c f s) x = laneOf s x := rfl
@[simp] theorem laneOf_modTerm (n : Nat) (f : Terminal → Terminal) (x : Nat) (s : State) : laneOf (modTerm n f s) x = laneOf s x := rfl
@[simp] theorem laneOf_modFit (n : Nat) (f : Fitting → Fitting) (x : Nat) (s : State) : laneOf (modFit n f s) x = laneOf s x := rfl
@[simp] theorem laneOf_modAlloc (n : Nat) (f : Alloc → Alloc) (x : Nat) (s : State) : laneOf (modAlloc n f s) x = laneOf s x := rfl
@[simp] theorem laneOf_modBob (n : Nat) (f : Bobbin → Bobbin) (x : Nat) (s : State) : laneOf (modBob n f s) x = laneOf s x := rfl
@[simp] theorem laneOf_modQueue (n : Nat) (f : Queue → Queue) (x : Nat) (s : State) : laneOf (modQueue n f s) x = laneOf s x := rfl
@[simp] theorem laneOf_modShaper (k n : Nat) (f : Shaper → Shaper) (x : Nat) (s : State) : laneOf (modShaper k n f s) x = laneOf s x := rfl
@[simp] theorem laneOf_modPolicer (n : Nat) (f : PolicerSt → PolicerSt) (x : Nat) (s : State) : laneOf (modPolicer n f s) x = laneOf s x := rfl
@[simp] theorem laneOf_modSubport (n : Nat) (f : Subport → Subport) (x : Nat) (s : State) : laneOf (modSubport n f s) x = laneOf s x := rfl
@[simp] theorem laneOf_modBase (n : Nat) (f : TimeBase → TimeBase) (x : Nat) (s : State) : laneOf (modBase n f s) x = laneOf s x := rfl
@[simp] theorem laneOf_modSlots (f : Tab KeySlot → Tab KeySlot) (x : Nat) (s : State) : laneOf (modSlots f s) x = laneOf s x := rfl
@[simp] theorem laneOf_modCpool (n : Nat) (f : CipherPool → CipherPool) (x : Nat) (s : State) : laneOf (modCpool n f s) x = laneOf s x := rfl
@[simp] theorem laneOf_modRail (n : Nat) (f : Rail → Rail) (x : Nat) (s : State) : laneOf (modRail n f s) x = laneOf s x := rfl
@[simp] theorem laneOf_modRing (p : PortId) (r : Nat) (f : Ring → Ring) (x : Nat) (s : State) : laneOf (modRing p r f s) x = laneOf s x := rfl
@[simp] theorem laneOf_modThimble (n : Nat) (f : Thimble → Thimble) (x : Nat) (s : State) : laneOf (modThimble n f s) x = laneOf s x := rfl
@[simp] theorem laneOf_modLock (d : DieId) (b : Nat) (f : FmtLock → FmtLock) (x : Nat) (s : State) : laneOf (modLock d b f s) x = laneOf s x := rfl
@[simp] theorem laneOf_modPunt (p : PortId) (f : PuntPort → PuntPort) (x : Nat) (s : State) : laneOf (modPunt p f s) x = laneOf s x := by cases p <;> rfl
@[simp] theorem laneOf_modImages (d : DieId) (f : ImageStore → ImageStore) (x : Nat) (s : State) : laneOf (modImages d f s) x = laneOf s x := by cases d <;> rfl
@[simp] theorem laneOf_setLink (p : PortId) (b : Bool) (x : Nat) (s : State) : laneOf (setLink p b s) x = laneOf s x := by cases p <;> rfl
@[simp] theorem laneOf_modFmt (d : DieId) (f : List FmtEntry → List FmtEntry) (x : Nat) (s : State) : laneOf (modFmt d f s) x = laneOf s x := by cases d <;> rfl
@[simp] theorem laneOf_pushEv (r : EvRec) (x : Nat) (s : State) : laneOf (pushEv r s) x = laneOf s x := rfl
@[simp] theorem laneOf_raise (n : Nat) (d : DieId) (a : List Arg) (x : Nat) (s : State) : laneOf (raise n d a s) x = laneOf s x := rfl
@[simp] theorem laneOf_raiseClear (n : Nat) (d : DieId) (a : List Arg) (x : Nat) (s : State) : laneOf (raiseClear n d a s) x = laneOf s x := rfl
@[simp] theorem laneOf_putRate (e : RateEnt) (x : Nat) (s : State) : laneOf (putRate e s) x = laneOf s x := rfl
@[simp] theorem laneOf_raiseLimited (n : Nat) (d : DieId) (j : Nat) (p : Time) (a : List Arg) (x : Nat) (s : State) : laneOf (raiseLimited n d j p a s) x = laneOf s x := by simp [laneOf]
@[simp] theorem laneOf_bumpStat (k o j n : Nat) (x : Nat) (s : State) : laneOf (bumpStat k o j n s) x = laneOf s x := rfl
@[simp] theorem laneOf_bump (g o j n : Nat) (x : Nat) (s : State) : laneOf (bump g o j n s) x = laneOf s x := by simp [laneOf]
@[simp] theorem laneOf_putPlace (p : Place) (x : Nat) (s : State) : laneOf (putPlace p s) x = laneOf s x := rfl
@[simp] theorem laneOf_dropPlace (k n : Nat) (x : Nat) (s : State) : laneOf (dropPlace k n s) x = laneOf s x := rfl
@[simp] theorem laneOf_takeEntry (h : Hdr) (x : Nat) (s : State) : laneOf (takeEntry h s) x = laneOf s x := rfl
@[simp] theorem laneOf_fireVector (p : PortId) (v : Nat) (x : Nat) (s : State) : laneOf (fireVector p v s) x = laneOf s x := by simp [laneOf]
@[simp] theorem laneOf_postReply (p : PortId) (r o : Nat) (q z : Word) (g : Bool) (a : Answer) (x : Nat) (s : State) : laneOf (postReply p r o q z g a s) x = laneOf s x := by simp [laneOf]
@[simp] theorem laneOf_finishRunning (p : PortId) (r : Nat) (a : Answer) (x : Nat) (s : State) : laneOf (finishRunning p r a s) x = laneOf s x := by simp [laneOf]

@[simp] theorem subportOf_tick (dt : Nat) (x : Nat) (s : State) : subportOf (tick dt s) x = subportOf s x := rfl
@[simp] theorem subportOf_emit (o : Output) (x : Nat) (s : State) : subportOf (emit o s) x = subportOf s x := rfl
@[simp] theorem subportOf_drawn (x : Nat) (s : State) : subportOf (drawn s) x = subportOf s x := rfl
@[simp] theorem subportOf_modCh (c : Nat) (f : Channel → Channel) (x : Nat) (s : State) : subportOf (modCh c f s) x = subportOf s x := rfl
@[simp] theorem subportOf_modTerm (n : Nat) (f : Terminal → Terminal) (x : Nat) (s : State) : subportOf (modTerm n f s) x = subportOf s x := rfl
@[simp] theorem subportOf_modFit (n : Nat) (f : Fitting → Fitting) (x : Nat) (s : State) : subportOf (modFit n f s) x = subportOf s x := rfl
@[simp] theorem subportOf_modAlloc (n : Nat) (f : Alloc → Alloc) (x : Nat) (s : State) : subportOf (modAlloc n f s) x = subportOf s x := rfl
@[simp] theorem subportOf_modBob (n : Nat) (f : Bobbin → Bobbin) (x : Nat) (s : State) : subportOf (modBob n f s) x = subportOf s x := rfl
@[simp] theorem subportOf_modQueue (n : Nat) (f : Queue → Queue) (x : Nat) (s : State) : subportOf (modQueue n f s) x = subportOf s x := rfl
@[simp] theorem subportOf_modShaper (k n : Nat) (f : Shaper → Shaper) (x : Nat) (s : State) : subportOf (modShaper k n f s) x = subportOf s x := rfl
@[simp] theorem subportOf_modPolicer (n : Nat) (f : PolicerSt → PolicerSt) (x : Nat) (s : State) : subportOf (modPolicer n f s) x = subportOf s x := rfl
@[simp] theorem subportOf_modLane (n : Nat) (f : Lane → Lane) (x : Nat) (s : State) : subportOf (modLane n f s) x = subportOf s x := rfl
@[simp] theorem subportOf_modBase (n : Nat) (f : TimeBase → TimeBase) (x : Nat) (s : State) : subportOf (modBase n f s) x = subportOf s x := rfl
@[simp] theorem subportOf_modSlots (f : Tab KeySlot → Tab KeySlot) (x : Nat) (s : State) : subportOf (modSlots f s) x = subportOf s x := rfl
@[simp] theorem subportOf_modCpool (n : Nat) (f : CipherPool → CipherPool) (x : Nat) (s : State) : subportOf (modCpool n f s) x = subportOf s x := rfl
@[simp] theorem subportOf_modRail (n : Nat) (f : Rail → Rail) (x : Nat) (s : State) : subportOf (modRail n f s) x = subportOf s x := rfl
@[simp] theorem subportOf_modRing (p : PortId) (r : Nat) (f : Ring → Ring) (x : Nat) (s : State) : subportOf (modRing p r f s) x = subportOf s x := rfl
@[simp] theorem subportOf_modThimble (n : Nat) (f : Thimble → Thimble) (x : Nat) (s : State) : subportOf (modThimble n f s) x = subportOf s x := rfl
@[simp] theorem subportOf_modLock (d : DieId) (b : Nat) (f : FmtLock → FmtLock) (x : Nat) (s : State) : subportOf (modLock d b f s) x = subportOf s x := rfl
@[simp] theorem subportOf_modPunt (p : PortId) (f : PuntPort → PuntPort) (x : Nat) (s : State) : subportOf (modPunt p f s) x = subportOf s x := by cases p <;> rfl
@[simp] theorem subportOf_modImages (d : DieId) (f : ImageStore → ImageStore) (x : Nat) (s : State) : subportOf (modImages d f s) x = subportOf s x := by cases d <;> rfl
@[simp] theorem subportOf_setLink (p : PortId) (b : Bool) (x : Nat) (s : State) : subportOf (setLink p b s) x = subportOf s x := by cases p <;> rfl
@[simp] theorem subportOf_modFmt (d : DieId) (f : List FmtEntry → List FmtEntry) (x : Nat) (s : State) : subportOf (modFmt d f s) x = subportOf s x := by cases d <;> rfl
@[simp] theorem subportOf_pushEv (r : EvRec) (x : Nat) (s : State) : subportOf (pushEv r s) x = subportOf s x := rfl
@[simp] theorem subportOf_raise (n : Nat) (d : DieId) (a : List Arg) (x : Nat) (s : State) : subportOf (raise n d a s) x = subportOf s x := rfl
@[simp] theorem subportOf_raiseClear (n : Nat) (d : DieId) (a : List Arg) (x : Nat) (s : State) : subportOf (raiseClear n d a s) x = subportOf s x := rfl
@[simp] theorem subportOf_putRate (e : RateEnt) (x : Nat) (s : State) : subportOf (putRate e s) x = subportOf s x := rfl
@[simp] theorem subportOf_raiseLimited (n : Nat) (d : DieId) (j : Nat) (p : Time) (a : List Arg) (x : Nat) (s : State) : subportOf (raiseLimited n d j p a s) x = subportOf s x := by simp [subportOf]
@[simp] theorem subportOf_bumpStat (k o j n : Nat) (x : Nat) (s : State) : subportOf (bumpStat k o j n s) x = subportOf s x := rfl
@[simp] theorem subportOf_bump (g o j n : Nat) (x : Nat) (s : State) : subportOf (bump g o j n s) x = subportOf s x := by simp [subportOf]
@[simp] theorem subportOf_putPlace (p : Place) (x : Nat) (s : State) : subportOf (putPlace p s) x = subportOf s x := rfl
@[simp] theorem subportOf_dropPlace (k n : Nat) (x : Nat) (s : State) : subportOf (dropPlace k n s) x = subportOf s x := rfl
@[simp] theorem subportOf_takeEntry (h : Hdr) (x : Nat) (s : State) : subportOf (takeEntry h s) x = subportOf s x := rfl
@[simp] theorem subportOf_fireVector (p : PortId) (v : Nat) (x : Nat) (s : State) : subportOf (fireVector p v s) x = subportOf s x := by simp [subportOf]
@[simp] theorem subportOf_postReply (p : PortId) (r o : Nat) (q z : Word) (g : Bool) (a : Answer) (x : Nat) (s : State) : subportOf (postReply p r o q z g a s) x = subportOf s x := by simp [subportOf]
@[simp] theorem subportOf_finishRunning (p : PortId) (r : Nat) (a : Answer) (x : Nat) (s : State) : subportOf (finishRunning p r a s) x = subportOf s x := by simp [subportOf]

@[simp] theorem baseOf_tick (dt : Nat) (x : Nat) (s : State) : baseOf (tick dt s) x = baseOf s x := rfl
@[simp] theorem baseOf_emit (o : Output) (x : Nat) (s : State) : baseOf (emit o s) x = baseOf s x := rfl
@[simp] theorem baseOf_drawn (x : Nat) (s : State) : baseOf (drawn s) x = baseOf s x := rfl
@[simp] theorem baseOf_modCh (c : Nat) (f : Channel → Channel) (x : Nat) (s : State) : baseOf (modCh c f s) x = baseOf s x := rfl
@[simp] theorem baseOf_modTerm (n : Nat) (f : Terminal → Terminal) (x : Nat) (s : State) : baseOf (modTerm n f s) x = baseOf s x := rfl
@[simp] theorem baseOf_modFit (n : Nat) (f : Fitting → Fitting) (x : Nat) (s : State) : baseOf (modFit n f s) x = baseOf s x := rfl
@[simp] theorem baseOf_modAlloc (n : Nat) (f : Alloc → Alloc) (x : Nat) (s : State) : baseOf (modAlloc n f s) x = baseOf s x := rfl
@[simp] theorem baseOf_modBob (n : Nat) (f : Bobbin → Bobbin) (x : Nat) (s : State) : baseOf (modBob n f s) x = baseOf s x := rfl
@[simp] theorem baseOf_modQueue (n : Nat) (f : Queue → Queue) (x : Nat) (s : State) : baseOf (modQueue n f s) x = baseOf s x := rfl
@[simp] theorem baseOf_modShaper (k n : Nat) (f : Shaper → Shaper) (x : Nat) (s : State) : baseOf (modShaper k n f s) x = baseOf s x := rfl
@[simp] theorem baseOf_modPolicer (n : Nat) (f : PolicerSt → PolicerSt) (x : Nat) (s : State) : baseOf (modPolicer n f s) x = baseOf s x := rfl
@[simp] theorem baseOf_modLane (n : Nat) (f : Lane → Lane) (x : Nat) (s : State) : baseOf (modLane n f s) x = baseOf s x := rfl
@[simp] theorem baseOf_modSubport (n : Nat) (f : Subport → Subport) (x : Nat) (s : State) : baseOf (modSubport n f s) x = baseOf s x := rfl
@[simp] theorem baseOf_modSlots (f : Tab KeySlot → Tab KeySlot) (x : Nat) (s : State) : baseOf (modSlots f s) x = baseOf s x := rfl
@[simp] theorem baseOf_modCpool (n : Nat) (f : CipherPool → CipherPool) (x : Nat) (s : State) : baseOf (modCpool n f s) x = baseOf s x := rfl
@[simp] theorem baseOf_modRail (n : Nat) (f : Rail → Rail) (x : Nat) (s : State) : baseOf (modRail n f s) x = baseOf s x := rfl
@[simp] theorem baseOf_modRing (p : PortId) (r : Nat) (f : Ring → Ring) (x : Nat) (s : State) : baseOf (modRing p r f s) x = baseOf s x := rfl
@[simp] theorem baseOf_modThimble (n : Nat) (f : Thimble → Thimble) (x : Nat) (s : State) : baseOf (modThimble n f s) x = baseOf s x := rfl
@[simp] theorem baseOf_modLock (d : DieId) (b : Nat) (f : FmtLock → FmtLock) (x : Nat) (s : State) : baseOf (modLock d b f s) x = baseOf s x := rfl
@[simp] theorem baseOf_modPunt (p : PortId) (f : PuntPort → PuntPort) (x : Nat) (s : State) : baseOf (modPunt p f s) x = baseOf s x := by cases p <;> rfl
@[simp] theorem baseOf_modImages (d : DieId) (f : ImageStore → ImageStore) (x : Nat) (s : State) : baseOf (modImages d f s) x = baseOf s x := by cases d <;> rfl
@[simp] theorem baseOf_setLink (p : PortId) (b : Bool) (x : Nat) (s : State) : baseOf (setLink p b s) x = baseOf s x := by cases p <;> rfl
@[simp] theorem baseOf_modFmt (d : DieId) (f : List FmtEntry → List FmtEntry) (x : Nat) (s : State) : baseOf (modFmt d f s) x = baseOf s x := by cases d <;> rfl
@[simp] theorem baseOf_pushEv (r : EvRec) (x : Nat) (s : State) : baseOf (pushEv r s) x = baseOf s x := rfl
@[simp] theorem baseOf_raise (n : Nat) (d : DieId) (a : List Arg) (x : Nat) (s : State) : baseOf (raise n d a s) x = baseOf s x := rfl
@[simp] theorem baseOf_raiseClear (n : Nat) (d : DieId) (a : List Arg) (x : Nat) (s : State) : baseOf (raiseClear n d a s) x = baseOf s x := rfl
@[simp] theorem baseOf_putRate (e : RateEnt) (x : Nat) (s : State) : baseOf (putRate e s) x = baseOf s x := rfl
@[simp] theorem baseOf_raiseLimited (n : Nat) (d : DieId) (j : Nat) (p : Time) (a : List Arg) (x : Nat) (s : State) : baseOf (raiseLimited n d j p a s) x = baseOf s x := by simp [baseOf]
@[simp] theorem baseOf_bumpStat (k o j n : Nat) (x : Nat) (s : State) : baseOf (bumpStat k o j n s) x = baseOf s x := rfl
@[simp] theorem baseOf_bump (g o j n : Nat) (x : Nat) (s : State) : baseOf (bump g o j n s) x = baseOf s x := by simp [baseOf]
@[simp] theorem baseOf_putPlace (p : Place) (x : Nat) (s : State) : baseOf (putPlace p s) x = baseOf s x := rfl
@[simp] theorem baseOf_dropPlace (k n : Nat) (x : Nat) (s : State) : baseOf (dropPlace k n s) x = baseOf s x := rfl
@[simp] theorem baseOf_takeEntry (h : Hdr) (x : Nat) (s : State) : baseOf (takeEntry h s) x = baseOf s x := rfl
@[simp] theorem baseOf_fireVector (p : PortId) (v : Nat) (x : Nat) (s : State) : baseOf (fireVector p v s) x = baseOf s x := by simp [baseOf]
@[simp] theorem baseOf_postReply (p : PortId) (r o : Nat) (q z : Word) (g : Bool) (a : Answer) (x : Nat) (s : State) : baseOf (postReply p r o q z g a s) x = baseOf s x := by simp [baseOf]
@[simp] theorem baseOf_finishRunning (p : PortId) (r : Nat) (a : Answer) (x : Nat) (s : State) : baseOf (finishRunning p r a s) x = baseOf s x := by simp [baseOf]

@[simp] theorem cpoolOf_tick (dt : Nat) (x : Nat) (s : State) : cpoolOf (tick dt s) x = cpoolOf s x := rfl
@[simp] theorem cpoolOf_emit (o : Output) (x : Nat) (s : State) : cpoolOf (emit o s) x = cpoolOf s x := rfl
@[simp] theorem cpoolOf_drawn (x : Nat) (s : State) : cpoolOf (drawn s) x = cpoolOf s x := rfl
@[simp] theorem cpoolOf_modCh (c : Nat) (f : Channel → Channel) (x : Nat) (s : State) : cpoolOf (modCh c f s) x = cpoolOf s x := rfl
@[simp] theorem cpoolOf_modTerm (n : Nat) (f : Terminal → Terminal) (x : Nat) (s : State) : cpoolOf (modTerm n f s) x = cpoolOf s x := rfl
@[simp] theorem cpoolOf_modFit (n : Nat) (f : Fitting → Fitting) (x : Nat) (s : State) : cpoolOf (modFit n f s) x = cpoolOf s x := rfl
@[simp] theorem cpoolOf_modAlloc (n : Nat) (f : Alloc → Alloc) (x : Nat) (s : State) : cpoolOf (modAlloc n f s) x = cpoolOf s x := rfl
@[simp] theorem cpoolOf_modBob (n : Nat) (f : Bobbin → Bobbin) (x : Nat) (s : State) : cpoolOf (modBob n f s) x = cpoolOf s x := rfl
@[simp] theorem cpoolOf_modQueue (n : Nat) (f : Queue → Queue) (x : Nat) (s : State) : cpoolOf (modQueue n f s) x = cpoolOf s x := rfl
@[simp] theorem cpoolOf_modShaper (k n : Nat) (f : Shaper → Shaper) (x : Nat) (s : State) : cpoolOf (modShaper k n f s) x = cpoolOf s x := rfl
@[simp] theorem cpoolOf_modPolicer (n : Nat) (f : PolicerSt → PolicerSt) (x : Nat) (s : State) : cpoolOf (modPolicer n f s) x = cpoolOf s x := rfl
@[simp] theorem cpoolOf_modLane (n : Nat) (f : Lane → Lane) (x : Nat) (s : State) : cpoolOf (modLane n f s) x = cpoolOf s x := rfl
@[simp] theorem cpoolOf_modSubport (n : Nat) (f : Subport → Subport) (x : Nat) (s : State) : cpoolOf (modSubport n f s) x = cpoolOf s x := rfl
@[simp] theorem cpoolOf_modBase (n : Nat) (f : TimeBase → TimeBase) (x : Nat) (s : State) : cpoolOf (modBase n f s) x = cpoolOf s x := rfl
@[simp] theorem cpoolOf_modSlots (f : Tab KeySlot → Tab KeySlot) (x : Nat) (s : State) : cpoolOf (modSlots f s) x = cpoolOf s x := rfl
@[simp] theorem cpoolOf_modRail (n : Nat) (f : Rail → Rail) (x : Nat) (s : State) : cpoolOf (modRail n f s) x = cpoolOf s x := rfl
@[simp] theorem cpoolOf_modRing (p : PortId) (r : Nat) (f : Ring → Ring) (x : Nat) (s : State) : cpoolOf (modRing p r f s) x = cpoolOf s x := rfl
@[simp] theorem cpoolOf_modThimble (n : Nat) (f : Thimble → Thimble) (x : Nat) (s : State) : cpoolOf (modThimble n f s) x = cpoolOf s x := rfl
@[simp] theorem cpoolOf_modLock (d : DieId) (b : Nat) (f : FmtLock → FmtLock) (x : Nat) (s : State) : cpoolOf (modLock d b f s) x = cpoolOf s x := rfl
@[simp] theorem cpoolOf_modPunt (p : PortId) (f : PuntPort → PuntPort) (x : Nat) (s : State) : cpoolOf (modPunt p f s) x = cpoolOf s x := by cases p <;> rfl
@[simp] theorem cpoolOf_modImages (d : DieId) (f : ImageStore → ImageStore) (x : Nat) (s : State) : cpoolOf (modImages d f s) x = cpoolOf s x := by cases d <;> rfl
@[simp] theorem cpoolOf_setLink (p : PortId) (b : Bool) (x : Nat) (s : State) : cpoolOf (setLink p b s) x = cpoolOf s x := by cases p <;> rfl
@[simp] theorem cpoolOf_modFmt (d : DieId) (f : List FmtEntry → List FmtEntry) (x : Nat) (s : State) : cpoolOf (modFmt d f s) x = cpoolOf s x := by cases d <;> rfl
@[simp] theorem cpoolOf_pushEv (r : EvRec) (x : Nat) (s : State) : cpoolOf (pushEv r s) x = cpoolOf s x := rfl
@[simp] theorem cpoolOf_raise (n : Nat) (d : DieId) (a : List Arg) (x : Nat) (s : State) : cpoolOf (raise n d a s) x = cpoolOf s x := rfl
@[simp] theorem cpoolOf_raiseClear (n : Nat) (d : DieId) (a : List Arg) (x : Nat) (s : State) : cpoolOf (raiseClear n d a s) x = cpoolOf s x := rfl
@[simp] theorem cpoolOf_putRate (e : RateEnt) (x : Nat) (s : State) : cpoolOf (putRate e s) x = cpoolOf s x := rfl
@[simp] theorem cpoolOf_raiseLimited (n : Nat) (d : DieId) (j : Nat) (p : Time) (a : List Arg) (x : Nat) (s : State) : cpoolOf (raiseLimited n d j p a s) x = cpoolOf s x := by simp [cpoolOf]
@[simp] theorem cpoolOf_bumpStat (k o j n : Nat) (x : Nat) (s : State) : cpoolOf (bumpStat k o j n s) x = cpoolOf s x := rfl
@[simp] theorem cpoolOf_bump (g o j n : Nat) (x : Nat) (s : State) : cpoolOf (bump g o j n s) x = cpoolOf s x := by simp [cpoolOf]
@[simp] theorem cpoolOf_putPlace (p : Place) (x : Nat) (s : State) : cpoolOf (putPlace p s) x = cpoolOf s x := rfl
@[simp] theorem cpoolOf_dropPlace (k n : Nat) (x : Nat) (s : State) : cpoolOf (dropPlace k n s) x = cpoolOf s x := rfl
@[simp] theorem cpoolOf_takeEntry (h : Hdr) (x : Nat) (s : State) : cpoolOf (takeEntry h s) x = cpoolOf s x := rfl
@[simp] theorem cpoolOf_fireVector (p : PortId) (v : Nat) (x : Nat) (s : State) : cpoolOf (fireVector p v s) x = cpoolOf s x := by simp [cpoolOf]
@[simp] theorem cpoolOf_postReply (p : PortId) (r o : Nat) (q z : Word) (g : Bool) (a : Answer) (x : Nat) (s : State) : cpoolOf (postReply p r o q z g a s) x = cpoolOf s x := by simp [cpoolOf]
@[simp] theorem cpoolOf_finishRunning (p : PortId) (r : Nat) (a : Answer) (x : Nat) (s : State) : cpoolOf (finishRunning p r a s) x = cpoolOf s x := by simp [cpoolOf]

@[simp] theorem railOf_tick (dt : Nat) (x : Nat) (s : State) : railOf (tick dt s) x = railOf s x := rfl
@[simp] theorem railOf_emit (o : Output) (x : Nat) (s : State) : railOf (emit o s) x = railOf s x := rfl
@[simp] theorem railOf_drawn (x : Nat) (s : State) : railOf (drawn s) x = railOf s x := rfl
@[simp] theorem railOf_modCh (c : Nat) (f : Channel → Channel) (x : Nat) (s : State) : railOf (modCh c f s) x = railOf s x := rfl
@[simp] theorem railOf_modTerm (n : Nat) (f : Terminal → Terminal) (x : Nat) (s : State) : railOf (modTerm n f s) x = railOf s x := rfl
@[simp] theorem railOf_modFit (n : Nat) (f : Fitting → Fitting) (x : Nat) (s : State) : railOf (modFit n f s) x = railOf s x := rfl
@[simp] theorem railOf_modAlloc (n : Nat) (f : Alloc → Alloc) (x : Nat) (s : State) : railOf (modAlloc n f s) x = railOf s x := rfl
@[simp] theorem railOf_modBob (n : Nat) (f : Bobbin → Bobbin) (x : Nat) (s : State) : railOf (modBob n f s) x = railOf s x := rfl
@[simp] theorem railOf_modQueue (n : Nat) (f : Queue → Queue) (x : Nat) (s : State) : railOf (modQueue n f s) x = railOf s x := rfl
@[simp] theorem railOf_modShaper (k n : Nat) (f : Shaper → Shaper) (x : Nat) (s : State) : railOf (modShaper k n f s) x = railOf s x := rfl
@[simp] theorem railOf_modPolicer (n : Nat) (f : PolicerSt → PolicerSt) (x : Nat) (s : State) : railOf (modPolicer n f s) x = railOf s x := rfl
@[simp] theorem railOf_modLane (n : Nat) (f : Lane → Lane) (x : Nat) (s : State) : railOf (modLane n f s) x = railOf s x := rfl
@[simp] theorem railOf_modSubport (n : Nat) (f : Subport → Subport) (x : Nat) (s : State) : railOf (modSubport n f s) x = railOf s x := rfl
@[simp] theorem railOf_modBase (n : Nat) (f : TimeBase → TimeBase) (x : Nat) (s : State) : railOf (modBase n f s) x = railOf s x := rfl
@[simp] theorem railOf_modSlots (f : Tab KeySlot → Tab KeySlot) (x : Nat) (s : State) : railOf (modSlots f s) x = railOf s x := rfl
@[simp] theorem railOf_modCpool (n : Nat) (f : CipherPool → CipherPool) (x : Nat) (s : State) : railOf (modCpool n f s) x = railOf s x := rfl
@[simp] theorem railOf_modRing (p : PortId) (r : Nat) (f : Ring → Ring) (x : Nat) (s : State) : railOf (modRing p r f s) x = railOf s x := rfl
@[simp] theorem railOf_modThimble (n : Nat) (f : Thimble → Thimble) (x : Nat) (s : State) : railOf (modThimble n f s) x = railOf s x := rfl
@[simp] theorem railOf_modLock (d : DieId) (b : Nat) (f : FmtLock → FmtLock) (x : Nat) (s : State) : railOf (modLock d b f s) x = railOf s x := rfl
@[simp] theorem railOf_modPunt (p : PortId) (f : PuntPort → PuntPort) (x : Nat) (s : State) : railOf (modPunt p f s) x = railOf s x := by cases p <;> rfl
@[simp] theorem railOf_modImages (d : DieId) (f : ImageStore → ImageStore) (x : Nat) (s : State) : railOf (modImages d f s) x = railOf s x := by cases d <;> rfl
@[simp] theorem railOf_setLink (p : PortId) (b : Bool) (x : Nat) (s : State) : railOf (setLink p b s) x = railOf s x := by cases p <;> rfl
@[simp] theorem railOf_modFmt (d : DieId) (f : List FmtEntry → List FmtEntry) (x : Nat) (s : State) : railOf (modFmt d f s) x = railOf s x := by cases d <;> rfl
@[simp] theorem railOf_pushEv (r : EvRec) (x : Nat) (s : State) : railOf (pushEv r s) x = railOf s x := rfl
@[simp] theorem railOf_raise (n : Nat) (d : DieId) (a : List Arg) (x : Nat) (s : State) : railOf (raise n d a s) x = railOf s x := rfl
@[simp] theorem railOf_raiseClear (n : Nat) (d : DieId) (a : List Arg) (x : Nat) (s : State) : railOf (raiseClear n d a s) x = railOf s x := rfl
@[simp] theorem railOf_putRate (e : RateEnt) (x : Nat) (s : State) : railOf (putRate e s) x = railOf s x := rfl
@[simp] theorem railOf_raiseLimited (n : Nat) (d : DieId) (j : Nat) (p : Time) (a : List Arg) (x : Nat) (s : State) : railOf (raiseLimited n d j p a s) x = railOf s x := by simp [railOf]
@[simp] theorem railOf_bumpStat (k o j n : Nat) (x : Nat) (s : State) : railOf (bumpStat k o j n s) x = railOf s x := rfl
@[simp] theorem railOf_bump (g o j n : Nat) (x : Nat) (s : State) : railOf (bump g o j n s) x = railOf s x := by simp [railOf]
@[simp] theorem railOf_putPlace (p : Place) (x : Nat) (s : State) : railOf (putPlace p s) x = railOf s x := rfl
@[simp] theorem railOf_dropPlace (k n : Nat) (x : Nat) (s : State) : railOf (dropPlace k n s) x = railOf s x := rfl
@[simp] theorem railOf_takeEntry (h : Hdr) (x : Nat) (s : State) : railOf (takeEntry h s) x = railOf s x := rfl
@[simp] theorem railOf_fireVector (p : PortId) (v : Nat) (x : Nat) (s : State) : railOf (fireVector p v s) x = railOf s x := by simp [railOf]
@[simp] theorem railOf_postReply (p : PortId) (r o : Nat) (q z : Word) (g : Bool) (a : Answer) (x : Nat) (s : State) : railOf (postReply p r o q z g a s) x = railOf s x := by simp [railOf]
@[simp] theorem railOf_finishRunning (p : PortId) (r : Nat) (a : Answer) (x : Nat) (s : State) : railOf (finishRunning p r a s) x = railOf s x := by simp [railOf]

@[simp] theorem ringOf_tick (dt : Nat) (x : PortId) (y : Nat) (s : State) : ringOf (tick dt s) x y = ringOf s x y := rfl
@[simp] theorem ringOf_emit (o : Output) (x : PortId) (y : Nat) (s : State) : ringOf (emit o s) x y = ringOf s x y := rfl
@[simp] theorem ringOf_drawn (x : PortId) (y : Nat) (s : State) : ringOf (drawn s) x y = ringOf s x y := rfl
@[simp] theorem ringOf_modCh (c : Nat) (f : Channel → Channel) (x : PortId) (y : Nat) (s : State) : ringOf (modCh c f s) x y = ringOf s x y := rfl
@[simp] theorem ringOf_modTerm (n : Nat) (f : Terminal → Terminal) (x : PortId) (y : Nat) (s : State) : ringOf (modTerm n f s) x y = ringOf s x y := rfl
@[simp] theorem ringOf_modFit (n : Nat) (f : Fitting → Fitting) (x : PortId) (y : Nat) (s : State) : ringOf (modFit n f s) x y = ringOf s x y := rfl
@[simp] theorem ringOf_modAlloc (n : Nat) (f : Alloc → Alloc) (x : PortId) (y : Nat) (s : State) : ringOf (modAlloc n f s) x y = ringOf s x y := rfl
@[simp] theorem ringOf_modBob (n : Nat) (f : Bobbin → Bobbin) (x : PortId) (y : Nat) (s : State) : ringOf (modBob n f s) x y = ringOf s x y := rfl
@[simp] theorem ringOf_modQueue (n : Nat) (f : Queue → Queue) (x : PortId) (y : Nat) (s : State) : ringOf (modQueue n f s) x y = ringOf s x y := rfl
@[simp] theorem ringOf_modShaper (k n : Nat) (f : Shaper → Shaper) (x : PortId) (y : Nat) (s : State) : ringOf (modShaper k n f s) x y = ringOf s x y := rfl
@[simp] theorem ringOf_modPolicer (n : Nat) (f : PolicerSt → PolicerSt) (x : PortId) (y : Nat) (s : State) : ringOf (modPolicer n f s) x y = ringOf s x y := rfl
@[simp] theorem ringOf_modLane (n : Nat) (f : Lane → Lane) (x : PortId) (y : Nat) (s : State) : ringOf (modLane n f s) x y = ringOf s x y := rfl
@[simp] theorem ringOf_modSubport (n : Nat) (f : Subport → Subport) (x : PortId) (y : Nat) (s : State) : ringOf (modSubport n f s) x y = ringOf s x y := rfl
@[simp] theorem ringOf_modBase (n : Nat) (f : TimeBase → TimeBase) (x : PortId) (y : Nat) (s : State) : ringOf (modBase n f s) x y = ringOf s x y := rfl
@[simp] theorem ringOf_modSlots (f : Tab KeySlot → Tab KeySlot) (x : PortId) (y : Nat) (s : State) : ringOf (modSlots f s) x y = ringOf s x y := rfl
@[simp] theorem ringOf_modCpool (n : Nat) (f : CipherPool → CipherPool) (x : PortId) (y : Nat) (s : State) : ringOf (modCpool n f s) x y = ringOf s x y := rfl
@[simp] theorem ringOf_modRail (n : Nat) (f : Rail → Rail) (x : PortId) (y : Nat) (s : State) : ringOf (modRail n f s) x y = ringOf s x y := rfl
@[simp] theorem ringOf_modThimble (n : Nat) (f : Thimble → Thimble) (x : PortId) (y : Nat) (s : State) : ringOf (modThimble n f s) x y = ringOf s x y := rfl
@[simp] theorem ringOf_modLock (d : DieId) (b : Nat) (f : FmtLock → FmtLock) (x : PortId) (y : Nat) (s : State) : ringOf (modLock d b f s) x y = ringOf s x y := rfl
@[simp] theorem ringOf_modPunt (p : PortId) (f : PuntPort → PuntPort) (x : PortId) (y : Nat) (s : State) : ringOf (modPunt p f s) x y = ringOf s x y := by cases p <;> rfl
@[simp] theorem ringOf_modImages (d : DieId) (f : ImageStore → ImageStore) (x : PortId) (y : Nat) (s : State) : ringOf (modImages d f s) x y = ringOf s x y := by cases d <;> rfl
@[simp] theorem ringOf_setLink (p : PortId) (b : Bool) (x : PortId) (y : Nat) (s : State) : ringOf (setLink p b s) x y = ringOf s x y := by cases p <;> rfl
@[simp] theorem ringOf_modFmt (d : DieId) (f : List FmtEntry → List FmtEntry) (x : PortId) (y : Nat) (s : State) : ringOf (modFmt d f s) x y = ringOf s x y := by cases d <;> rfl
@[simp] theorem ringOf_pushEv (r : EvRec) (x : PortId) (y : Nat) (s : State) : ringOf (pushEv r s) x y = ringOf s x y := rfl
@[simp] theorem ringOf_raise (n : Nat) (d : DieId) (a : List Arg) (x : PortId) (y : Nat) (s : State) : ringOf (raise n d a s) x y = ringOf s x y := rfl
@[simp] theorem ringOf_raiseClear (n : Nat) (d : DieId) (a : List Arg) (x : PortId) (y : Nat) (s : State) : ringOf (raiseClear n d a s) x y = ringOf s x y := rfl
@[simp] theorem ringOf_putRate (e : RateEnt) (x : PortId) (y : Nat) (s : State) : ringOf (putRate e s) x y = ringOf s x y := rfl
@[simp] theorem ringOf_raiseLimited (n : Nat) (d : DieId) (j : Nat) (p : Time) (a : List Arg) (x : PortId) (y : Nat) (s : State) : ringOf (raiseLimited n d j p a s) x y = ringOf s x y := by simp [ringOf]
@[simp] theorem ringOf_bumpStat (k o j n : Nat) (x : PortId) (y : Nat) (s : State) : ringOf (bumpStat k o j n s) x y = ringOf s x y := rfl
@[simp] theorem ringOf_bump (g o j n : Nat) (x : PortId) (y : Nat) (s : State) : ringOf (bump g o j n s) x y = ringOf s x y := by simp [ringOf]
@[simp] theorem ringOf_putPlace (p : Place) (x : PortId) (y : Nat) (s : State) : ringOf (putPlace p s) x y = ringOf s x y := rfl
@[simp] theorem ringOf_dropPlace (k n : Nat) (x : PortId) (y : Nat) (s : State) : ringOf (dropPlace k n s) x y = ringOf s x y := rfl
@[simp] theorem ringOf_fireVector (p : PortId) (v : Nat) (x : PortId) (y : Nat) (s : State) : ringOf (fireVector p v s) x y = ringOf s x y := by simp [ringOf]

@[simp] theorem thimbleOf_tick (dt : Nat) (x : Nat) (s : State) : thimbleOf (tick dt s) x = thimbleOf s x := rfl
@[simp] theorem thimbleOf_emit (o : Output) (x : Nat) (s : State) : thimbleOf (emit o s) x = thimbleOf s x := rfl
@[simp] theorem thimbleOf_drawn (x : Nat) (s : State) : thimbleOf (drawn s) x = thimbleOf s x := rfl
@[simp] theorem thimbleOf_modCh (c : Nat) (f : Channel → Channel) (x : Nat) (s : State) : thimbleOf (modCh c f s) x = thimbleOf s x := rfl
@[simp] theorem thimbleOf_modTerm (n : Nat) (f : Terminal → Terminal) (x : Nat) (s : State) : thimbleOf (modTerm n f s) x = thimbleOf s x := rfl
@[simp] theorem thimbleOf_modFit (n : Nat) (f : Fitting → Fitting) (x : Nat) (s : State) : thimbleOf (modFit n f s) x = thimbleOf s x := rfl
@[simp] theorem thimbleOf_modAlloc (n : Nat) (f : Alloc → Alloc) (x : Nat) (s : State) : thimbleOf (modAlloc n f s) x = thimbleOf s x := rfl
@[simp] theorem thimbleOf_modBob (n : Nat) (f : Bobbin → Bobbin) (x : Nat) (s : State) : thimbleOf (modBob n f s) x = thimbleOf s x := rfl
@[simp] theorem thimbleOf_modQueue (n : Nat) (f : Queue → Queue) (x : Nat) (s : State) : thimbleOf (modQueue n f s) x = thimbleOf s x := rfl
@[simp] theorem thimbleOf_modShaper (k n : Nat) (f : Shaper → Shaper) (x : Nat) (s : State) : thimbleOf (modShaper k n f s) x = thimbleOf s x := rfl
@[simp] theorem thimbleOf_modPolicer (n : Nat) (f : PolicerSt → PolicerSt) (x : Nat) (s : State) : thimbleOf (modPolicer n f s) x = thimbleOf s x := rfl
@[simp] theorem thimbleOf_modLane (n : Nat) (f : Lane → Lane) (x : Nat) (s : State) : thimbleOf (modLane n f s) x = thimbleOf s x := rfl
@[simp] theorem thimbleOf_modSubport (n : Nat) (f : Subport → Subport) (x : Nat) (s : State) : thimbleOf (modSubport n f s) x = thimbleOf s x := rfl
@[simp] theorem thimbleOf_modBase (n : Nat) (f : TimeBase → TimeBase) (x : Nat) (s : State) : thimbleOf (modBase n f s) x = thimbleOf s x := rfl
@[simp] theorem thimbleOf_modSlots (f : Tab KeySlot → Tab KeySlot) (x : Nat) (s : State) : thimbleOf (modSlots f s) x = thimbleOf s x := rfl
@[simp] theorem thimbleOf_modCpool (n : Nat) (f : CipherPool → CipherPool) (x : Nat) (s : State) : thimbleOf (modCpool n f s) x = thimbleOf s x := rfl
@[simp] theorem thimbleOf_modRail (n : Nat) (f : Rail → Rail) (x : Nat) (s : State) : thimbleOf (modRail n f s) x = thimbleOf s x := rfl
@[simp] theorem thimbleOf_modRing (p : PortId) (r : Nat) (f : Ring → Ring) (x : Nat) (s : State) : thimbleOf (modRing p r f s) x = thimbleOf s x := rfl
@[simp] theorem thimbleOf_modLock (d : DieId) (b : Nat) (f : FmtLock → FmtLock) (x : Nat) (s : State) : thimbleOf (modLock d b f s) x = thimbleOf s x := rfl
@[simp] theorem thimbleOf_modPunt (p : PortId) (f : PuntPort → PuntPort) (x : Nat) (s : State) : thimbleOf (modPunt p f s) x = thimbleOf s x := by cases p <;> rfl
@[simp] theorem thimbleOf_modImages (d : DieId) (f : ImageStore → ImageStore) (x : Nat) (s : State) : thimbleOf (modImages d f s) x = thimbleOf s x := by cases d <;> rfl
@[simp] theorem thimbleOf_setLink (p : PortId) (b : Bool) (x : Nat) (s : State) : thimbleOf (setLink p b s) x = thimbleOf s x := by cases p <;> rfl
@[simp] theorem thimbleOf_modFmt (d : DieId) (f : List FmtEntry → List FmtEntry) (x : Nat) (s : State) : thimbleOf (modFmt d f s) x = thimbleOf s x := by cases d <;> rfl
@[simp] theorem thimbleOf_pushEv (r : EvRec) (x : Nat) (s : State) : thimbleOf (pushEv r s) x = thimbleOf s x := rfl
@[simp] theorem thimbleOf_raise (n : Nat) (d : DieId) (a : List Arg) (x : Nat) (s : State) : thimbleOf (raise n d a s) x = thimbleOf s x := rfl
@[simp] theorem thimbleOf_raiseClear (n : Nat) (d : DieId) (a : List Arg) (x : Nat) (s : State) : thimbleOf (raiseClear n d a s) x = thimbleOf s x := rfl
@[simp] theorem thimbleOf_putRate (e : RateEnt) (x : Nat) (s : State) : thimbleOf (putRate e s) x = thimbleOf s x := rfl
@[simp] theorem thimbleOf_raiseLimited (n : Nat) (d : DieId) (j : Nat) (p : Time) (a : List Arg) (x : Nat) (s : State) : thimbleOf (raiseLimited n d j p a s) x = thimbleOf s x := by simp [thimbleOf]
@[simp] theorem thimbleOf_bumpStat (k o j n : Nat) (x : Nat) (s : State) : thimbleOf (bumpStat k o j n s) x = thimbleOf s x := rfl
@[simp] theorem thimbleOf_bump (g o j n : Nat) (x : Nat) (s : State) : thimbleOf (bump g o j n s) x = thimbleOf s x := by simp [thimbleOf]
@[simp] theorem thimbleOf_putPlace (p : Place) (x : Nat) (s : State) : thimbleOf (putPlace p s) x = thimbleOf s x := rfl
@[simp] theorem thimbleOf_dropPlace (k n : Nat) (x : Nat) (s : State) : thimbleOf (dropPlace k n s) x = thimbleOf s x := rfl
@[simp] theorem thimbleOf_takeEntry (h : Hdr) (x : Nat) (s : State) : thimbleOf (takeEntry h s) x = thimbleOf s x := rfl
@[simp] theorem thimbleOf_fireVector (p : PortId) (v : Nat) (x : Nat) (s : State) : thimbleOf (fireVector p v s) x = thimbleOf s x := by simp [thimbleOf]
@[simp] theorem thimbleOf_postReply (p : PortId) (r o : Nat) (q z : Word) (g : Bool) (a : Answer) (x : Nat) (s : State) : thimbleOf (postReply p r o q z g a s) x = thimbleOf s x := by
  unfold postReply; (repeat' split) <;> (try rfl); cases g <;> simp
@[simp] theorem thimbleOf_finishRunning (p : PortId) (r : Nat) (a : Answer) (x : Nat) (s : State) : thimbleOf (finishRunning p r a s) x = thimbleOf s x := by
  unfold finishRunning; split; (try rfl); simp only [doIf]; split <;> simp

@[simp] theorem lockOf_tick (dt : Nat) (x : DieId) (y : Nat) (s : State) : lockOf (tick dt s) x y = lockOf s x y := rfl
@[simp] theorem lockOf_emit (o : Output) (x : DieId) (y : Nat) (s : State) : lockOf (emit o s) x y = lockOf s x y := rfl
@[simp] theorem lockOf_drawn (x : DieId) (y : Nat) (s : State) : lockOf (drawn s) x y = lockOf s x y := rfl
@[simp] theorem lockOf_modCh (c : Nat) (f : Channel → Channel) (x : DieId) (y : Nat) (s : State) : lockOf (modCh c f s) x y = lockOf s x y := rfl
@[simp] theorem lockOf_modTerm (n : Nat) (f : Terminal → Terminal) (x : DieId) (y : Nat) (s : State) : lockOf (modTerm n f s) x y = lockOf s x y := rfl
@[simp] theorem lockOf_modFit (n : Nat) (f : Fitting → Fitting) (x : DieId) (y : Nat) (s : State) : lockOf (modFit n f s) x y = lockOf s x y := rfl
@[simp] theorem lockOf_modAlloc (n : Nat) (f : Alloc → Alloc) (x : DieId) (y : Nat) (s : State) : lockOf (modAlloc n f s) x y = lockOf s x y := rfl
@[simp] theorem lockOf_modBob (n : Nat) (f : Bobbin → Bobbin) (x : DieId) (y : Nat) (s : State) : lockOf (modBob n f s) x y = lockOf s x y := rfl
@[simp] theorem lockOf_modQueue (n : Nat) (f : Queue → Queue) (x : DieId) (y : Nat) (s : State) : lockOf (modQueue n f s) x y = lockOf s x y := rfl
@[simp] theorem lockOf_modShaper (k n : Nat) (f : Shaper → Shaper) (x : DieId) (y : Nat) (s : State) : lockOf (modShaper k n f s) x y = lockOf s x y := rfl
@[simp] theorem lockOf_modPolicer (n : Nat) (f : PolicerSt → PolicerSt) (x : DieId) (y : Nat) (s : State) : lockOf (modPolicer n f s) x y = lockOf s x y := rfl
@[simp] theorem lockOf_modLane (n : Nat) (f : Lane → Lane) (x : DieId) (y : Nat) (s : State) : lockOf (modLane n f s) x y = lockOf s x y := rfl
@[simp] theorem lockOf_modSubport (n : Nat) (f : Subport → Subport) (x : DieId) (y : Nat) (s : State) : lockOf (modSubport n f s) x y = lockOf s x y := rfl
@[simp] theorem lockOf_modBase (n : Nat) (f : TimeBase → TimeBase) (x : DieId) (y : Nat) (s : State) : lockOf (modBase n f s) x y = lockOf s x y := rfl
@[simp] theorem lockOf_modSlots (f : Tab KeySlot → Tab KeySlot) (x : DieId) (y : Nat) (s : State) : lockOf (modSlots f s) x y = lockOf s x y := rfl
@[simp] theorem lockOf_modCpool (n : Nat) (f : CipherPool → CipherPool) (x : DieId) (y : Nat) (s : State) : lockOf (modCpool n f s) x y = lockOf s x y := rfl
@[simp] theorem lockOf_modRail (n : Nat) (f : Rail → Rail) (x : DieId) (y : Nat) (s : State) : lockOf (modRail n f s) x y = lockOf s x y := rfl
@[simp] theorem lockOf_modRing (p : PortId) (r : Nat) (f : Ring → Ring) (x : DieId) (y : Nat) (s : State) : lockOf (modRing p r f s) x y = lockOf s x y := rfl
@[simp] theorem lockOf_modThimble (n : Nat) (f : Thimble → Thimble) (x : DieId) (y : Nat) (s : State) : lockOf (modThimble n f s) x y = lockOf s x y := rfl
@[simp] theorem lockOf_modPunt (p : PortId) (f : PuntPort → PuntPort) (x : DieId) (y : Nat) (s : State) : lockOf (modPunt p f s) x y = lockOf s x y := by cases p <;> rfl
@[simp] theorem lockOf_modImages (d : DieId) (f : ImageStore → ImageStore) (x : DieId) (y : Nat) (s : State) : lockOf (modImages d f s) x y = lockOf s x y := by cases d <;> rfl
@[simp] theorem lockOf_setLink (p : PortId) (b : Bool) (x : DieId) (y : Nat) (s : State) : lockOf (setLink p b s) x y = lockOf s x y := by cases p <;> rfl
@[simp] theorem lockOf_modFmt (d : DieId) (f : List FmtEntry → List FmtEntry) (x : DieId) (y : Nat) (s : State) : lockOf (modFmt d f s) x y = lockOf s x y := by cases d <;> rfl
@[simp] theorem lockOf_pushEv (r : EvRec) (x : DieId) (y : Nat) (s : State) : lockOf (pushEv r s) x y = lockOf s x y := rfl
@[simp] theorem lockOf_raise (n : Nat) (d : DieId) (a : List Arg) (x : DieId) (y : Nat) (s : State) : lockOf (raise n d a s) x y = lockOf s x y := rfl
@[simp] theorem lockOf_raiseClear (n : Nat) (d : DieId) (a : List Arg) (x : DieId) (y : Nat) (s : State) : lockOf (raiseClear n d a s) x y = lockOf s x y := rfl
@[simp] theorem lockOf_putRate (e : RateEnt) (x : DieId) (y : Nat) (s : State) : lockOf (putRate e s) x y = lockOf s x y := rfl
@[simp] theorem lockOf_raiseLimited (n : Nat) (d : DieId) (j : Nat) (p : Time) (a : List Arg) (x : DieId) (y : Nat) (s : State) : lockOf (raiseLimited n d j p a s) x y = lockOf s x y := by simp [lockOf]
@[simp] theorem lockOf_bumpStat (k o j n : Nat) (x : DieId) (y : Nat) (s : State) : lockOf (bumpStat k o j n s) x y = lockOf s x y := rfl
@[simp] theorem lockOf_bump (g o j n : Nat) (x : DieId) (y : Nat) (s : State) : lockOf (bump g o j n s) x y = lockOf s x y := by simp [lockOf]
@[simp] theorem lockOf_putPlace (p : Place) (x : DieId) (y : Nat) (s : State) : lockOf (putPlace p s) x y = lockOf s x y := rfl
@[simp] theorem lockOf_dropPlace (k n : Nat) (x : DieId) (y : Nat) (s : State) : lockOf (dropPlace k n s) x y = lockOf s x y := rfl
@[simp] theorem lockOf_takeEntry (h : Hdr) (x : DieId) (y : Nat) (s : State) : lockOf (takeEntry h s) x y = lockOf s x y := rfl
@[simp] theorem lockOf_fireVector (p : PortId) (v : Nat) (x : DieId) (y : Nat) (s : State) : lockOf (fireVector p v s) x y = lockOf s x y := by simp [lockOf]
@[simp] theorem lockOf_postReply (p : PortId) (r o : Nat) (q z : Word) (g : Bool) (a : Answer) (x : DieId) (y : Nat) (s : State) : lockOf (postReply p r o q z g a s) x y = lockOf s x y := by
  unfold postReply; (repeat' split) <;> (try rfl); cases g <;> simp
@[simp] theorem lockOf_finishRunning (p : PortId) (r : Nat) (a : Answer) (x : DieId) (y : Nat) (s : State) : lockOf (finishRunning p r a s) x y = lockOf s x y := by
  unfold finishRunning; split; (try rfl); simp only [doIf]; split <;> simp

@[simp] theorem puntOf_tick (dt : Nat) (x : PortId) (s : State) : puntOf (tick dt s) x = puntOf s x := rfl
@[simp] theorem puntOf_emit (o : Output) (x : PortId) (s : State) : puntOf (emit o s) x = puntOf s x := rfl
@[simp] theorem puntOf_drawn (x : PortId) (s : State) : puntOf (drawn s) x = puntOf s x := rfl
@[simp] theorem puntOf_modCh (c : Nat) (f : Channel → Channel) (x : PortId) (s : State) : puntOf (modCh c f s) x = puntOf s x := rfl
@[simp] theorem puntOf_modTerm (n : Nat) (f : Terminal → Terminal) (x : PortId) (s : State) : puntOf (modTerm n f s) x = puntOf s x := rfl
@[simp] theorem puntOf_modFit (n : Nat) (f : Fitting → Fitting) (x : PortId) (s : State) : puntOf (modFit n f s) x = puntOf s x := rfl
@[simp] theorem puntOf_modAlloc (n : Nat) (f : Alloc → Alloc) (x : PortId) (s : State) : puntOf (modAlloc n f s) x = puntOf s x := rfl
@[simp] theorem puntOf_modBob (n : Nat) (f : Bobbin → Bobbin) (x : PortId) (s : State) : puntOf (modBob n f s) x = puntOf s x := rfl
@[simp] theorem puntOf_modQueue (n : Nat) (f : Queue → Queue) (x : PortId) (s : State) : puntOf (modQueue n f s) x = puntOf s x := rfl
@[simp] theorem puntOf_modShaper (k n : Nat) (f : Shaper → Shaper) (x : PortId) (s : State) : puntOf (modShaper k n f s) x = puntOf s x := rfl
@[simp] theorem puntOf_modPolicer (n : Nat) (f : PolicerSt → PolicerSt) (x : PortId) (s : State) : puntOf (modPolicer n f s) x = puntOf s x := rfl
@[simp] theorem puntOf_modLane (n : Nat) (f : Lane → Lane) (x : PortId) (s : State) : puntOf (modLane n f s) x = puntOf s x := rfl
@[simp] theorem puntOf_modSubport (n : Nat) (f : Subport → Subport) (x : PortId) (s : State) : puntOf (modSubport n f s) x = puntOf s x := rfl
@[simp] theorem puntOf_modBase (n : Nat) (f : TimeBase → TimeBase) (x : PortId) (s : State) : puntOf (modBase n f s) x = puntOf s x := rfl
@[simp] theorem puntOf_modSlots (f : Tab KeySlot → Tab KeySlot) (x : PortId) (s : State) : puntOf (modSlots f s) x = puntOf s x := rfl
@[simp] theorem puntOf_modCpool (n : Nat) (f : CipherPool → CipherPool) (x : PortId) (s : State) : puntOf (modCpool n f s) x = puntOf s x := rfl
@[simp] theorem puntOf_modRail (n : Nat) (f : Rail → Rail) (x : PortId) (s : State) : puntOf (modRail n f s) x = puntOf s x := rfl
@[simp] theorem puntOf_modRing (p : PortId) (r : Nat) (f : Ring → Ring) (x : PortId) (s : State) : puntOf (modRing p r f s) x = puntOf s x := by cases x <;> rfl
@[simp] theorem puntOf_modThimble (n : Nat) (f : Thimble → Thimble) (x : PortId) (s : State) : puntOf (modThimble n f s) x = puntOf s x := by cases x <;> rfl
@[simp] theorem puntOf_modLock (d : DieId) (b : Nat) (f : FmtLock → FmtLock) (x : PortId) (s : State) : puntOf (modLock d b f s) x = puntOf s x := by cases x <;> rfl
@[simp] theorem puntOf_modImages (d : DieId) (f : ImageStore → ImageStore) (x : PortId) (s : State) : puntOf (modImages d f s) x = puntOf s x := by cases x <;> cases d <;> rfl
@[simp] theorem puntOf_setLink (p : PortId) (b : Bool) (x : PortId) (s : State) : puntOf (setLink p b s) x = puntOf s x := by cases x <;> cases p <;> rfl
@[simp] theorem puntOf_modFmt (d : DieId) (f : List FmtEntry → List FmtEntry) (x : PortId) (s : State) : puntOf (modFmt d f s) x = puntOf s x := by cases x <;> cases d <;> rfl
@[simp] theorem puntOf_pushEv (r : EvRec) (x : PortId) (s : State) : puntOf (pushEv r s) x = puntOf s x := rfl
@[simp] theorem puntOf_raise (n : Nat) (d : DieId) (a : List Arg) (x : PortId) (s : State) : puntOf (raise n d a s) x = puntOf s x := rfl
@[simp] theorem puntOf_raiseClear (n : Nat) (d : DieId) (a : List Arg) (x : PortId) (s : State) : puntOf (raiseClear n d a s) x = puntOf s x := rfl
@[simp] theorem puntOf_putRate (e : RateEnt) (x : PortId) (s : State) : puntOf (putRate e s) x = puntOf s x := rfl
@[simp] theorem puntOf_raiseLimited (n : Nat) (d : DieId) (j : Nat) (p : Time) (a : List Arg) (x : PortId) (s : State) : puntOf (raiseLimited n d j p a s) x = puntOf s x := by cases x <;> simp [puntOf]
@[simp] theorem puntOf_bumpStat (k o j n : Nat) (x : PortId) (s : State) : puntOf (bumpStat k o j n s) x = puntOf s x := rfl
@[simp] theorem puntOf_bump (g o j n : Nat) (x : PortId) (s : State) : puntOf (bump g o j n s) x = puntOf s x := by cases x <;> simp [puntOf]
@[simp] theorem puntOf_putPlace (p : Place) (x : PortId) (s : State) : puntOf (putPlace p s) x = puntOf s x := rfl
@[simp] theorem puntOf_dropPlace (k n : Nat) (x : PortId) (s : State) : puntOf (dropPlace k n s) x = puntOf s x := rfl
@[simp] theorem puntOf_takeEntry (h : Hdr) (x : PortId) (s : State) : puntOf (takeEntry h s) x = puntOf s x := by cases x <;> rfl
@[simp] theorem puntOf_fireVector (p : PortId) (v : Nat) (x : PortId) (s : State) : puntOf (fireVector p v s) x = puntOf s x := by cases x <;> simp [puntOf]
@[simp] theorem puntOf_postReply (p : PortId) (r o : Nat) (q z : Word) (g : Bool) (a : Answer) (x : PortId) (s : State) : puntOf (postReply p r o q z g a s) x = puntOf s x := by
  unfold postReply; (repeat' split) <;> (try rfl); cases g <;> simp
@[simp] theorem puntOf_finishRunning (p : PortId) (r : Nat) (a : Answer) (x : PortId) (s : State) : puntOf (finishRunning p r a s) x = puntOf s x := by
  unfold finishRunning; split; (try rfl); simp only [doIf]; split <;> simp

@[simp] theorem imagesOf_tick (dt : Nat) (x : DieId) (s : State) : imagesOf (tick dt s) x = imagesOf s x := rfl
@[simp] theorem imagesOf_emit (o : Output) (x : DieId) (s : State) : imagesOf (emit o s) x = imagesOf s x := rfl
@[simp] theorem imagesOf_drawn (x : DieId) (s : State) : imagesOf (drawn s) x = imagesOf s x := rfl
@[simp] theorem imagesOf_modCh (c : Nat) (f : Channel → Channel) (x : DieId) (s : State) : imagesOf (modCh c f s) x = imagesOf s x := rfl
@[simp] theorem imagesOf_modTerm (n : Nat) (f : Terminal → Terminal) (x : DieId) (s : State) : imagesOf (modTerm n f s) x = imagesOf s x := rfl
@[simp] theorem imagesOf_modFit (n : Nat) (f : Fitting → Fitting) (x : DieId) (s : State) : imagesOf (modFit n f s) x = imagesOf s x := rfl
@[simp] theorem imagesOf_modAlloc (n : Nat) (f : Alloc → Alloc) (x : DieId) (s : State) : imagesOf (modAlloc n f s) x = imagesOf s x := rfl
@[simp] theorem imagesOf_modBob (n : Nat) (f : Bobbin → Bobbin) (x : DieId) (s : State) : imagesOf (modBob n f s) x = imagesOf s x := rfl
@[simp] theorem imagesOf_modQueue (n : Nat) (f : Queue → Queue) (x : DieId) (s : State) : imagesOf (modQueue n f s) x = imagesOf s x := rfl
@[simp] theorem imagesOf_modShaper (k n : Nat) (f : Shaper → Shaper) (x : DieId) (s : State) : imagesOf (modShaper k n f s) x = imagesOf s x := rfl
@[simp] theorem imagesOf_modPolicer (n : Nat) (f : PolicerSt → PolicerSt) (x : DieId) (s : State) : imagesOf (modPolicer n f s) x = imagesOf s x := rfl
@[simp] theorem imagesOf_modLane (n : Nat) (f : Lane → Lane) (x : DieId) (s : State) : imagesOf (modLane n f s) x = imagesOf s x := rfl
@[simp] theorem imagesOf_modSubport (n : Nat) (f : Subport → Subport) (x : DieId) (s : State) : imagesOf (modSubport n f s) x = imagesOf s x := rfl
@[simp] theorem imagesOf_modBase (n : Nat) (f : TimeBase → TimeBase) (x : DieId) (s : State) : imagesOf (modBase n f s) x = imagesOf s x := rfl
@[simp] theorem imagesOf_modSlots (f : Tab KeySlot → Tab KeySlot) (x : DieId) (s : State) : imagesOf (modSlots f s) x = imagesOf s x := rfl
@[simp] theorem imagesOf_modCpool (n : Nat) (f : CipherPool → CipherPool) (x : DieId) (s : State) : imagesOf (modCpool n f s) x = imagesOf s x := rfl
@[simp] theorem imagesOf_modRail (n : Nat) (f : Rail → Rail) (x : DieId) (s : State) : imagesOf (modRail n f s) x = imagesOf s x := rfl
@[simp] theorem imagesOf_modRing (p : PortId) (r : Nat) (f : Ring → Ring) (x : DieId) (s : State) : imagesOf (modRing p r f s) x = imagesOf s x := by cases x <;> rfl
@[simp] theorem imagesOf_modThimble (n : Nat) (f : Thimble → Thimble) (x : DieId) (s : State) : imagesOf (modThimble n f s) x = imagesOf s x := by cases x <;> rfl
@[simp] theorem imagesOf_modLock (d : DieId) (b : Nat) (f : FmtLock → FmtLock) (x : DieId) (s : State) : imagesOf (modLock d b f s) x = imagesOf s x := by cases x <;> rfl
@[simp] theorem imagesOf_modPunt (p : PortId) (f : PuntPort → PuntPort) (x : DieId) (s : State) : imagesOf (modPunt p f s) x = imagesOf s x := by cases x <;> cases p <;> rfl
@[simp] theorem imagesOf_setLink (p : PortId) (b : Bool) (x : DieId) (s : State) : imagesOf (setLink p b s) x = imagesOf s x := by cases x <;> cases p <;> rfl
@[simp] theorem imagesOf_modFmt (d : DieId) (f : List FmtEntry → List FmtEntry) (x : DieId) (s : State) : imagesOf (modFmt d f s) x = imagesOf s x := by cases x <;> cases d <;> rfl
@[simp] theorem imagesOf_pushEv (r : EvRec) (x : DieId) (s : State) : imagesOf (pushEv r s) x = imagesOf s x := rfl
@[simp] theorem imagesOf_raise (n : Nat) (d : DieId) (a : List Arg) (x : DieId) (s : State) : imagesOf (raise n d a s) x = imagesOf s x := rfl
@[simp] theorem imagesOf_raiseClear (n : Nat) (d : DieId) (a : List Arg) (x : DieId) (s : State) : imagesOf (raiseClear n d a s) x = imagesOf s x := rfl
@[simp] theorem imagesOf_putRate (e : RateEnt) (x : DieId) (s : State) : imagesOf (putRate e s) x = imagesOf s x := rfl
@[simp] theorem imagesOf_raiseLimited (n : Nat) (d : DieId) (j : Nat) (p : Time) (a : List Arg) (x : DieId) (s : State) : imagesOf (raiseLimited n d j p a s) x = imagesOf s x := by cases x <;> simp [imagesOf]
@[simp] theorem imagesOf_bumpStat (k o j n : Nat) (x : DieId) (s : State) : imagesOf (bumpStat k o j n s) x = imagesOf s x := rfl
@[simp] theorem imagesOf_bump (g o j n : Nat) (x : DieId) (s : State) : imagesOf (bump g o j n s) x = imagesOf s x := by cases x <;> simp [imagesOf]
@[simp] theorem imagesOf_putPlace (p : Place) (x : DieId) (s : State) : imagesOf (putPlace p s) x = imagesOf s x := rfl
@[simp] theorem imagesOf_dropPlace (k n : Nat) (x : DieId) (s : State) : imagesOf (dropPlace k n s) x = imagesOf s x := rfl
@[simp] theorem imagesOf_takeEntry (h : Hdr) (x : DieId) (s : State) : imagesOf (takeEntry h s) x = imagesOf s x := by cases x <;> rfl
@[simp] theorem imagesOf_fireVector (p : PortId) (v : Nat) (x : DieId) (s : State) : imagesOf (fireVector p v s) x = imagesOf s x := by cases x <;> simp [imagesOf]
@[simp] theorem imagesOf_postReply (p : PortId) (r o : Nat) (q z : Word) (g : Bool) (a : Answer) (x : DieId) (s : State) : imagesOf (postReply p r o q z g a s) x = imagesOf s x := by
  unfold postReply; (repeat' split) <;> (try rfl); cases g <;> simp
@[simp] theorem imagesOf_finishRunning (p : PortId) (r : Nat) (a : Answer) (x : DieId) (s : State) : imagesOf (finishRunning p r a s) x = imagesOf s x := by
  unfold finishRunning; split; (try rfl); simp only [doIf]; split <;> simp

@[simp] theorem linkOf_tick (dt : Nat) (x : PortId) (s : State) : linkOf (tick dt s) x = linkOf s x := rfl
@[simp] theorem linkOf_emit (o : Output) (x : PortId) (s : State) : linkOf (emit o s) x = linkOf s x := rfl
@[simp] theorem linkOf_drawn (x : PortId) (s : State) : linkOf (drawn s) x = linkOf s x := rfl
@[simp] theorem linkOf_modCh (c : Nat) (f : Channel → Channel) (x : PortId) (s : State) : linkOf (modCh c f s) x = linkOf s x := rfl
@[simp] theorem linkOf_modTerm (n : Nat) (f : Terminal → Terminal) (x : PortId) (s : State) : linkOf (modTerm n f s) x = linkOf s x := rfl
@[simp] theorem linkOf_modFit (n : Nat) (f : Fitting → Fitting) (x : PortId) (s : State) : linkOf (modFit n f s) x = linkOf s x := rfl
@[simp] theorem linkOf_modAlloc (n : Nat) (f : Alloc → Alloc) (x : PortId) (s : State) : linkOf (modAlloc n f s) x = linkOf s x := rfl
@[simp] theorem linkOf_modBob (n : Nat) (f : Bobbin → Bobbin) (x : PortId) (s : State) : linkOf (modBob n f s) x = linkOf s x := rfl
@[simp] theorem linkOf_modQueue (n : Nat) (f : Queue → Queue) (x : PortId) (s : State) : linkOf (modQueue n f s) x = linkOf s x := rfl
@[simp] theorem linkOf_modShaper (k n : Nat) (f : Shaper → Shaper) (x : PortId) (s : State) : linkOf (modShaper k n f s) x = linkOf s x := rfl
@[simp] theorem linkOf_modPolicer (n : Nat) (f : PolicerSt → PolicerSt) (x : PortId) (s : State) : linkOf (modPolicer n f s) x = linkOf s x := rfl
@[simp] theorem linkOf_modLane (n : Nat) (f : Lane → Lane) (x : PortId) (s : State) : linkOf (modLane n f s) x = linkOf s x := rfl
@[simp] theorem linkOf_modSubport (n : Nat) (f : Subport → Subport) (x : PortId) (s : State) : linkOf (modSubport n f s) x = linkOf s x := rfl
@[simp] theorem linkOf_modBase (n : Nat) (f : TimeBase → TimeBase) (x : PortId) (s : State) : linkOf (modBase n f s) x = linkOf s x := rfl
@[simp] theorem linkOf_modSlots (f : Tab KeySlot → Tab KeySlot) (x : PortId) (s : State) : linkOf (modSlots f s) x = linkOf s x := rfl
@[simp] theorem linkOf_modCpool (n : Nat) (f : CipherPool → CipherPool) (x : PortId) (s : State) : linkOf (modCpool n f s) x = linkOf s x := rfl
@[simp] theorem linkOf_modRail (n : Nat) (f : Rail → Rail) (x : PortId) (s : State) : linkOf (modRail n f s) x = linkOf s x := rfl
@[simp] theorem linkOf_modRing (p : PortId) (r : Nat) (f : Ring → Ring) (x : PortId) (s : State) : linkOf (modRing p r f s) x = linkOf s x := by cases x <;> rfl
@[simp] theorem linkOf_modThimble (n : Nat) (f : Thimble → Thimble) (x : PortId) (s : State) : linkOf (modThimble n f s) x = linkOf s x := by cases x <;> rfl
@[simp] theorem linkOf_modLock (d : DieId) (b : Nat) (f : FmtLock → FmtLock) (x : PortId) (s : State) : linkOf (modLock d b f s) x = linkOf s x := by cases x <;> rfl
@[simp] theorem linkOf_modPunt (p : PortId) (f : PuntPort → PuntPort) (x : PortId) (s : State) : linkOf (modPunt p f s) x = linkOf s x := by cases x <;> cases p <;> rfl
@[simp] theorem linkOf_modImages (d : DieId) (f : ImageStore → ImageStore) (x : PortId) (s : State) : linkOf (modImages d f s) x = linkOf s x := by cases x <;> cases d <;> rfl
@[simp] theorem linkOf_modFmt (d : DieId) (f : List FmtEntry → List FmtEntry) (x : PortId) (s : State) : linkOf (modFmt d f s) x = linkOf s x := by cases x <;> cases d <;> rfl
@[simp] theorem linkOf_pushEv (r : EvRec) (x : PortId) (s : State) : linkOf (pushEv r s) x = linkOf s x := rfl
@[simp] theorem linkOf_raise (n : Nat) (d : DieId) (a : List Arg) (x : PortId) (s : State) : linkOf (raise n d a s) x = linkOf s x := rfl
@[simp] theorem linkOf_raiseClear (n : Nat) (d : DieId) (a : List Arg) (x : PortId) (s : State) : linkOf (raiseClear n d a s) x = linkOf s x := rfl
@[simp] theorem linkOf_putRate (e : RateEnt) (x : PortId) (s : State) : linkOf (putRate e s) x = linkOf s x := rfl
@[simp] theorem linkOf_raiseLimited (n : Nat) (d : DieId) (j : Nat) (p : Time) (a : List Arg) (x : PortId) (s : State) : linkOf (raiseLimited n d j p a s) x = linkOf s x := by cases x <;> simp [linkOf]
@[simp] theorem linkOf_bumpStat (k o j n : Nat) (x : PortId) (s : State) : linkOf (bumpStat k o j n s) x = linkOf s x := rfl
@[simp] theorem linkOf_bump (g o j n : Nat) (x : PortId) (s : State) : linkOf (bump g o j n s) x = linkOf s x := by cases x <;> simp [linkOf]
@[simp] theorem linkOf_putPlace (p : Place) (x : PortId) (s : State) : linkOf (putPlace p s) x = linkOf s x := rfl
@[simp] theorem linkOf_dropPlace (k n : Nat) (x : PortId) (s : State) : linkOf (dropPlace k n s) x = linkOf s x := rfl
@[simp] theorem linkOf_takeEntry (h : Hdr) (x : PortId) (s : State) : linkOf (takeEntry h s) x = linkOf s x := by cases x <;> rfl
@[simp] theorem linkOf_fireVector (p : PortId) (v : Nat) (x : PortId) (s : State) : linkOf (fireVector p v s) x = linkOf s x := by cases x <;> simp [linkOf]
@[simp] theorem linkOf_postReply (p : PortId) (r o : Nat) (q z : Word) (g : Bool) (a : Answer) (x : PortId) (s : State) : linkOf (postReply p r o q z g a s) x = linkOf s x := by
  unfold postReply; (repeat' split) <;> (try rfl); cases g <;> simp
@[simp] theorem linkOf_finishRunning (p : PortId) (r : Nat) (a : Answer) (x : PortId) (s : State) : linkOf (finishRunning p r a s) x = linkOf s x := by
  unfold finishRunning; split; (try rfl); simp only [doIf]; split <;> simp

@[simp] theorem fmtOf_tick (dt : Nat) (x : DieId) (s : State) : fmtOf (tick dt s) x = fmtOf s x := rfl
@[simp] theorem fmtOf_emit (o : Output) (x : DieId) (s : State) : fmtOf (emit o s) x = fmtOf s x := rfl
@[simp] theorem fmtOf_drawn (x : DieId) (s : State) : fmtOf (drawn s) x = fmtOf s x := rfl
@[simp] theorem fmtOf_modCh (c : Nat) (f : Channel → Channel) (x : DieId) (s : State) : fmtOf (modCh c f s) x = fmtOf s x := rfl
@[simp] theorem fmtOf_modTerm (n : Nat) (f : Terminal → Terminal) (x : DieId) (s : State) : fmtOf (modTerm n f s) x = fmtOf s x := rfl
@[simp] theorem fmtOf_modFit (n : Nat) (f : Fitting → Fitting) (x : DieId) (s : State) : fmtOf (modFit n f s) x = fmtOf s x := rfl
@[simp] theorem fmtOf_modAlloc (n : Nat) (f : Alloc → Alloc) (x : DieId) (s : State) : fmtOf (modAlloc n f s) x = fmtOf s x := rfl
@[simp] theorem fmtOf_modBob (n : Nat) (f : Bobbin → Bobbin) (x : DieId) (s : State) : fmtOf (modBob n f s) x = fmtOf s x := rfl
@[simp] theorem fmtOf_modQueue (n : Nat) (f : Queue → Queue) (x : DieId) (s : State) : fmtOf (modQueue n f s) x = fmtOf s x := rfl
@[simp] theorem fmtOf_modShaper (k n : Nat) (f : Shaper → Shaper) (x : DieId) (s : State) : fmtOf (modShaper k n f s) x = fmtOf s x := rfl
@[simp] theorem fmtOf_modPolicer (n : Nat) (f : PolicerSt → PolicerSt) (x : DieId) (s : State) : fmtOf (modPolicer n f s) x = fmtOf s x := rfl
@[simp] theorem fmtOf_modLane (n : Nat) (f : Lane → Lane) (x : DieId) (s : State) : fmtOf (modLane n f s) x = fmtOf s x := rfl
@[simp] theorem fmtOf_modSubport (n : Nat) (f : Subport → Subport) (x : DieId) (s : State) : fmtOf (modSubport n f s) x = fmtOf s x := rfl
@[simp] theorem fmtOf_modBase (n : Nat) (f : TimeBase → TimeBase) (x : DieId) (s : State) : fmtOf (modBase n f s) x = fmtOf s x := rfl
@[simp] theorem fmtOf_modSlots (f : Tab KeySlot → Tab KeySlot) (x : DieId) (s : State) : fmtOf (modSlots f s) x = fmtOf s x := rfl
@[simp] theorem fmtOf_modCpool (n : Nat) (f : CipherPool → CipherPool) (x : DieId) (s : State) : fmtOf (modCpool n f s) x = fmtOf s x := rfl
@[simp] theorem fmtOf_modRail (n : Nat) (f : Rail → Rail) (x : DieId) (s : State) : fmtOf (modRail n f s) x = fmtOf s x := rfl
@[simp] theorem fmtOf_modRing (p : PortId) (r : Nat) (f : Ring → Ring) (x : DieId) (s : State) : fmtOf (modRing p r f s) x = fmtOf s x := rfl
@[simp] theorem fmtOf_modThimble (n : Nat) (f : Thimble → Thimble) (x : DieId) (s : State) : fmtOf (modThimble n f s) x = fmtOf s x := rfl
@[simp] theorem fmtOf_modLock (d : DieId) (b : Nat) (f : FmtLock → FmtLock) (x : DieId) (s : State) : fmtOf (modLock d b f s) x = fmtOf s x := rfl
@[simp] theorem fmtOf_modPunt (p : PortId) (f : PuntPort → PuntPort) (x : DieId) (s : State) : fmtOf (modPunt p f s) x = fmtOf s x := by cases x <;> cases p <;> rfl
@[simp] theorem fmtOf_modImages (d : DieId) (f : ImageStore → ImageStore) (x : DieId) (s : State) : fmtOf (modImages d f s) x = fmtOf s x := by cases x <;> cases d <;> rfl
@[simp] theorem fmtOf_setLink (p : PortId) (b : Bool) (x : DieId) (s : State) : fmtOf (setLink p b s) x = fmtOf s x := by cases x <;> cases p <;> rfl
@[simp] theorem fmtOf_pushEv (r : EvRec) (x : DieId) (s : State) : fmtOf (pushEv r s) x = fmtOf s x := rfl
@[simp] theorem fmtOf_raise (n : Nat) (d : DieId) (a : List Arg) (x : DieId) (s : State) : fmtOf (raise n d a s) x = fmtOf s x := rfl
@[simp] theorem fmtOf_raiseClear (n : Nat) (d : DieId) (a : List Arg) (x : DieId) (s : State) : fmtOf (raiseClear n d a s) x = fmtOf s x := rfl
@[simp] theorem fmtOf_putRate (e : RateEnt) (x : DieId) (s : State) : fmtOf (putRate e s) x = fmtOf s x := rfl
@[simp] theorem fmtOf_raiseLimited (n : Nat) (d : DieId) (j : Nat) (p : Time) (a : List Arg) (x : DieId) (s : State) : fmtOf (raiseLimited n d j p a s) x = fmtOf s x := by cases x <;> simp [fmtOf]
@[simp] theorem fmtOf_bumpStat (k o j n : Nat) (x : DieId) (s : State) : fmtOf (bumpStat k o j n s) x = fmtOf s x := rfl
@[simp] theorem fmtOf_bump (g o j n : Nat) (x : DieId) (s : State) : fmtOf (bump g o j n s) x = fmtOf s x := by cases x <;> simp [fmtOf]
@[simp] theorem fmtOf_putPlace (p : Place) (x : DieId) (s : State) : fmtOf (putPlace p s) x = fmtOf s x := rfl
@[simp] theorem fmtOf_dropPlace (k n : Nat) (x : DieId) (s : State) : fmtOf (dropPlace k n s) x = fmtOf s x := rfl
@[simp] theorem fmtOf_takeEntry (h : Hdr) (x : DieId) (s : State) : fmtOf (takeEntry h s) x = fmtOf s x := rfl
@[simp] theorem fmtOf_fireVector (p : PortId) (v : Nat) (x : DieId) (s : State) : fmtOf (fireVector p v s) x = fmtOf s x := by cases x <;> simp [fmtOf]
@[simp] theorem fmtOf_postReply (p : PortId) (r o : Nat) (q z : Word) (g : Bool) (a : Answer) (x : DieId) (s : State) : fmtOf (postReply p r o q z g a s) x = fmtOf s x := by cases x <;> simp [fmtOf]
@[simp] theorem fmtOf_finishRunning (p : PortId) (r : Nat) (a : Answer) (x : DieId) (s : State) : fmtOf (finishRunning p r a s) x = fmtOf s x := by cases x <;> simp [fmtOf]

@[simp] theorem cfgOf_tick (dt : Nat) (s : State) : cfgOf (tick dt s)  = cfgOf s  := rfl
@[simp] theorem cfgOf_emit (o : Output) (s : State) : cfgOf (emit o s)  = cfgOf s  := rfl
@[simp] theorem cfgOf_drawn (s : State) : cfgOf (drawn s)  = cfgOf s  := rfl
@[simp] theorem cfgOf_modCh (c : Nat) (f : Channel → Channel) (s : State) : cfgOf (modCh c f s)  = cfgOf s  := rfl
@[simp] theorem cfgOf_modTerm (n : Nat) (f : Terminal → Terminal) (s : State) : cfgOf (modTerm n f s)  = cfgOf s  := rfl
@[simp] theorem cfgOf_modFit (n : Nat) (f : Fitting → Fitting) (s : State) : cfgOf (modFit n f s)  = cfgOf s  := rfl
@[simp] theorem cfgOf_modAlloc (n : Nat) (f : Alloc → Alloc) (s : State) : cfgOf (modAlloc n f s)  = cfgOf s  := rfl
@[simp] theorem cfgOf_modBob (n : Nat) (f : Bobbin → Bobbin) (s : State) : cfgOf (modBob n f s)  = cfgOf s  := rfl
@[simp] theorem cfgOf_modQueue (n : Nat) (f : Queue → Queue) (s : State) : cfgOf (modQueue n f s)  = cfgOf s  := rfl
@[simp] theorem cfgOf_modShaper (k n : Nat) (f : Shaper → Shaper) (s : State) : cfgOf (modShaper k n f s)  = cfgOf s  := rfl
@[simp] theorem cfgOf_modPolicer (n : Nat) (f : PolicerSt → PolicerSt) (s : State) : cfgOf (modPolicer n f s)  = cfgOf s  := rfl
@[simp] theorem cfgOf_modLane (n : Nat) (f : Lane → Lane) (s : State) : cfgOf (modLane n f s)  = cfgOf s  := rfl
@[simp] theorem cfgOf_modSubport (n : Nat) (f : Subport → Subport) (s : State) : cfgOf (modSubport n f s)  = cfgOf s  := rfl
@[simp] theorem cfgOf_modBase (n : Nat) (f : TimeBase → TimeBase) (s : State) : cfgOf (modBase n f s)  = cfgOf s  := rfl
@[simp] theorem cfgOf_modSlots (f : Tab KeySlot → Tab KeySlot) (s : State) : cfgOf (modSlots f s)  = cfgOf s  := rfl
@[simp] theorem cfgOf_modCpool (n : Nat) (f : CipherPool → CipherPool) (s : State) : cfgOf (modCpool n f s)  = cfgOf s  := rfl
@[simp] theorem cfgOf_modRail (n : Nat) (f : Rail → Rail) (s : State) : cfgOf (modRail n f s)  = cfgOf s  := rfl
@[simp] theorem cfgOf_modRing (p : PortId) (r : Nat) (f : Ring → Ring) (s : State) : cfgOf (modRing p r f s)  = cfgOf s  := rfl
@[simp] theorem cfgOf_modThimble (n : Nat) (f : Thimble → Thimble) (s : State) : cfgOf (modThimble n f s)  = cfgOf s  := rfl
@[simp] theorem cfgOf_modLock (d : DieId) (b : Nat) (f : FmtLock → FmtLock) (s : State) : cfgOf (modLock d b f s)  = cfgOf s  := rfl
@[simp] theorem cfgOf_modPunt (p : PortId) (f : PuntPort → PuntPort) (s : State) : cfgOf (modPunt p f s)  = cfgOf s  := by cases p <;> rfl
@[simp] theorem cfgOf_modImages (d : DieId) (f : ImageStore → ImageStore) (s : State) : cfgOf (modImages d f s)  = cfgOf s  := by cases d <;> rfl
@[simp] theorem cfgOf_setLink (p : PortId) (b : Bool) (s : State) : cfgOf (setLink p b s)  = cfgOf s  := by cases p <;> rfl
@[simp] theorem cfgOf_modFmt (d : DieId) (f : List FmtEntry → List FmtEntry) (s : State) : cfgOf (modFmt d f s)  = cfgOf s  := by cases d <;> rfl
@[simp] theorem cfgOf_pushEv (r : EvRec) (s : State) : cfgOf (pushEv r s)  = cfgOf s  := rfl
@[simp] theorem cfgOf_raise (n : Nat) (d : DieId) (a : List Arg) (s : State) : cfgOf (raise n d a s)  = cfgOf s  := rfl
@[simp] theorem cfgOf_raiseClear (n : Nat) (d : DieId) (a : List Arg) (s : State) : cfgOf (raiseClear n d a s)  = cfgOf s  := rfl
@[simp] theorem cfgOf_putRate (e : RateEnt) (s : State) : cfgOf (putRate e s)  = cfgOf s  := rfl
@[simp] theorem cfgOf_raiseLimited (n : Nat) (d : DieId) (j : Nat) (p : Time) (a : List Arg) (s : State) : cfgOf (raiseLimited n d j p a s)  = cfgOf s  := by simp [cfgOf]
@[simp] theorem cfgOf_bumpStat (k o j n : Nat) (s : State) : cfgOf (bumpStat k o j n s)  = cfgOf s  := rfl
@[simp] theorem cfgOf_bump (g o j n : Nat) (s : State) : cfgOf (bump g o j n s)  = cfgOf s  := by simp [cfgOf]
@[simp] theorem cfgOf_putPlace (p : Place) (s : State) : cfgOf (putPlace p s)  = cfgOf s  := rfl
@[simp] theorem cfgOf_dropPlace (k n : Nat) (s : State) : cfgOf (dropPlace k n s)  = cfgOf s  := rfl
@[simp] theorem cfgOf_takeEntry (h : Hdr) (s : State) : cfgOf (takeEntry h s)  = cfgOf s  := rfl
@[simp] theorem cfgOf_fireVector (p : PortId) (v : Nat) (s : State) : cfgOf (fireVector p v s)  = cfgOf s  := by simp [cfgOf]
@[simp] theorem cfgOf_postReply (p : PortId) (r o : Nat) (q z : Word) (g : Bool) (a : Answer) (s : State) : cfgOf (postReply p r o q z g a s)  = cfgOf s  := by simp [cfgOf]
@[simp] theorem cfgOf_finishRunning (p : PortId) (r : Nat) (a : Answer) (s : State) : cfgOf (finishRunning p r a s)  = cfgOf s  := by simp [cfgOf]

@[simp] theorem sfNow_tick (dt : Nat) (s : State) : sfNow (tick dt s)  = sfNow s  := rfl
@[simp] theorem sfNow_emit (o : Output) (s : State) : sfNow (emit o s)  = sfNow s  := rfl
@[simp] theorem sfNow_drawn (s : State) : sfNow (drawn s)  = sfNow s  := rfl
@[simp] theorem sfNow_modCh (c : Nat) (f : Channel → Channel) (s : State) : sfNow (modCh c f s)  = sfNow s  := rfl
@[simp] theorem sfNow_modTerm (n : Nat) (f : Terminal → Terminal) (s : State) : sfNow (modTerm n f s)  = sfNow s  := rfl
@[simp] theorem sfNow_modFit (n : Nat) (f : Fitting → Fitting) (s : State) : sfNow (modFit n f s)  = sfNow s  := rfl
@[simp] theorem sfNow_modAlloc (n : Nat) (f : Alloc → Alloc) (s : State) : sfNow (modAlloc n f s)  = sfNow s  := rfl
@[simp] theorem sfNow_modBob (n : Nat) (f : Bobbin → Bobbin) (s : State) : sfNow (modBob n f s)  = sfNow s  := rfl
@[simp] theorem sfNow_modQueue (n : Nat) (f : Queue → Queue) (s : State) : sfNow (modQueue n f s)  = sfNow s  := rfl
@[simp] theorem sfNow_modShaper (k n : Nat) (f : Shaper → Shaper) (s : State) : sfNow (modShaper k n f s)  = sfNow s  := rfl
@[simp] theorem sfNow_modPolicer (n : Nat) (f : PolicerSt → PolicerSt) (s : State) : sfNow (modPolicer n f s)  = sfNow s  := rfl
@[simp] theorem sfNow_modLane (n : Nat) (f : Lane → Lane) (s : State) : sfNow (modLane n f s)  = sfNow s  := rfl
@[simp] theorem sfNow_modSubport (n : Nat) (f : Subport → Subport) (s : State) : sfNow (modSubport n f s)  = sfNow s  := rfl
@[simp] theorem sfNow_modBase (n : Nat) (f : TimeBase → TimeBase) (s : State) : sfNow (modBase n f s)  = sfNow s  := rfl
@[simp] theorem sfNow_modSlots (f : Tab KeySlot → Tab KeySlot) (s : State) : sfNow (modSlots f s)  = sfNow s  := rfl
@[simp] theorem sfNow_modCpool (n : Nat) (f : CipherPool → CipherPool) (s : State) : sfNow (modCpool n f s)  = sfNow s  := rfl
@[simp] theorem sfNow_modRail (n : Nat) (f : Rail → Rail) (s : State) : sfNow (modRail n f s)  = sfNow s  := rfl
@[simp] theorem sfNow_modRing (p : PortId) (r : Nat) (f : Ring → Ring) (s : State) : sfNow (modRing p r f s)  = sfNow s  := rfl
@[simp] theorem sfNow_modThimble (n : Nat) (f : Thimble → Thimble) (s : State) : sfNow (modThimble n f s)  = sfNow s  := rfl
@[simp] theorem sfNow_modLock (d : DieId) (b : Nat) (f : FmtLock → FmtLock) (s : State) : sfNow (modLock d b f s)  = sfNow s  := rfl
@[simp] theorem sfNow_modPunt (p : PortId) (f : PuntPort → PuntPort) (s : State) : sfNow (modPunt p f s)  = sfNow s  := by cases p <;> rfl
@[simp] theorem sfNow_modImages (d : DieId) (f : ImageStore → ImageStore) (s : State) : sfNow (modImages d f s)  = sfNow s  := by cases d <;> rfl
@[simp] theorem sfNow_setLink (p : PortId) (b : Bool) (s : State) : sfNow (setLink p b s)  = sfNow s  := by cases p <;> rfl
@[simp] theorem sfNow_modFmt (d : DieId) (f : List FmtEntry → List FmtEntry) (s : State) : sfNow (modFmt d f s)  = sfNow s  := by cases d <;> rfl
@[simp] theorem sfNow_pushEv (r : EvRec) (s : State) : sfNow (pushEv r s)  = sfNow s  := rfl
@[simp] theorem sfNow_raise (n : Nat) (d : DieId) (a : List Arg) (s : State) : sfNow (raise n d a s)  = sfNow s  := rfl
@[simp] theorem sfNow_raiseClear (n : Nat) (d : DieId) (a : List Arg) (s : State) : sfNow (raiseClear n d a s)  = sfNow s  := rfl
@[simp] theorem sfNow_putRate (e : RateEnt) (s : State) : sfNow (putRate e s)  = sfNow s  := rfl
@[simp] theorem sfNow_raiseLimited (n : Nat) (d : DieId) (j : Nat) (p : Time) (a : List Arg) (s : State) : sfNow (raiseLimited n d j p a s)  = sfNow s  := by simp [sfNow]
@[simp] theorem sfNow_bumpStat (k o j n : Nat) (s : State) : sfNow (bumpStat k o j n s)  = sfNow s  := rfl
@[simp] theorem sfNow_bump (g o j n : Nat) (s : State) : sfNow (bump g o j n s)  = sfNow s  := by simp [sfNow]
@[simp] theorem sfNow_putPlace (p : Place) (s : State) : sfNow (putPlace p s)  = sfNow s  := rfl
@[simp] theorem sfNow_dropPlace (k n : Nat) (s : State) : sfNow (dropPlace k n s)  = sfNow s  := rfl
@[simp] theorem sfNow_takeEntry (h : Hdr) (s : State) : sfNow (takeEntry h s)  = sfNow s  := rfl
@[simp] theorem sfNow_fireVector (p : PortId) (v : Nat) (s : State) : sfNow (fireVector p v s)  = sfNow s  := by simp [sfNow]
@[simp] theorem sfNow_postReply (p : PortId) (r o : Nat) (q z : Word) (g : Bool) (a : Answer) (s : State) : sfNow (postReply p r o q z g a s)  = sfNow s  := by simp [sfNow]
@[simp] theorem sfNow_finishRunning (p : PortId) (r : Nat) (a : Answer) (s : State) : sfNow (finishRunning p r a s)  = sfNow s  := by simp [sfNow]

@[simp] theorem stagingNumber_tick (dt : Nat) (s : State) : stagingNumber (tick dt s)  = stagingNumber s  := rfl
@[simp] theorem stagingNumber_emit (o : Output) (s : State) : stagingNumber (emit o s)  = stagingNumber s  := rfl
@[simp] theorem stagingNumber_drawn (s : State) : stagingNumber (drawn s)  = stagingNumber s  := rfl
@[simp] theorem stagingNumber_modCh (c : Nat) (f : Channel → Channel) (s : State) : stagingNumber (modCh c f s)  = stagingNumber s  := rfl
@[simp] theorem stagingNumber_modTerm (n : Nat) (f : Terminal → Terminal) (s : State) : stagingNumber (modTerm n f s)  = stagingNumber s  := rfl
@[simp] theorem stagingNumber_modFit (n : Nat) (f : Fitting → Fitting) (s : State) : stagingNumber (modFit n f s)  = stagingNumber s  := rfl
@[simp] theorem stagingNumber_modAlloc (n : Nat) (f : Alloc → Alloc) (s : State) : stagingNumber (modAlloc n f s)  = stagingNumber s  := rfl
@[simp] theorem stagingNumber_modBob (n : Nat) (f : Bobbin → Bobbin) (s : State) : stagingNumber (modBob n f s)  = stagingNumber s  := rfl
@[simp] theorem stagingNumber_modQueue (n : Nat) (f : Queue → Queue) (s : State) : stagingNumber (modQueue n f s)  = stagingNumber s  := rfl
@[simp] theorem stagingNumber_modShaper (k n : Nat) (f : Shaper → Shaper) (s : State) : stagingNumber (modShaper k n f s)  = stagingNumber s  := rfl
@[simp] theorem stagingNumber_modPolicer (n : Nat) (f : PolicerSt → PolicerSt) (s : State) : stagingNumber (modPolicer n f s)  = stagingNumber s  := rfl
@[simp] theorem stagingNumber_modLane (n : Nat) (f : Lane → Lane) (s : State) : stagingNumber (modLane n f s)  = stagingNumber s  := rfl
@[simp] theorem stagingNumber_modSubport (n : Nat) (f : Subport → Subport) (s : State) : stagingNumber (modSubport n f s)  = stagingNumber s  := rfl
@[simp] theorem stagingNumber_modBase (n : Nat) (f : TimeBase → TimeBase) (s : State) : stagingNumber (modBase n f s)  = stagingNumber s  := rfl
@[simp] theorem stagingNumber_modSlots (f : Tab KeySlot → Tab KeySlot) (s : State) : stagingNumber (modSlots f s)  = stagingNumber s  := rfl
@[simp] theorem stagingNumber_modCpool (n : Nat) (f : CipherPool → CipherPool) (s : State) : stagingNumber (modCpool n f s)  = stagingNumber s  := rfl
@[simp] theorem stagingNumber_modRail (n : Nat) (f : Rail → Rail) (s : State) : stagingNumber (modRail n f s)  = stagingNumber s  := rfl
@[simp] theorem stagingNumber_modRing (p : PortId) (r : Nat) (f : Ring → Ring) (s : State) : stagingNumber (modRing p r f s)  = stagingNumber s  := rfl
@[simp] theorem stagingNumber_modThimble (n : Nat) (f : Thimble → Thimble) (s : State) : stagingNumber (modThimble n f s)  = stagingNumber s  := rfl
@[simp] theorem stagingNumber_modLock (d : DieId) (b : Nat) (f : FmtLock → FmtLock) (s : State) : stagingNumber (modLock d b f s)  = stagingNumber s  := rfl
@[simp] theorem stagingNumber_modPunt (p : PortId) (f : PuntPort → PuntPort) (s : State) : stagingNumber (modPunt p f s)  = stagingNumber s  := by cases p <;> rfl
@[simp] theorem stagingNumber_modImages (d : DieId) (f : ImageStore → ImageStore) (s : State) : stagingNumber (modImages d f s)  = stagingNumber s  := by cases d <;> rfl
@[simp] theorem stagingNumber_setLink (p : PortId) (b : Bool) (s : State) : stagingNumber (setLink p b s)  = stagingNumber s  := by cases p <;> rfl
@[simp] theorem stagingNumber_modFmt (d : DieId) (f : List FmtEntry → List FmtEntry) (s : State) : stagingNumber (modFmt d f s)  = stagingNumber s  := by cases d <;> rfl
@[simp] theorem stagingNumber_pushEv (r : EvRec) (s : State) : stagingNumber (pushEv r s)  = stagingNumber s  := rfl
@[simp] theorem stagingNumber_raise (n : Nat) (d : DieId) (a : List Arg) (s : State) : stagingNumber (raise n d a s)  = stagingNumber s  := rfl
@[simp] theorem stagingNumber_raiseClear (n : Nat) (d : DieId) (a : List Arg) (s : State) : stagingNumber (raiseClear n d a s)  = stagingNumber s  := rfl
@[simp] theorem stagingNumber_putRate (e : RateEnt) (s : State) : stagingNumber (putRate e s)  = stagingNumber s  := rfl
@[simp] theorem stagingNumber_raiseLimited (n : Nat) (d : DieId) (j : Nat) (p : Time) (a : List Arg) (s : State) : stagingNumber (raiseLimited n d j p a s)  = stagingNumber s  := by simp [stagingNumber]
@[simp] theorem stagingNumber_bumpStat (k o j n : Nat) (s : State) : stagingNumber (bumpStat k o j n s)  = stagingNumber s  := rfl
@[simp] theorem stagingNumber_bump (g o j n : Nat) (s : State) : stagingNumber (bump g o j n s)  = stagingNumber s  := by simp [stagingNumber]
@[simp] theorem stagingNumber_putPlace (p : Place) (s : State) : stagingNumber (putPlace p s)  = stagingNumber s  := rfl
@[simp] theorem stagingNumber_dropPlace (k n : Nat) (s : State) : stagingNumber (dropPlace k n s)  = stagingNumber s  := rfl
@[simp] theorem stagingNumber_takeEntry (h : Hdr) (s : State) : stagingNumber (takeEntry h s)  = stagingNumber s  := rfl
@[simp] theorem stagingNumber_fireVector (p : PortId) (v : Nat) (s : State) : stagingNumber (fireVector p v s)  = stagingNumber s  := by simp [stagingNumber]
@[simp] theorem stagingNumber_postReply (p : PortId) (r o : Nat) (q z : Word) (g : Bool) (a : Answer) (s : State) : stagingNumber (postReply p r o q z g a s)  = stagingNumber s  := by simp [stagingNumber]
@[simp] theorem stagingNumber_finishRunning (p : PortId) (r : Nat) (a : Answer) (s : State) : stagingNumber (finishRunning p r a s)  = stagingNumber s  := by simp [stagingNumber]

/-! ### Own objects -/

@[simp] theorem chOf_modCh_same (n : Nat) (f : Channel → Channel) (s : State) : chOf (modCh n f s) n = f (chOf s n) := Tab.getD_upd_same ..
theorem chOf_modCh_ne (n m : Nat) (h : m ≠ n) (f : Channel → Channel) (s : State) : chOf (modCh n f s) m = chOf s m := Tab.getD_upd_ne _ _ _ _ _ h
@[simp] theorem termOf_modTerm_same (n : Nat) (f : Terminal → Terminal) (s : State) : termOf (modTerm n f s) n = f (termOf s n) := Tab.getD_upd_same ..
theorem termOf_modTerm_ne (n m : Nat) (h : m ≠ n) (f : Terminal → Terminal) (s : State) : termOf (modTerm n f s) m = termOf s m := Tab.getD_upd_ne _ _ _ _ _ h
@[simp] theorem fitOf_modFit_same (n : Nat) (f : Fitting → Fitting) (s : State) : fitOf (modFit n f s) n = f (fitOf s n) := Tab.getD_upd_same ..
theorem fitOf_modFit_ne (n m : Nat) (h : m ≠ n) (f : Fitting → Fitting) (s : State) : fitOf (modFit n f s) m = fitOf s m := Tab.getD_upd_ne _ _ _ _ _ h
@[simp] theorem allocOf_modAlloc_same (n : Nat) (f : Alloc → Alloc) (s : State) : allocOf (modAlloc n f s) n = f (allocOf s n) := Tab.getD_upd_same ..
theorem allocOf_modAlloc_ne (n m : Nat) (h : m ≠ n) (f : Alloc → Alloc) (s : State) : allocOf (modAlloc n f s) m = allocOf s m := Tab.getD_upd_ne _ _ _ _ _ h
@[simp] theorem bobOf_modBob_same (n : Nat) (f : Bobbin → Bobbin) (s : State) : bobOf (modBob n f s) n = f (bobOf s n) := Tab.getD_upd_same ..
theorem bobOf_modBob_ne (n m : Nat) (h : m ≠ n) (f : Bobbin → Bobbin) (s : State) : bobOf (modBob n f s) m = bobOf s m := Tab.getD_upd_ne _ _ _ _ _ h
@[simp] theorem queueOf_modQueue_same (n : Nat) (f : Queue → Queue) (s : State) : queueOf (modQueue n f s) n = f (queueOf s n) := Tab.getD_upd_same ..
theorem queueOf_modQueue_ne (n m : Nat) (h : m ≠ n) (f : Queue → Queue) (s : State) : queueOf (modQueue n f s) m = queueOf s m := Tab.getD_upd_ne _ _ _ _ _ h
@[simp] theorem policerOf_modPolicer_same (n : Nat) (f : PolicerSt → PolicerSt) (s : State) : policerOf (modPolicer n f s) n = f (policerOf s n) := Tab.getD_upd_same ..
theorem policerOf_modPolicer_ne (n m : Nat) (h : m ≠ n) (f : PolicerSt → PolicerSt) (s : State) : policerOf (modPolicer n f s) m = policerOf s m := Tab.getD_upd_ne _ _ _ _ _ h
@[simp] theorem laneOf_modLane_same (n : Nat) (f : Lane → Lane) (s : State) : laneOf (modLane n f s) n = f (laneOf s n) := Tab.getD_upd_same ..
theorem laneOf_modLane_ne (n m : Nat) (h : m ≠ n) (f : Lane → Lane) (s : State) : laneOf (modLane n f s) m = laneOf s m := Tab.getD_upd_ne _ _ _ _ _ h
@[simp] theorem subportOf_modSubport_same (n : Nat) (f : Subport → Subport) (s : State) : subportOf (modSubport n f s) n = f (subportOf s n) := Tab.getD_upd_same ..
theorem subportOf_modSubport_ne (n m : Nat) (h : m ≠ n) (f : Subport → Subport) (s : State) : subportOf (modSubport n f s) m = subportOf s m := Tab.getD_upd_ne _ _ _ _ _ h
@[simp] theorem baseOf_modBase_same (n : Nat) (f : TimeBase → TimeBase) (s : State) : baseOf (modBase n f s) n = f (baseOf s n) := Tab.getD_upd_same ..
theorem baseOf_modBase_ne (n m : Nat) (h : m ≠ n) (f : TimeBase → TimeBase) (s : State) : baseOf (modBase n f s) m = baseOf s m := Tab.getD_upd_ne _ _ _ _ _ h
@[simp] theorem cpoolOf_modCpool_same (n : Nat) (f : CipherPool → CipherPool) (s : State) : cpoolOf (modCpool n f s) n = f (cpoolOf s n) := Tab.getD_upd_same ..
theorem cpoolOf_modCpool_ne (n m : Nat) (h : m ≠ n) (f : CipherPool → CipherPool) (s : State) : cpoolOf (modCpool n f s) m = cpoolOf s m := Tab.getD_upd_ne _ _ _ _ _ h
@[simp] theorem railOf_modRail_same (n : Nat) (f : Rail → Rail) (s : State) : railOf (modRail n f s) n = f (railOf s n) := Tab.getD_upd_same ..
theorem railOf_modRail_ne (n m : Nat) (h : m ≠ n) (f : Rail → Rail) (s : State) : railOf (modRail n f s) m = railOf s m := Tab.getD_upd_ne _ _ _ _ _ h
@[simp] theorem thimbleOf_modThimble_same (n : Nat) (f : Thimble → Thimble) (s : State) : thimbleOf (modThimble n f s) n = f (thimbleOf s n) := Tab.getD_upd_same ..
theorem thimbleOf_modThimble_ne (n m : Nat) (h : m ≠ n) (f : Thimble → Thimble) (s : State) : thimbleOf (modThimble n f s) m = thimbleOf s m := Tab.getD_upd_ne _ _ _ _ _ h
@[simp] theorem ringOf_modRing_same (p : PortId) (r : Nat) (f : Ring → Ring) (s : State) :
    ringOf (modRing p r f s) p r = f (ringOf s p r) := Tab.getD_upd_same ..
@[simp] theorem lockOf_modLock_same (d : DieId) (b : Nat) (f : FmtLock → FmtLock) (s : State) :
    lockOf (modLock d b f s) d b = f (lockOf s d b) := Tab.getD_upd_same ..
@[simp] theorem shaperOf_modShaper_same (k n : Nat) (f : Shaper → Shaper) (s : State) :
    shaperOf (modShaper k n f s) k n = f (shaperOf s k n) := Tab.getD_upd_same ..
@[simp] theorem puntOf_modPunt_same (p : PortId) (f : PuntPort → PuntPort) (s : State) :
    puntOf (modPunt p f s) p = f (puntOf s p) := by cases p <;> rfl
@[simp] theorem imagesOf_modImages_same (d : DieId) (f : ImageStore → ImageStore) (s : State) :
    imagesOf (modImages d f s) d = f (imagesOf s d) := by cases d <;> rfl
@[simp] theorem linkOf_setLink_same (p : PortId) (b : Bool) (s : State) : linkOf (setLink p b s) p = b := by cases p <;> rfl
@[simp] theorem fmtOf_modFmt_same (d : DieId) (f : List FmtEntry → List FmtEntry) (s : State) :
    fmtOf (modFmt d f s) d = f (fmtOf s d) := by cases d <;> rfl

end Sys2Proof.Machine
end

