-- ==== Sys2Proof/Laws/Gate.lean ====
section
/-! SUPPORT. How a command ring serves a command: what taking the entry and writing the reply leave alone, and what a served command comes to. -/

namespace Sys2Proof.Machine
open Sys2Proof

/-! ### Taking the entry -/

theorem takeEntry_ring (h : Hdr) (s : State) :
    ringOf (takeEntry h s) h.port h.ring =
      { ringHead (ringOf s h.port h.ring) with cmdCons := (ringHead (ringOf s h.port h.ring)).cmdCons + 1 } :=
  ringOf_modRing_same ..

/-- Passing over carried-out ABORTs moves the consumer index and forgets their places, and does nothing else. -/
theorem skipAborts_eq : ∀ (n : Nat) (r : Ring),
    skipAborts n r = { r with cmdCons := (skipAborts n r).cmdCons, abortsDone := (skipAborts n r).abortsDone }
  | 0, _ => rfl
  | n + 1, r => by
    simp only [skipAborts]
    split
    · exact skipAborts_eq n _
    · rfl

@[simp] theorem ringHead_session (r : Ring) : (ringHead r).session = r.session := by rw [ringHead, skipAborts_eq]
@[simp] theorem ringHead_replies (r : Ring) : (ringHead r).replies = r.replies := by rw [ringHead, skipAborts_eq]
@[simp] theorem ringHead_rplProd (r : Ring) : (ringHead r).rplProd = r.rplProd := by rw [ringHead, skipAborts_eq]
@[simp] theorem ringHead_rplCons (r : Ring) : (ringHead r).rplCons = r.rplCons := by rw [ringHead, skipAborts_eq]
@[simp] theorem ringHead_running (r : Ring) : (ringHead r).running = r.running := by rw [ringHead, skipAborts_eq]
@[simp] theorem ringHead_enable (r : Ring) : (ringHead r).enable = r.enable := by rw [ringHead, skipAborts_eq]
@[simp] theorem ringHead_log2 (r : Ring) : (ringHead r).log2 = r.log2 := by rw [ringHead, skipAborts_eq]
@[simp] theorem ringHead_cmdProd (r : Ring) : (ringHead r).cmdProd = r.cmdProd := by rw [ringHead, skipAborts_eq]

/-- A ring that can start has its port's link up and runs nothing. -/
theorem canStart_facts {s : State} {p : PortId} {r : Nat} (h : canStart s p r = true) :
    s.pwr.ready = true ∧ linkOf s p = true ∧ (ringOf s p r).enable = true ∧ (ringOf s p r).running = none := by
  simp [canStart] at h
  exact ⟨h.1.1.1.1.1, h.1.1.1.1.2, h.1.1.1.2, h.1.1.2⟩

/-- Passing over time does not change whether a ring can start. -/
@[simp] theorem canStart_tick (dt : Nat) (s : State) (p : PortId) (r : Nat) : canStart (tick dt s) p r = canStart s p r := by
  simp [canStart]

@[simp] theorem canStart_drawn (s : State) (p : PortId) (r : Nat) : canStart (drawn s) p r = canStart s p r := by
  simp [canStart]

/-- What turns a command away does not depend on the time or on the entry taken. -/
@[simp] theorem gateStatus_takeEntry (opcode : Nat) (h : Hdr) (dt : Nat) (s : State) :
    gateStatus opcode h (takeEntry h (tick dt s)) = gateStatus opcode h s := by
  unfold gateStatus
  rw [takeEntry_ring]
  simp [isStandby]

/-! ### Parts that serving leaves alone -/

theorem postReply_same (p : PortId) (r opcode : Nat) (seq session : Word) (signal : Bool) (a : Answer) (s : State) :
    ∃ ev host out, postReply p r opcode seq session signal a s = { s with ev := ev, host := host, out := out } := by
  unfold postReply
  split
  · cases signal
    · exact ⟨_, _, _, rfl⟩
    · simp only [doIf_true]
      unfold fireVector
      simp only []
      split
      · exact ⟨_, _, _, rfl⟩
      · exact ⟨_, _, _, rfl⟩
  · exact ⟨s.ev, s.host, s.out, rfl⟩

/-- A served command answers what its rules gave, in the state they left. -/
theorem hostCmd_done {dt opcode : Nat} {h : Hdr} {body : State → Served} {s : State} {a : Answer} {u : State}
    (hs : serves opcode h s) (hb : body (takeEntry h (tick dt s)) = .done a u) :
    hostCmd dt opcode h body s = postReply h.port h.ring opcode h.seq h.session h.signal a u := by
  simp only [hostCmd, serve, canStart_tick, hs.1, if_true, gateStatus_takeEntry, hs.2, hb]

/-- A served command waits where its rules say so. -/
theorem hostCmd_wait {dt opcode : Nat} {h : Hdr} {body : State → Served} {s : State} {w : Wait} {max : Time} {u : State}
    (hs : serves opcode h s) (hb : body (takeEntry h (tick dt s)) = .wait w max u) :
    hostCmd dt opcode h body s = modRing h.port h.ring (fun r =>
      { r with running := some ⟨opcode, h.seq, h.session, h.signal, u.now, max, w, false⟩ }) u := by
  simp only [hostCmd, serve, canStart_tick, hs.1, if_true, gateStatus_takeEntry, hs.2, hb]

/-! ### Replies -/

theorem postReply_ring (p : PortId) (r o : Nat) (q z : Word) (g : Bool) (a : Answer) (u : State) (hl : linkOf u p = true) :
    ringOf (postReply p r o q z g a u) p r = { ringOf u p r with
      replies := (ringOf u p r).replies ++ [⟨o, a.status, q, z, stagingNumber u, a.detail, a.result⟩]
      rplProd := (ringOf u p r).rplProd + 1 } := by
  unfold postReply
  rw [if_pos hl]
  cases g <;> simp

theorem modRing_ringsOnly (h : Hdr) (f : Ring → Ring) (s : State) : ringsOnly h s (modRing h.port h.ring f s) :=
  ⟨rfl, fun j hj => Tab.find?_upd_ne ({} : Ring) (ringKey h.port h.ring) j f s.host.rings hj⟩

theorem ringsOnly_trans {h : Hdr} {s u t : State} (h1 : ringsOnly h s u) (h2 : ringsOnly h u t) : ringsOnly h s t :=
  ⟨by rw [h2.1, h1.1], fun j hj => (h2.2 j hj).trans (h1.2 j hj)⟩

theorem ringsOnly_of_host {h : Hdr} {s u t : State} (h1 : ringsOnly h s u) (e : t.host = u.host) : ringsOnly h s t := by
  unfold ringsOnly; rw [e]; exact h1

theorem postReply_ringsOnly (h : Hdr) (o : Nat) (q z : Word) (g : Bool) (a : Answer) (u : State) :
    ringsOnly h u (postReply h.port h.ring o q z g a u) := by
  unfold postReply
  split
  · cases g
    · exact modRing_ringsOnly h _ u
    · exact ringsOnly_of_host (modRing_ringsOnly h _ u) (fireVector_host ..)
  · exact ⟨rfl, fun j _ => rfl⟩

theorem takeEntry_ringsOnly (h : Hdr) (s : State) : ringsOnly h s (takeEntry h s) := modRing_ringsOnly h _ s

/-- A reply written after the entry was taken, in a state whose host part the rules of the command have left alone. -/
theorem answered_of {dt opcode : Nat} {h : Hdr} {a : Answer} {s u : State} (hs : serves opcode h s)
    (hu : u.host = (takeEntry h (tick dt s)).host) :
    answered opcode h a s (postReply h.port h.ring opcode h.seq h.session h.signal a u) := by
  have hr : ringOf u h.port h.ring = ringOf (takeEntry h (tick dt s)) h.port h.ring := by simp only [ringOf, hu]
  have hl : linkOf u h.port = true := by
    have : linkOf u h.port = linkOf (takeEntry h (tick dt s)) h.port := by cases h.port <;> simp only [linkOf, hu]
    rw [this]
    have := (canStart_facts hs.1).2.1
    simpa using this
  have hro : ringsOnly h s u := by
    have := takeEntry_ringsOnly h (tick dt s)
    exact ⟨by rw [hu]; exact this.1, by rw [hu]; exact this.2⟩
  have hp := postReply_ring h.port h.ring opcode h.seq h.session h.signal a u hl
  refine ⟨⟨?_, ?_, ?_⟩, ringsOnly_trans hro (postReply_ringsOnly ..), ?_⟩
  · rw [hp, hr, takeEntry_ring]; simp
  · rw [hp, hr, takeEntry_ring]; simp
  · rw [hp, hr, takeEntry_ring]; simp
  · rw [hp, hr, takeEntry_ring]; simp

/-- What is left of the parts of the state by a served command: what its rules left of them. -/
theorem only_postReply {ps : List Part} {dt : Nat} {s u : State} (p : PortId) (r o : Nat) (q z : Word) (g : Bool) (a : Answer)
    (hu : only ps dt s u) (he : Part.ev ∈ ps) (hh : Part.host ∈ ps) : only ps dt s (postReply p r o q z g a u) := by
  refine ⟨by simpa using hu.1, by simpa using hu.2.1, fun x => ?_⟩
  have := hu.2.2 x
  cases x <;> simp_all [Part.same]

end Sys2Proof.Machine
end

