-- ==== Sys2Proof/Laws/Memory.lean ====
section
/-! SUPPORT. The image stores: every operation keeps their canonical form, a read after a write gives what was written, and a write leaves every other byte. -/

namespace Sys2Proof.Machine
open Sys2Proof

/-! ### Reading after writing -/

@[simp] theorem imageByte_writeByte_same (a : Nat) (b : Byte) (mem : List Host.Cell) : imageByte (writeByte a b mem) a = b :=
  Tab.getD_put_same 0 a b mem

theorem imageByte_writeByte_ne (a m : Nat) (h : m ≠ a) (b : Byte) (mem : List Host.Cell) :
    imageByte (writeByte a b mem) m = imageByte mem m := Tab.getD_put_ne 0 a m h b mem

/-- A byte outside the places written reads as before. -/
theorem imageByte_putBytes_ne (image length a : Nat) :
    ∀ (data : List Byte) (pos : Nat) (mem : List Host.Cell), (∀ i, i < data.length → a ≠ imageAddr image (pos + i)) →
      imageByte (putBytes image length pos data mem) a = imageByte mem a
  | [], _, _, _ => rfl
  | b :: t, pos, mem, h => by
    have h0 : a ≠ imageAddr image pos := h 0 (by simp)
    have ht : ∀ i, i < t.length → a ≠ imageAddr image (pos + 1 + i) := fun i hi => by
      have := h (i + 1) (by simpa using hi)
      rwa [show pos + (i + 1) = pos + 1 + i by omega] at this
    rw [putBytes, imageByte_putBytes_ne image length a t (pos + 1) _ ht]
    split
    · exact imageByte_writeByte_ne _ _ h0 _ _
    · rfl

/-- Each byte written within the image reads as it was written. -/
theorem imageByte_putBytes_same (image length : Nat) :
    ∀ (data : List Byte) (pos i : Nat) (mem : List Host.Cell), i < data.length → pos + i < length →
      imageByte (putBytes image length pos data mem) (imageAddr image (pos + i)) = data.getD i 0
  | [], _, _, _, h, _ => absurd h (by simp)
  | b :: t, pos, 0, mem, _, hl => by
    rw [putBytes, imageByte_putBytes_ne]
    · simp [show pos < length by omega]
    · intro i _; simp [imageAddr]; omega
  | b :: t, pos, i + 1, mem, h, hl => by
    rw [putBytes, show pos + (i + 1) = pos + 1 + i by omega]
    rw [imageByte_putBytes_same image length t (pos + 1) i _ (by simpa using h) (by omega)]
    simp

/-! ### The canonical form -/

theorem memWf_iff (mem : List Host.Cell) : memWf mem = true ↔ Tab.sorted mem = true ∧ ∀ c ∈ mem, c.2 ≠ 0 := by
  simp [memWf]

@[simp] theorem memWf_nil : memWf [] = true := rfl

theorem memWf_writeByte (a : Nat) (b : Byte) {mem : List Host.Cell} (h : memWf mem = true) : memWf (writeByte a b mem) = true := by
  rw [memWf_iff] at h ⊢
  unfold writeByte Tab.put
  split
  · exact ⟨Tab.sorted_del a mem h.1, fun c hc => h.2 c (Tab.mem_del hc)⟩
  · rename_i hb
    refine ⟨Tab.sorted_set a b mem h.1, fun c hc => ?_⟩
    rcases Tab.mem_set hc with rfl | hc
    · exact hb
    · exact h.2 c hc

theorem memWf_wipeImage (image : Nat) {mem : List Host.Cell} (h : memWf mem = true) : memWf (wipeImage image mem) = true := by
  rw [memWf_iff] at h ⊢
  exact ⟨Tab.sorted_filter _ mem h.1, fun c hc => h.2 c (List.mem_filter.1 hc).1⟩

theorem memWf_putBytes (image length : Nat) :
    ∀ (data : List Byte) (pos : Nat) {mem : List Host.Cell}, memWf mem = true → memWf (putBytes image length pos data mem) = true
  | [], _, _, h => h
  | b :: t, pos, mem, h => by
    rw [putBytes]
    apply memWf_putBytes image length t (pos + 1)
    split
    · exact memWf_writeByte _ _ h
    · exact h

/-- The stores of the reset state are in canonical form. -/
theorem reset_imagesWf : imagesWf State.reset := ⟨rfl, rfl⟩

end Sys2Proof.Machine
end

