-- ==== Sys2Proof/Laws/Watched.lean ====
section
/-! SUPPORT. Which operations leave alone everything the block's invariants speak of: the waiting commands, the two stored images,
the token, and the laser enables. One lemma per operation, so that no proof about an invariant unfolds it. -/

namespace Sys2Proof.Machine
open Sys2Proof

set_option linter.unusedSimpArgs false

/-- What the invariants speak of. -/
structure Watched where
  pending : List Instr
  imagesE : ImageStore
  imagesW : ImageStore
  held : Bool
  tokenIn : Bool
  lasers : List Nat

/-- The watched fields of a state. -/
def watched (s : State) : Watched := ⟨s.pending, s.host.imagesE, s.host.imagesW, s.twin.held, s.twin.tokenIn, s.twin.lasers⟩

@[simp] theorem watched_of (s : State) : Watched.mk s.pending s.host.imagesE s.host.imagesW s.twin.held s.twin.tokenIn s.twin.lasers = watched s := rfl

@[simp] theorem watched_mk (pending now draw out ev ctr host stitch pon q tab svc ciph time lane twin pwr) :
    watched (State.mk pending now draw out ev ctr host stitch pon q tab svc ciph time lane twin pwr)
      = ⟨pending, host.imagesE, host.imagesW, twin.held, twin.tokenIn, twin.lasers⟩ := rfl

@[simp] theorem watched_forAll {α : Type} (l : List α) (f : α → State → State) (h : ∀ x s, watched (f x s) = watched s) (s : State) :
    watched (forAll l f s) = watched s := by
  induction l generalizing s with
  | nil => rfl
  | cons x l ih => exact (ih (f x s)).trans (h x s)

@[simp] theorem watched_doIf (b : Bool) (f : State → State) (h : ∀ s,
    watched (f s) = watched s) (s : State) : watched (doIf b f s) = watched s := by
  cases b <;> simp [doIf, h]

@[simp] theorem watched_foldl {α : Type} (l : List α) (f : State → α → State) (h : ∀ s x, watched (f s x) = watched s) (s : State) :
    watched (l.foldl f s) = watched s := by
  induction l generalizing s with
  | nil => rfl
  | cons x l ih => exact (ih (f s x)).trans (h s x)

/-! ### One lemma per operation -/

@[simp] theorem pushEv_watched : ∀ a0 s, watched (pushEv a0 s) = watched s := by
  intros; unfold pushEv; simp

@[simp] theorem raise_watched : ∀ a0 a1 a2 s, watched (raise a0 a1 a2 s) = watched s := by
  intros; unfold raise; simp

@[simp] theorem raiseClear_watched : ∀ a0 a1 a2 s, watched (raiseClear a0 a1 a2 s) = watched s := by
  intros; unfold raiseClear; simp

@[simp] theorem putRate_watched : ∀ a0 s, watched (putRate a0 s) = watched s := by
  intros; unfold putRate; simp

@[simp] theorem raiseLimited_watched : ∀ a0 a1 a2 a3 a4 s, watched (raiseLimited a0 a1 a2 a3 a4 s) = watched s := by
  intros; unfold raiseLimited; (repeat' split) <;> simp

@[simp] theorem bump_watched : ∀ a0 a1 a2 a3 s, watched (bump a0 a1 a2 a3 s) = watched s := by
  intros; unfold bump; (try simp only []); (repeat' split) <;> simp

@[simp] theorem bumpStat_watched : ∀ a0 a1 a2 a3 s, watched (bumpStat a0 a1 a2 a3 s) = watched s := by
  intros; unfold bumpStat; simp

@[simp] theorem bumpPair_watched : ∀ a0 a1 a2 a3 s, watched (bumpPair a0 a1 a2 a3 s) = watched s := by
  intros; unfold bumpPair; simp

@[simp] theorem tick_watched : ∀ a0 s, watched (tick a0 s) = watched s := by
  intros; unfold tick; simp

@[simp] theorem emit_watched : ∀ a0 s, watched (emit a0 s) = watched s := by
  intros; unfold emit; simp

@[simp] theorem drawn_watched : ∀  s, watched (drawn  s) = watched s := by
  intros; unfold drawn; simp

@[simp] theorem modCh_watched : ∀ a0 a1 s, watched (modCh a0 a1 s) = watched s := by
  intros; unfold modCh; simp

@[simp] theorem modTerm_watched : ∀ a0 a1 s, watched (modTerm a0 a1 s) = watched s := by
  intros; unfold modTerm; simp

@[simp] theorem modFit_watched : ∀ a0 a1 s, watched (modFit a0 a1 s) = watched s := by
  intros; unfold modFit; simp

@[simp] theorem modAlloc_watched : ∀ a0 a1 s, watched (modAlloc a0 a1 s) = watched s := by
  intros; unfold modAlloc; simp

@[simp] theorem modBob_watched : ∀ a0 a1 s, watched (modBob a0 a1 s) = watched s := by
  intros; unfold modBob; simp

@[simp] theorem modQueue_watched : ∀ a0 a1 s, watched (modQueue a0 a1 s) = watched s := by
  intros; unfold modQueue; simp

@[simp] theorem modShaper_watched : ∀ a0 a1 a2 s, watched (modShaper a0 a1 a2 s) = watched s := by
  intros; unfold modShaper; simp

@[simp] theorem modPolicer_watched : ∀ a0 a1 s, watched (modPolicer a0 a1 s) = watched s := by
  intros; unfold modPolicer; simp

@[simp] theorem modLane_watched : ∀ a0 a1 s, watched (modLane a0 a1 s) = watched s := by
  intros; unfold modLane; simp

@[simp] theorem modSubport_watched : ∀ a0 a1 s, watched (modSubport a0 a1 s) = watched s := by
  intros; unfold modSubport; simp

@[simp] theorem modBase_watched : ∀ a0 a1 s, watched (modBase a0 a1 s) = watched s := by
  intros; unfold modBase; simp

@[simp] theorem modSlots_watched : ∀ a0 s, watched (modSlots a0 s) = watched s := by
  intros; unfold modSlots; simp

@[simp] theorem modCpool_watched : ∀ a0 a1 s, watched (modCpool a0 a1 s) = watched s := by
  intros; unfold modCpool; simp

@[simp] theorem modRail_watched : ∀ a0 a1 s, watched (modRail a0 a1 s) = watched s := by
  intros; unfold modRail; simp

@[simp] theorem modRing_watched : ∀ a0 a1 a2 s, watched (modRing a0 a1 a2 s) = watched s := by
  intros; unfold modRing; simp

@[simp] theorem modThimble_watched : ∀ a0 a1 s, watched (modThimble a0 a1 s) = watched s := by
  intros; unfold modThimble; simp

@[simp] theorem modLock_watched : ∀ a0 a1 a2 s, watched (modLock a0 a1 a2 s) = watched s := by
  intros; unfold modLock; simp

@[simp] theorem modPunt_watched : ∀ a0 a1 s, watched (modPunt a0 a1 s) = watched s := by
  intros; unfold modPunt; (repeat' split) <;> simp

@[simp] theorem setLink_watched : ∀ a0 a1 s, watched (setLink a0 a1 s) = watched s := by
  intros; unfold setLink; (repeat' split) <;> simp

@[simp] theorem modFmt_watched : ∀ a0 a1 s, watched (modFmt a0 a1 s) = watched s := by
  intros; unfold modFmt; (repeat' split) <;> simp

@[simp] theorem fireVector_watched : ∀ a0 a1 s, watched (fireVector a0 a1 s) = watched s := by
  intros; unfold fireVector; (try simp only []); (repeat' split) <;> simp

@[simp] theorem fireDelivery_watched : ∀ a0 a1 s, watched (fireDelivery a0 a1 s) = watched s := by
  intros; unfold fireDelivery; simp

@[simp] theorem postReply_watched : ∀ a0 a1 a2 a3 a4 a5 a6 s, watched (postReply a0 a1 a2 a3 a4 a5 a6 s) = watched s := by
  intros; unfold postReply; (repeat' split) <;> simp

@[simp] theorem finishRunning_watched : ∀ a0 a1 a2 s, watched (finishRunning a0 a1 a2 s) = watched s := by
  intros; unfold finishRunning; (repeat' split) <;> simp

@[simp] theorem finishWaiting_watched : ∀ a0 a1 s, watched (finishWaiting a0 a1 s) = watched s := by
  intros; unfold finishWaiting; simp

@[simp] theorem seamSend_watched : ∀ a0 a1 s, watched (seamSend a0 a1 s) = watched s := by
  intros; unfold seamSend; (repeat' split) <;> simp

@[simp] theorem sendHello_watched : ∀  s, watched (sendHello  s) = watched s := by
  intros; unfold sendHello; (repeat' split) <;> simp

@[simp] theorem toStandby_watched : ∀ a0 a1 s, watched (toStandby a0 a1 s) = watched s := by
  intros; unfold toStandby; simp

@[simp] theorem sendRanging_watched : ∀ a0 a1 s, watched (sendRanging a0 a1 s) = watched s := by
  intros; unfold sendRanging; simp

@[simp] theorem sendPloam_watched : ∀ a0 a1 s, watched (sendPloam a0 a1 s) = watched s := by
  intros; unfold sendPloam; (try simp only []); (repeat' split) <;> simp

@[simp] theorem enterCh_watched : ∀ a0 a1 s, watched (enterCh a0 a1 s) = watched s := by
  intros; unfold enterCh; simp

@[simp] theorem setRole_watched : ∀ a0 a1 s, watched (setRole a0 a1 s) = watched s := by
  intros; unfold setRole; (try simp only []); (repeat' split) <;> simp

@[simp] theorem chLosesToken_watched : ∀ a0 s, watched (chLosesToken a0 s) = watched s := by
  intros; unfold chLosesToken; (repeat' split) <;> simp

@[simp] theorem putPlace_watched : ∀ a0 s, watched (putPlace a0 s) = watched s := by
  intros; unfold putPlace; simp

@[simp] theorem dropPlace_watched : ∀ a0 a1 s, watched (dropPlace a0 a1 s) = watched s := by
  intros; unfold dropPlace; simp

@[simp] theorem countMove_watched : ∀ a0 a1 a2 s, watched (countMove a0 a1 a2 s) = watched s := by
  intros; unfold countMove; simp

@[simp] theorem startMove_watched : ∀ a0 a1 a2 s, watched (startMove a0 a1 a2 s) = watched s := by
  intros; unfold startMove; simp

@[simp] theorem breakPin_watched : ∀ a0 a1 a2 a3 s, watched (breakPin a0 a1 a2 a3 s) = watched s := by
  intros; unfold breakPin; (repeat' split) <;> simp

@[simp] theorem takeEntry_watched : ∀ a0 s, watched (takeEntry a0 s) = watched s := by
  intros; unfold takeEntry; simp

theorem serve_watched (opcode : Nat) (h : Hdr) (body : State → Served)
    (hb : ∀ s, (match body s with | .done _ t => watched t | .wait _ _ t => watched t) = watched s) (s : State) :
    watched (serve opcode h body s) = watched s := by
  unfold serve
  split
  · dsimp only
    split
    · simp
    · have := hb (takeEntry h s)
      split <;> rename_i e <;> rw [e] at this <;> simpa using this
  · rfl

theorem hostCmd_watched (dt opcode : Nat) (h : Hdr) (body : State → Served)
    (hb : ∀ s, (match body s with | .done _ t => watched t | .wait _ _ t => watched t) = watched s) (s : State) :
    watched (hostCmd dt opcode h body s) = watched s := by
  simp [hostCmd, serve_watched opcode h body hb]

theorem makeRoom_watched {s : State} {d : DieId} {tenant key : Nat} {r : State × Nat × Nat} (h : makeRoom s d tenant key = some r) :
    watched r.1 = watched s := by
  unfold makeRoom at h
  split at h
  · cases h
  · cases h; simp

theorem writeAt_watched {s : State} {d : DieId} {e : FmtEntry} {b i st b' i' : Nat} {t : State}
    (h : writeAt s d e b i = .status st b' i' t) : watched t = watched s := by
  unfold writeAt at h
  split at h
  · cases h
  · cases h; simp

theorem insertOn_watched {s : State} {d : DieId} {tenant vid mac dtype dvalue st b i : Nat} {t : State}
    (h : insertOn s d tenant vid mac dtype dvalue = .status st b i t) : watched t = watched s := by
  unfold insertOn at h
  dsimp only at h
  repeat' split at h
  all_goals first
    | (cases h; done)
    | (cases h; simp; done)
    | exact writeAt_watched h
    | (rename_i hm; exact (writeAt_watched h).trans (makeRoom_watched hm))

theorem insertAll_watched : ∀ (l : List DieId) (tenant vid mac dtype dvalue : Nat) (done : List Nat) (s : State),
    watched (insertAll l tenant vid mac dtype dvalue done s).2.2 = watched s
  | [], _, _, _, _, _, _, _ => rfl
  | d :: t, tenant, vid, mac, dtype, dvalue, done, s => by
    unfold insertAll
    split
    · exact insertAll_watched t tenant vid mac dtype dvalue done s
    · rename_i h
      exact (insertAll_watched t tenant vid mac dtype dvalue _ _).trans (insertOn_watched h)

theorem deleteOn_watched {s : State} {d : DieId} {tenant vid mac : Nat} {r : Nat × State} (h : deleteOn s d tenant vid mac = some r) :
    watched r.2 = watched s := by
  unfold deleteOn at h
  repeat' split at h
  all_goals first
    | (cases h; done)
    | (cases h; simp)

@[simp] theorem retryRing_watched (pr : PortId × Nat) (s : State) : watched (retryRing pr s) = watched s := by
  unfold retryRing
  split
  · dsimp only; split <;> simp [insertAll_watched]
  · split
    · rename_i h; simpa using deleteOn_watched h
    · rfl
  · rfl

@[simp] theorem retryDeferred_watched : ∀  s, watched (retryDeferred  s) = watched s := by
  intros; unfold retryDeferred; simp

@[simp] theorem releaseLock_watched : ∀ a0 a1 s, watched (releaseLock a0 a1 s) = watched s := by
  intros; unfold releaseLock; simp

@[simp] theorem writeFmtLock_watched : ∀ a0 a1 a2 a3 s, watched (writeFmtLock a0 a1 a2 a3 s) = watched s := by
  intros; unfold writeFmtLock; (try simp only []); (repeat' split) <;> simp

@[simp] theorem ignoreWrite_watched : ∀  s, watched (ignoreWrite  s) = watched s := by
  intros; unfold ignoreWrite; simp

@[simp] theorem lockWrite_watched : ∀ a0 a1 a2 a3 s, watched (lockWrite a0 a1 a2 a3 s) = watched s := by
  intros; unfold lockWrite; (repeat' split) <;> simp

theorem portWrite_watched (p : PortId) (f : State → State) (h : ∀ s,
    watched (f s) = watched s) (s : State) : watched (portWrite p f s) = watched s := by
  unfold portWrite; split
  · exact h s
  · rfl

@[simp] theorem dmaCommit_watched : ∀ a0 a1 s, watched (dmaCommit a0 a1 s) = watched s := by
  intros; unfold dmaCommit; (repeat' split) <;> simp

@[simp] theorem dmaReject_watched : ∀ a0 s, watched (dmaReject a0 s) = watched s := by
  intros; unfold dmaReject; simp

@[simp] theorem strayWrite_watched : ∀  s, watched (strayWrite  s) = watched s := by
  intros; unfold strayWrite; simp

@[simp] theorem dmaWrite_watched : ∀ a0 a1 a2 s, watched (dmaWrite a0 a1 a2 s) = watched s := by
  intros; unfold dmaWrite; (repeat' split) <;> simp

@[simp] theorem addNotice_watched : ∀ a0 a1 s, watched (addNotice a0 a1 s) = watched s := by
  intros; unfold addNotice; (repeat' split) <;> simp

@[simp] theorem issueNotice_watched : ∀ a0 a1 a2 a3 a4 a5 a6 a7 a8 s,
    watched (issueNotice a0 a1 a2 a3 a4 a5 a6 a7 a8 s) = watched s := by
  intros; unfold issueNotice; (try simp only []); (repeat' split) <;> simp

@[simp] theorem learnNotice_watched : ∀ a0 a1 a2 a3 a4 a5 a6 a7 a8 s,
    watched (learnNotice a0 a1 a2 a3 a4 a5 a6 a7 a8 s) = watched s := by
  intros; unfold learnNotice; (repeat' split) <;> simp

@[simp] theorem setHit_watched : ∀ a0 a1 s, watched (setHit a0 a1 s) = watched s := by
  intros; unfold setHit; simp

@[simp] theorem ageSweep_watched : ∀ a0 s, watched (ageSweep a0 s) = watched s := by
  intros; unfold ageSweep; simp

@[simp] theorem panDrop_watched : ∀ a0 a1 s, watched (panDrop a0 a1 s) = watched s := by
  intros; unfold panDrop; simp

@[simp] theorem fcPin_watched : ∀ a0 s, watched (fcPin a0 s) = watched s := by
  intros; unfold fcPin; (try simp only []); (repeat' split) <;> simp

@[simp] theorem fcUpdate_watched : ∀  s, watched (fcUpdate  s) = watched s := by
  intros; unfold fcUpdate; simp

@[simp] theorem moveQueue_watched : ∀ a0 a1 a2 a3 s, watched (moveQueue a0 a1 a2 a3 s) = watched s := by
  intros; unfold moveQueue; (try simp only []); (repeat' split) <;> simp

@[simp] theorem nearCheck_watched : ∀ a0 s, watched (nearCheck a0 s) = watched s := by
  intros; unfold nearCheck; (try simp only []); (repeat' split) <;> simp

@[simp] theorem settlePans_watched : ∀  s, watched (settlePans  s) = watched s := by
  intros; unfold settlePans; simp

@[simp] theorem queueDrop_watched : ∀ a0 a1 s, watched (queueDrop a0 a1 s) = watched s := by
  intros; unfold queueDrop; simp

@[simp] theorem admitQueue_watched : ∀ a0 a1 s, watched (admitQueue a0 a1 s) = watched s := by
  intros; unfold admitQueue; (try simp only []); (repeat' split) <;> simp

@[simp] theorem admitClass_watched : ∀ a0 a1 a2 s, watched (admitClass a0 a1 a2 s) = watched s := by
  intros; unfold admitClass; (repeat' split) <;> simp

@[simp] theorem putPool_watched : ∀ a0 a1 a2 s, watched (putPool a0 a1 a2 s) = watched s := by
  intros; unfold putPool; (repeat' split) <;> simp

@[simp] theorem freeNum_watched : ∀ a0 a1 s, watched (freeNum a0 a1 s) = watched s := by
  intros; unfold freeNum; (repeat' split) <;> simp

@[simp] theorem stitchPart_watched : ∀ a0 s, watched (stitchPart a0 s) = watched s := by
  intros; unfold stitchPart; (repeat' split) <;> simp

@[simp] theorem freeCreates_watched : ∀ a0 s, watched (freeCreates a0 s) = watched s := by
  intros; unfold freeCreates; simp

@[simp] theorem discardStaging_watched : ∀  s, watched (discardStaging  s) = watched s := by
  intros; unfold discardStaging; simp

@[simp] theorem acceptStitch_watched : ∀ a0 s, watched (acceptStitch a0 s) = watched s := by
  intros; unfold acceptStitch; simp

@[simp] theorem closeSet_watched : ∀ a0 s, watched (closeSet a0 s) = watched s := by
  intros; unfold closeSet; simp

@[simp] theorem toNetwork_watched : ∀ a0 a1 a2 a3 s, watched (toNetwork a0 a1 a2 a3 s) = watched s := by
  intros; unfold toNetwork; (repeat' split) <;> simp

@[simp] theorem toManagement_watched : ∀ a0 a1 s, watched (toManagement a0 a1 s) = watched s := by
  intros; unfold toManagement; (repeat' split) <;> simp

@[simp] theorem toTenantOn_watched : ∀ a0 a1 a2 s, watched (toTenantOn a0 a1 a2 s) = watched s := by
  intros; unfold toTenantOn; simp

@[simp] theorem unplaceGroup_watched : ∀ a0 a1 s, watched (unplaceGroup a0 a1 s) = watched s := by
  intros; unfold unplaceGroup; simp

@[simp] theorem giveGroupNum_watched : ∀ a0 s, watched (giveGroupNum a0 s) = watched s := by
  intros; unfold giveGroupNum; simp

@[simp] theorem stateChange_watched : ∀ a0 a1 a2 a3 a4 s, watched (stateChange a0 a1 a2 a3 a4 s) = watched s := by
  intros; unfold stateChange; simp

@[simp] theorem dropGroup_watched : ∀ a0 s, watched (dropGroup a0 s) = watched s := by
  intros; unfold dropGroup; simp

@[simp] theorem settleLeg_watched : ∀ a0 a1 a2 s, watched (settleLeg a0 a1 a2 s) = watched s := by
  intros; unfold settleLeg; (try simp only []); (repeat' split) <;> simp

@[simp] theorem endMember_watched : ∀ a0 a1 a2 s, watched (endMember a0 a1 a2 s) = watched s := by
  intros; unfold endMember; simp

@[simp] theorem endMemberships_watched : ∀ a0 s, watched (endMemberships a0 s) = watched s := by
  intros; unfold endMemberships; (repeat' split) <;> simp

@[simp] theorem recompute_watched : ∀ a0 s, watched (recompute a0 s) = watched s := by
  intros; unfold recompute; (repeat' split) <;> simp

@[simp] theorem modKey_watched : ∀ a0 a1 a2 a3 a4 s, watched (modKey a0 a1 a2 a3 a4 s) = watched s := by
  intros; unfold modKey; simp

@[simp] theorem clearKey_watched : ∀ a0 a1 a2 a3 s, watched (clearKey a0 a1 a2 a3 s) = watched s := by
  intros; unfold clearKey; (repeat' split) <;> simp

@[simp] theorem freeSlots_watched : ∀ a0 a1 a2 s, watched (freeSlots a0 a1 a2 s) = watched s := by
  intros; unfold freeSlots; (repeat' split) <;> simp

@[simp] theorem sendKey_watched : ∀ a0 a1 a2 a3 s, watched (sendKey a0 a1 a2 a3 s) = watched s := by
  intros; unfold sendKey; simp

@[simp] theorem awaitPloam_watched : ∀ a0 s, watched (awaitPloam a0 s) = watched s := by
  intros; unfold awaitPloam; simp

@[simp] theorem sendTo_watched : ∀ a0 a1 s, watched (sendTo a0 a1 s) = watched s := by
  intros; unfold sendTo; (repeat' split) <;> simp

@[simp] theorem startExchange_watched : ∀ a0 s, watched (startExchange a0 s) = watched s := by
  intros; unfold startExchange; (repeat' split) <;> simp

@[simp] theorem abandonExchange_watched : ∀ a0 s, watched (abandonExchange a0 s) = watched s := by
  intros; unfold abandonExchange; (repeat' split) <;> simp

@[simp] theorem spillCtx_watched : ∀ a0 s, watched (spillCtx a0 s) = watched s := by
  intros; unfold spillCtx; (repeat' split) <;> simp

@[simp] theorem contextLost_watched : ∀ a0 a1 s, watched (contextLost a0 a1 s) = watched s := by
  intros; unfold contextLost; (try simp only []); (repeat' split) <;> simp

@[simp] theorem deriveKeys_watched : ∀ a0 s, watched (deriveKeys a0 s) = watched s := by
  intros; unfold deriveKeys; simp

@[simp] theorem queueOmci_watched : ∀ a0 a1 a2 s, watched (queueOmci a0 a1 a2 s) = watched s := by
  intros; unfold queueOmci; (repeat' split) <;> simp

@[simp] theorem launchOmci_watched : ∀ a0 a1 s, watched (launchOmci a0 a1 s) = watched s := by
  intros; unfold launchOmci; simp

@[simp] theorem nextOmci_watched : ∀ a0 a1 s, watched (nextOmci a0 a1 s) = watched s := by
  intros; unfold nextOmci; (try simp only []); (repeat' split) <;> simp

@[simp] theorem todEnded_watched : ∀ a0 a1 s, watched (todEnded a0 a1 s) = watched s := by
  intros; unfold todEnded; (repeat' split) <;> simp

@[simp] theorem versionRead_watched : ∀ a0 a1 s, watched (versionRead a0 a1 s) = watched s := by
  intros; unfold versionRead; simp

theorem placeGroup_watched {d : DieId} {tenant vid mac num : Nat} {s t : State} (h : placeGroup d tenant vid mac num s = some t) :
    watched t = watched s := by
  unfold placeGroup at h
  repeat' split at h
  · cases h; rfl
  · cases h
  · cases h; simp
  · obtain ⟨r, hr, rfl⟩ := Option.map_eq_some_iff.1 h
    simpa using makeRoom_watched hr

theorem takeGroupNum_watched {s : State} {r : Nat × State} (h : takeGroupNum s = some r) : watched r.2 = watched s := by
  unfold takeGroupNum at h
  dsimp only at h
  repeat' split at h
  all_goals first
    | (cases h; done)
    | (cases h; rfl)

theorem newGroup_watched {ch tenant vid mac : Nat} {s t : State} (h : newGroup ch tenant vid mac s = some t) : watched t = watched s := by
  unfold newGroup at h
  split at h
  · cases h
  · obtain ⟨r, hr, h⟩ := Option.bind_eq_some_iff.1 h
    obtain ⟨s1, h1, h⟩ := Option.bind_eq_some_iff.1 h
    obtain ⟨s2, h2, h⟩ := Option.bind_eq_some_iff.1 h
    cases h
    exact (placeGroup_watched h2).trans ((placeGroup_watched h1).trans (takeGroupNum_watched hr))

theorem addLeg_watched {x : McastGroup} {ch : Nat} {s t : State} (h : addLeg x ch s = some t) : watched t = watched s := by
  unfold addLeg at h
  repeat' split at h
  all_goals first
    | (cases h; done)
    | (cases h; rfl)

@[simp] theorem join_watched (t ch tenant vid : Nat) (s : State) (g : Nat) : watched (join t ch tenant vid s g) = watched s := by
  unfold join
  dsimp only
  split
  · simp [watched_of]
  · split
    · simp
    · split
      · simp
      · rename_i h
        simp only [watched_doIf _ _ (stateChange_watched _ _ _ _ _), modTerm_watched]
        split at h
        · exact addLeg_watched h
        · exact newGroup_watched h

@[simp] theorem bcastAnswered_watched (t tenant index : Nat) (ok : Bool) (s : State) : watched (bcastAnswered t tenant index ok s) = watched s := by
  unfold bcastAnswered
  split
  · rfl
  · dsimp only
    split
    · simp
    · split
      · simp [watched_of]
      · rw [watched_forAll _ _ (fun _ _ => join_watched ..)]; simp [watched_of]

@[simp] theorem submitOmci_watched : ∀ a0 a1 s, watched (submitOmci a0 a1 s) = watched s := by
  intros; unfold submitOmci; (repeat' split) <;> simp

@[simp] theorem endOmci_watched : ∀ a0 a1 a2 s, watched (endOmci a0 a1 a2 s) = watched s := by
  intros; unfold endOmci; (repeat' split) <;> simp

@[simp] theorem failOmci_watched : ∀ a0 a1 s, watched (failOmci a0 a1 s) = watched s := by
  intros; unfold failOmci; simp

@[simp] theorem swdlSend_watched : ∀ a0 a1 a2 a3 s, watched (swdlSend a0 a1 a2 a3 s) = watched s := by
  intros; unfold swdlSend; simp

@[simp] theorem modDownload_watched : ∀ a0 a1 s, watched (modDownload a0 a1 s) = watched s := by
  intros; unfold modDownload; simp

@[simp] theorem startDownload_watched : ∀ a0 s, watched (startDownload a0 s) = watched s := by
  intros; unfold startDownload; (repeat' split) <;> simp

@[simp] theorem nextDownload_watched : ∀ a0 s, watched (nextDownload a0 s) = watched s := by
  intros; unfold nextDownload; (repeat' split) <;> simp

@[simp] theorem failDownload_watched : ∀ a0 a1 s, watched (failDownload a0 a1 s) = watched s := by
  intros; unfold failDownload; (repeat' split) <;> simp

@[simp] theorem modGen_watched : ∀ a0 a1 a2 s, watched (modGen a0 a1 a2 s) = watched s := by
  intros; unfold modGen; simp

@[simp] theorem sendIncoming_watched : ∀ a0 s, watched (sendIncoming a0 s) = watched s := by
  intros; unfold sendIncoming; (repeat' split) <;> simp

@[simp] theorem settleGen_watched : ∀ a0 a1 s, watched (settleGen a0 a1 s) = watched s := by
  intros; unfold settleGen; (try simp only []); (repeat' split) <;> simp

@[simp] theorem moveToIncoming_watched : ∀ a0 s, watched (moveToIncoming a0 s) = watched s := by
  intros; unfold moveToIncoming; (try simp only []); (repeat' split) <;> simp

@[simp] theorem leaveGen_watched : ∀ a0 a1 a2 s, watched (leaveGen a0 a1 a2 s) = watched s := by
  intros; unfold leaveGen; simp

@[simp] theorem leaveOperational_watched : ∀ a0 s, watched (leaveOperational a0 s) = watched s := by
  intros; unfold leaveOperational; (repeat' split) <;> simp

@[simp] theorem bindAlloc_watched : ∀ a0 a1 s, watched (bindAlloc a0 a1 s) = watched s := by
  intros; unfold bindAlloc; simp

@[simp] theorem sendHeldBinds_watched : ∀ a0 s, watched (sendHeldBinds a0 s) = watched s := by
  intros; unfold sendHeldBinds; simp

@[simp] theorem unbindAll_watched : ∀ a0 s, watched (unbindAll a0 s) = watched s := by
  intros; unfold unbindAll; simp

@[simp] theorem enterOperational_watched : ∀ a0 s, watched (enterOperational a0 s) = watched s := by
  intros; unfold enterOperational; simp

@[simp] theorem noteRegistered_watched : ∀ a0 s, watched (noteRegistered a0 s) = watched s := by
  intros; unfold noteRegistered; simp

@[simp] theorem dropTerm_watched : ∀ a0 a1 s, watched (dropTerm a0 a1 s) = watched s := by
  intros; unfold dropTerm; (try simp only []); (repeat' split) <;> simp

@[simp] theorem deactivate_watched : ∀ a0 s, watched (deactivate a0 s) = watched s := by
  intros; unfold deactivate; simp

@[simp] theorem discoveryDue_watched : ∀ a0 s, watched (discoveryDue a0 s) = watched s := by
  intros; unfold discoveryDue; (try simp only []); (repeat' split) <;> simp

@[simp] theorem releaseDiscovery_watched : ∀ a0 s, watched (releaseDiscovery a0 s) = watched s := by
  intros; unfold releaseDiscovery; (try simp only []); (repeat' split) <;> simp

@[simp] theorem stopReception_watched : ∀ a0 s, watched (stopReception a0 s) = watched s := by
  intros; unfold stopReception; simp

@[simp] theorem releaseHeld_watched : ∀ a0 s, watched (releaseHeld a0 s) = watched s := by
  intros; unfold releaseHeld; simp

@[simp] theorem profileUnanswered_watched : ∀ a0 s, watched (profileUnanswered a0 s) = watched s := by
  intros; unfold profileUnanswered; (try simp only []); (repeat' split) <;> simp

@[simp] theorem countBroadcast_watched : ∀ a0 s, watched (countBroadcast a0 s) = watched s := by
  intros; unfold countBroadcast
  repeat' (first
    | rfl
    | (simp; done)
    | split
    | (refine (watched_forAll _ _ (fun _ _ => ?_) _).trans ?_)
    | (refine (watched_doIf _ _ (fun _ => ?_) _).trans ?_)
    | simp only [watched_of, watched_mk])

@[simp] theorem rangingDue_watched : ∀ a0 s, watched (rangingDue a0 s) = watched s := by
  intros; unfold rangingDue; (repeat' split) <;> simp

@[simp] theorem ploamSent_watched : ∀ a0 a1 s, watched (ploamSent a0 a1 s) = watched s := by
  intros; unfold ploamSent; (try simp only []); (repeat' split) <;> simp

@[simp] theorem windowSent_watched : ∀ a0 a1 s, watched (windowSent a0 a1 s) = watched s := by
  intros; unfold windowSent; (repeat' split) <;> simp

@[simp] theorem carryFrameMap_watched : ∀ a0 s, watched (carryFrameMap a0 s) = watched s := by
  intros; unfold carryFrameMap; simp

@[simp] theorem sendPloams_watched : ∀ a0 s, watched (sendPloams a0 s) = watched s := by
  intros; unfold sendPloams; simp

@[simp] theorem channelFrame_watched : ∀ a0 s, watched (channelFrame a0 s) = watched s := by
  intros; unfold channelFrame; (try simp only []); (repeat' split) <;> simp

@[simp] theorem gridStep_watched : ∀  s, watched (gridStep  s) = watched s := by
  intros; unfold gridStep; simp

@[simp] theorem ageFit_watched : ∀ a0 s, watched (ageFit a0 s) = watched s := by
  intros; unfold ageFit; (repeat' split) <;> simp

@[simp] theorem sweepFit_watched : ∀ a0 s, watched (sweepFit a0 s) = watched s := by
  intros; unfold sweepFit; simp

@[simp] theorem assignFit_watched : ∀ a0 a1 a2 a3 s, watched (assignFit a0 a1 a2 a3 s) = watched s := by
  intros; unfold assignFit; (repeat' split) <;> simp

@[simp] theorem storeError_watched : ∀ a0 s, watched (storeError a0 s) = watched s := by
  intros; unfold storeError; simp

@[simp] theorem resetFit_watched : ∀ a0 a1 s, watched (resetFit a0 a1 s) = watched s := by
  intros; unfold resetFit; simp

@[simp] theorem askFitReset_watched : ∀ a0 a1 s, watched (askFitReset a0 a1 s) = watched s := by
  intros; unfold askFitReset; (repeat' split) <;> simp

@[simp] theorem assign_watched : ∀ a0 a1 a2 a3 a4 s, watched (assign a0 a1 a2 a3 a4 s) = watched s := by
  intros; unfold assign; (repeat' split) <;> simp

@[simp] theorem answer_watched : ∀ a0 a1 a2 a3 s, watched (answer a0 a1 a2 a3 s) = watched s := by
  intros; unfold answer; (try simp only []); (repeat' split) <;> simp

@[simp] theorem dropWindowsOf_watched : ∀ a0 a1 s, watched (dropWindowsOf a0 a1 s) = watched s := by
  intros; unfold dropWindowsOf; simp

@[simp] theorem sendCorrection_watched : ∀ a0 a1 s, watched (sendCorrection a0 a1 s) = watched s := by
  intros; unfold sendCorrection; (repeat' split) <;> simp

@[simp] theorem markUnverified_watched : ∀ a0 s, watched (markUnverified a0 s) = watched s := by
  intros; unfold markUnverified; (repeat' split) <;> simp

@[simp] theorem applyCorrection_watched : ∀ a0 s, watched (applyCorrection a0 s) = watched s := by
  intros; unfold applyCorrection; (repeat' split) <;> simp

@[simp] theorem trackDrift_watched : ∀ a0 a1 s, watched (trackDrift a0 a1 s) = watched s := by
  intros; unfold trackDrift; (try simp only []); (repeat' split) <;> simp

@[simp] theorem useDrift_watched : ∀ a0 a1 s, watched (useDrift a0 a1 s) = watched s := by
  intros; unfold useDrift; (repeat' split) <;> simp

@[simp] theorem judgeCorrection_watched : ∀ a0 a1 s, watched (judgeCorrection a0 a1 s) = watched s := by
  intros; unfold judgeCorrection; (repeat' split) <;> simp

@[simp] theorem foundAgain_watched : ∀ a0 s, watched (foundAgain a0 s) = watched s := by
  intros; unfold foundAgain; simp

@[simp] theorem rangingAcked_watched : ∀ a0 s, watched (rangingAcked a0 s) = watched s := by
  intros; unfold rangingAcked; (repeat' split) <;> simp

@[simp] theorem searchingDue_watched : ∀ a0 s, watched (searchingDue a0 s) = watched s := by
  intros; unfold searchingDue; (repeat' split) <;> simp

@[simp] theorem compareIndices_watched : ∀ a0 s, watched (compareIndices a0 s) = watched s := by
  intros; unfold compareIndices; (try simp only []); (repeat' split) <;> simp

@[simp] theorem adjustChannel_watched : ∀ a0 a1 s, watched (adjustChannel a0 a1 s) = watched s := by
  intros; unfold adjustChannel
  repeat' (first
    | rfl
    | (simp; done)
    | split
    | (refine (watched_forAll _ _ (fun _ _ => ?_) _).trans ?_)
    | (refine (watched_doIf _ _ (fun _ => ?_) _).trans ?_)
    | simp only [watched_of, watched_mk])

@[simp] theorem feederChange_watched : ∀ a0 a1 s, watched (feederChange a0 a1 s) = watched s := by
  intros; unfold feederChange; simp

@[simp] theorem correctExcess_watched : ∀ a0 a1 s, watched (correctExcess a0 a1 s) = watched s := by
  intros; unfold correctExcess; (repeat' split) <;> simp

@[simp] theorem correctStep_watched : ∀ a0 s, watched (correctStep a0 s) = watched s := by
  intros; unfold correctStep; (repeat' split) <;> simp

@[simp] theorem askSearch_watched : ∀ a0 a1 s, watched (askSearch a0 a1 s) = watched s := by
  intros; unfold askSearch; simp

@[simp] theorem noteWideMissed_watched : ∀ a0 s, watched (noteWideMissed a0 s) = watched s := by
  intros; unfold noteWideMissed; (repeat' split) <;> simp

@[simp] theorem frameEnd_watched : ∀ a0 a1 s, watched (frameEnd a0 a1 s) = watched s := by
  intros; unfold frameEnd; (try simp only []); (repeat' split) <;> simp

@[simp] theorem searchResult_watched : ∀ a0 a1 a2 s, watched (searchResult a0 a1 a2 s) = watched s := by
  intros; unfold searchResult; (repeat' split) <;> simp

@[simp] theorem disableTerm_watched : ∀ a0 a1 s, watched (disableTerm a0 a1 s) = watched s := by
  intros; unfold disableTerm; simp

@[simp] theorem enableTerm_watched : ∀ a0 a1 s, watched (enableTerm a0 a1 s) = watched s := by
  intros; unfold enableTerm; simp

@[simp] theorem nextCandidate_watched : ∀ a0 s, watched (nextCandidate a0 s) = watched s := by
  intros; unfold nextCandidate; (repeat' split) <;> simp

@[simp] theorem suspect_watched : ∀ a0 a1 a2 s, watched (suspect a0 a1 a2 s) = watched s := by
  intros; unfold suspect; (try simp only []); (repeat' split) <;> simp

@[simp] theorem clearSuspicion_watched : ∀ a0 s, watched (clearSuspicion a0 s) = watched s := by
  intros; unfold clearSuspicion; simp

@[simp] theorem checkCandidate_watched : ∀ a0 a1 a2 s, watched (checkCandidate a0 a1 a2 s) = watched s := by
  intros; unfold checkCandidate; (repeat' split) <;> simp

@[simp] theorem untestedCheck_watched : ∀ a0 a1 a2 s, watched (untestedCheck a0 a1 a2 s) = watched s := by
  intros; unfold untestedCheck; (repeat' split) <;> simp

@[simp] theorem hostEnable_watched : ∀ a0 s, watched (hostEnable a0 s) = watched s := by
  intros; unfold hostEnable; simp

@[simp] theorem setAsymmetry_watched : ∀ a0 a1 a2 s, watched (setAsymmetry a0 a1 a2 s) = watched s := by
  intros; unfold setAsymmetry
  repeat' (first
    | rfl
    | (simp; done)
    | split
    | (refine (watched_forAll _ _ (fun _ _ => ?_) _).trans ?_)
    | (refine (watched_doIf _ _ (fun _ => ?_) _).trans ?_)
    | simp only [watched_of, watched_mk])

@[simp] theorem preload_watched : ∀ a0 a1 a2 s, watched (preload a0 a1 a2 s) = watched s := by
  intros; unfold preload; simp

@[simp] theorem swapIn_watched : ∀ a0 a1 s, watched (swapIn a0 a1 s) = watched s := by
  intros; unfold swapIn; simp

@[simp] theorem countLost_watched : ∀ a0 s, watched (countLost a0 s) = watched s := by
  intros; unfold countLost; simp

@[simp] theorem failPreload_watched : ∀ a0 a1 s, watched (failPreload a0 a1 s) = watched s := by
  intros; unfold failPreload; (repeat' split) <;> simp

@[simp] theorem windowMissed_watched : ∀ a0 s, watched (windowMissed a0 s) = watched s := by
  intros; unfold windowMissed; (repeat' split) <;> simp

@[simp] theorem logBurst_watched : ∀ a0 a1 a2 s, watched (logBurst a0 a1 a2 s) = watched s := by
  intros; unfold logBurst; simp

@[simp] theorem frameCount_watched : ∀ a0 a1 a2 s, watched (frameCount a0 a1 a2 s) = watched s := by
  intros; unfold frameCount; (repeat' split) <;> simp

@[simp] theorem burstMissed_watched : ∀ a0 a1 a2 a3 s, watched (burstMissed a0 a1 a2 a3 s) = watched s := by
  intros; unfold burstMissed; (repeat' split) <;> simp

@[simp] theorem clearLos_watched : ∀ a0 s, watched (clearLos a0 s) = watched s := by
  intros; unfold clearLos; (try simp only []); (repeat' split) <;> simp

@[simp] theorem countCodewords_watched : ∀ a0 a1 a2 s, watched (countCodewords a0 a1 a2 s) = watched s := by
  intros; unfold countCodewords; simp

@[simp] theorem writeBack_watched : ∀ a0 a1 a2 s, watched (writeBack a0 a1 a2 s) = watched s := by
  intros; unfold writeBack; (try simp only []); (repeat' split) <;> simp

@[simp] theorem takeReport_watched : ∀ a0 a1 a2 a3 s, watched (takeReport a0 a1 a2 a3 s) = watched s := by
  intros; unfold takeReport; (repeat' split) <;> simp

@[simp] theorem takeFrame_watched : ∀ a0 a1 a2 a3 s, watched (takeFrame a0 a1 a2 a3 s) = watched s := by
  intros; unfold takeFrame; (try simp only []); (repeat' split) <;> simp

@[simp] theorem takePloamUp_watched : ∀ a0 a1 a2 s, watched (takePloamUp a0 a1 a2 s) = watched s := by
  intros; unfold takePloamUp; (repeat' split) <;> simp

@[simp] theorem useOffset_watched : ∀ a0 a1 a2 s, watched (useOffset a0 a1 a2 s) = watched s := by
  intros; unfold useOffset; (try simp only []); (repeat' split) <;> simp

@[simp] theorem burstContext_watched : ∀ a0 a1 a2 s, watched (burstContext a0 a1 a2 s) = watched s := by
  intros; unfold burstContext; simp

@[simp] theorem burstAccepted_watched : ∀ a0 a1 a2 s, watched (burstAccepted a0 a1 a2 s) = watched s := by
  intros; unfold burstAccepted; simp

@[simp] theorem pendingReset_watched : ∀ a0 s, watched (pendingReset a0 s) = watched s := by
  intros; unfold pendingReset; (repeat' split) <;> simp

@[simp] theorem burst_watched : ∀ a0 a1 a2 s, watched (burst a0 a1 a2 s) = watched s := by
  intros; unfold burst; (try simp only []); (repeat' split) <;> simp

@[simp] theorem cueAgain_watched : ∀ a0 s, watched (cueAgain a0 s) = watched s := by
  intros; unfold cueAgain; simp

@[simp] theorem countGap_watched : ∀ a0 s, watched (countGap a0 s) = watched s := by
  intros; unfold countGap; (repeat' split) <;> simp

@[simp] theorem discoveryBurst_watched : ∀ a0 a1 s, watched (discoveryBurst a0 a1 s) = watched s := by
  intros; unfold discoveryBurst; simp

@[simp] theorem raiseChange_watched : ∀ a0 a1 a2 a3 a4 s, watched (raiseChange a0 a1 a2 a3 a4 s) = watched s := by
  intros; unfold raiseChange; (repeat' split) <;> simp

@[simp] theorem berInterval_watched : ∀ a0 a1 s, watched (berInterval a0 a1 s) = watched s := by
  intros; unfold berInterval; (try simp only []); (repeat' split) <;> simp

@[simp] theorem stitchDiscard_watched : ∀ a0 s, watched (stitchDiscard a0 s) = watched s := by
  intros; unfold stitchDiscard; simp

@[simp] theorem pushLaunch_watched : ∀ a0 a1 s, watched (pushLaunch a0 a1 s) = watched s := by
  intros; unfold pushLaunch; (repeat' split) <;> simp

@[simp] theorem launchRecord_watched : ∀ a0 a1 a2 a3 a4 s, watched (launchRecord a0 a1 a2 a3 a4 s) = watched s := by
  intros; unfold launchRecord; (try simp only []); (repeat' split) <;> simp

@[simp] theorem launchDrop_watched : ∀ a0 a1 a2 a3 s, watched (launchDrop a0 a1 a2 a3 s) = watched s := by
  intros; unfold launchDrop; (repeat' split) <;> simp

@[simp] theorem admitLaunch_watched : ∀ a0 a1 a2 a3 s, watched (admitLaunch a0 a1 a2 a3 s) = watched s := by
  intros; unfold admitLaunch; (try simp only []); (repeat' split) <;> simp

@[simp] theorem enqueueAt_watched : ∀ a0 a1 s, watched (enqueueAt a0 a1 s) = watched s := by
  intros; unfold enqueueAt; (repeat' split) <;> simp

@[simp] theorem enqueuePort_watched : ∀ a0 a1 a2 s, watched (enqueuePort a0 a1 a2 s) = watched s := by
  intros; unfold enqueuePort; (repeat' split) <;> simp

@[simp] theorem enqueueTransit_watched : ∀ a0 s, watched (enqueueTransit a0 s) = watched s := by
  intros; unfold enqueueTransit; (repeat' split) <;> simp

@[simp] theorem handOn_watched : ∀ a0 a1 a2 a3 a4 s, watched (handOn a0 a1 a2 a3 a4 s) = watched s := by
  intros; unfold handOn; (repeat' split) <;> simp

@[simp] theorem debit_watched : ∀ a0 a1 a2 a3 s, watched (debit a0 a1 a2 a3 s) = watched s := by
  intros; unfold debit; simp

@[simp] theorem resetDeficits_watched : ∀ a0 s, watched (resetDeficits a0 s) = watched s := by
  intros; unfold resetDeficits; simp

@[simp] theorem debitStage_watched : ∀ a0 a1 a2 s, watched (debitStage a0 a1 a2 s) = watched s := by
  intros; unfold debitStage; simp

theorem dequeue_watched (ch i q : Nat) (f : Nat → State → State) (h : ∀ n s, watched (f n s) = watched s) (s : State) :
    watched (dequeue ch i q f s) = watched s := by
  unfold dequeue; split <;> simp [h]

@[simp] theorem refillShapers_watched : ∀  s, watched (refillShapers  s) = watched s := by
  intros; unfold refillShapers; simp

@[simp] theorem refillPolicers_watched : ∀  s, watched (refillPolicers  s) = watched s := by
  intros; unfold refillPolicers; simp

@[simp] theorem modAssoc_watched : ∀ a0 a1 s, watched (modAssoc a0 a1 s) = watched s := by
  intros; unfold modAssoc; simp

@[simp] theorem stopAssoc_watched : ∀ a0 a1 s, watched (stopAssoc a0 a1 s) = watched s := by
  intros; unfold stopAssoc; (repeat' split) <;> simp

@[simp] theorem usePn_watched : ∀ a0 a1 s, watched (usePn a0 a1 s) = watched s := by
  intros; unfold usePn; simp

@[simp] theorem takePn_watched : ∀ a0 a1 a2 s, watched (takePn a0 a1 a2 s) = watched s := by
  intros; unfold takePn; (repeat' split) <;> simp

@[simp] theorem countIcv_watched : ∀ a0 s, watched (countIcv a0 s) = watched s := by
  intros; unfold countIcv; simp

@[simp] theorem finishCut_watched : ∀ a0 a1 a2 s, watched (finishCut a0 a1 a2 s) = watched s := by
  intros; unfold finishCut; (repeat' split) <;> simp

@[simp] theorem transmit_watched : ∀ a0 a1 s, watched (transmit a0 a1 s) = watched s := by
  intros; unfold transmit; (repeat' split) <;> simp

@[simp] theorem launchNow_watched : ∀ a0 a1 a2 s, watched (launchNow a0 a1 a2 s) = watched s := by
  intros; unfold launchNow; (repeat' split) <;> simp

@[simp] theorem setFcIn_watched : ∀ a0 a1 s, watched (setFcIn a0 a1 s) = watched s := by
  intros; unfold setFcIn; simp

@[simp] theorem flushLaunches_watched : ∀ a0 s, watched (flushLaunches a0 s) = watched s := by
  intros; unfold flushLaunches; simp

@[simp] theorem flushQueue_watched : ∀ a0 s, watched (flushQueue a0 s) = watched s := by
  intros; unfold flushQueue; simp

@[simp] theorem modRow_watched : ∀ a0 a1 s, watched (modRow a0 a1 s) = watched s := by
  intros; unfold modRow; (repeat' split) <;> simp

@[simp] theorem countExc_watched : ∀ a0 a1 s, watched (countExc a0 a1 s) = watched s := by
  intros; unfold countExc; simp

@[simp] theorem toAtelier_watched : ∀ a0 a1 a2 s, watched (toAtelier a0 a1 a2 s) = watched s := by
  intros; unfold toAtelier; (repeat' split) <;> simp

@[simp] theorem puntTo_watched : ∀ a0 a1 a2 a3 a4 s, watched (puntTo a0 a1 a2 a3 a4 s) = watched s := by
  intros; unfold puntTo; (repeat' split) <;> simp

@[simp] theorem punt_watched : ∀ a0 a1 a2 a3 a4 s, watched (punt a0 a1 a2 a3 a4 s) = watched s := by
  intros; unfold punt; (try simp only []); (repeat' split) <;> simp

@[simp] theorem except_watched : ∀ a0 a1 a2 a3 s, watched (except a0 a1 a2 a3 s) = watched s := by
  intros; unfold except; simp

@[simp] theorem leavePipe_watched : ∀ a0 a1 s, watched (leavePipe a0 a1 s) = watched s := by
  intros; unfold leavePipe; (try simp only []); (repeat' split) <;> simp

@[simp] theorem toFlow_watched : ∀ a0 a1 s, watched (toFlow a0 a1 s) = watched s := by
  intros; unfold toFlow; (repeat' split) <;> simp

@[simp] theorem toPort_watched : ∀ a0 a1 s, watched (toPort a0 a1 s) = watched s := by
  intros; unfold toPort; simp

@[simp] theorem toChannel_watched : ∀ a0 a1 s, watched (toChannel a0 a1 s) = watched s := by
  intros; unfold toChannel; (repeat' split) <;> simp

@[simp] theorem toLeg_watched : ∀ a0 a1 s, watched (toLeg a0 a1 s) = watched s := by
  intros; unfold toLeg; (repeat' split) <;> simp

@[simp] theorem toGroup_watched : ∀ a0 a1 a2 s, watched (toGroup a0 a1 a2 s) = watched s := by
  intros; unfold toGroup; simp

@[simp] theorem tableParity_watched : ∀ a0 a1 a2 s, watched (tableParity a0 a1 a2 s) = watched s := by
  intros; unfold tableParity; simp

@[simp] theorem loseEntry_watched : ∀ a0 a1 a2 s, watched (loseEntry a0 a1 a2 s) = watched s := by
  intros; unfold loseEntry; (repeat' split) <;> simp

@[simp] theorem deliver_watched : ∀ a0 a1 a2 a3 s, watched (deliver a0 a1 a2 a3 s) = watched s := by
  intros; unfold deliver; (repeat' split) <;> simp

@[simp] theorem route_watched : ∀ a0 a1 a2 a3 s, watched (route a0 a1 a2 a3 s) = watched s := by
  intros; unfold route; (try simp only []); (repeat' split) <;> simp

@[simp] theorem lookupDest_watched : ∀ a0 a1 a2 a3 s, watched (lookupDest a0 a1 a2 a3 s) = watched s := by
  intros; unfold lookupDest; (try simp only []); (repeat' split) <;> simp

@[simp] theorem sourceCheck_watched (d : DieId) (tenant : Nat) (dir : Dir) (vid mac v : Nat) (e : Option FmtEntry) (s : State) :
    watched (sourceCheck d tenant dir vid mac v e s).2 = watched s := by
  unfold sourceCheck
  repeat' split
  all_goals simp

@[simp] theorem forward_watched (p : Pass) (hit : Option Hit) (multi : Bool) (s : State) : watched (forward p hit multi s) = watched s := by
  have h : ∀ (b : Bool) (t : State) (f : State → SourceRes × State), (∀ t, watched (f t).2 = watched t) →
      watched (if b = true then f t else (SourceRes.fine, t)).2 = watched t := by
    intro b t f hf; cases b <;> simp [hf]
  have k : ∀ t, watched t = watched s → ∀ r : SourceRes × State, watched r.2 = watched t → watched r.2 = watched s := fun _ a _ b => b.trans a
  unfold forward
  generalize p.parity = q
  have hl : ∀ q : ParityErr, watched (match q with | .fmt bank index => loseEntry p.die bank index s | _ => s) = watched s := by
    intro q; cases q <;> simp
  have hl := hl q
  dsimp only
  split
  · rw [except_watched]; exact hl
  · split
    · rw [lookupDest_watched]; exact (h _ _ (fun t => sourceCheck _ _ _ _ _ _ _ t) (fun t => sourceCheck_watched ..)).trans hl
    · split
      · rw [lookupDest_watched, countExc_watched]; exact (h _ _ (fun t => sourceCheck _ _ _ _ _ _ _ t) (fun t => sourceCheck_watched ..)).trans hl
      · rw [except_watched]; exact (h _ _ (fun t => sourceCheck _ _ _ _ _ _ _ t) (fun t => sourceCheck_watched ..)).trans hl

@[simp] theorem countHit_watched : ∀ a0 a1 s, watched (countHit a0 a1 s) = watched s := by
  intros; unfold countHit; (try simp only []); (repeat' split) <;> simp

@[simp] theorem dispose_watched : ∀ a0 a1 a2 s, watched (dispose a0 a1 a2 s) = watched s := by
  intros; unfold dispose; (repeat' split) <;> simp

@[simp] theorem applyPolicer_watched (pol : Nat) (p : Pass) (s : State) : watched (applyPolicer pol p s).2 = watched s := by
  unfold applyPolicer
  dsimp only
  split <;> simp

@[simp] theorem finishPass_watched (p : Pass) (h : Option Hit) (multi : Bool) (s : State) : watched (finishPass p h multi s) = watched s := by
  unfold finishPass
  dsimp only
  have e : ∀ r : Option Pass × State, watched r.2 = watched s →
      watched (match r.1 with
        | none => (match h with | some x => countHit (coloured p h (policerFor p h)) x r.2 | none => r.2)
        | some q => dispose q h multi (match h with | some x => countHit (coloured p h (policerFor p h)) x r.2 | none => r.2)) = watched s := by
    intro r hr; split <;> split <;> simp [hr]
  apply e
  split
  · simp
  · rfl

@[simp] theorem toSecond_watched : ∀ a0 a1 s, watched (toSecond a0 a1 s) = watched s := by
  intros; unfold toSecond; (try simp only []); (repeat' split) <;> simp

@[simp] theorem loseRow_watched : ∀ a0 a1 s, watched (loseRow a0 a1 s) = watched s := by
  intros; unfold loseRow; (try simp only []); (repeat' split) <;> simp

@[simp] theorem searchPass_watched : ∀ a0 s, watched (searchPass a0 s) = watched s := by
  intros; unfold searchPass; (try simp only []); (repeat' split) <;> simp

@[simp] theorem parsePass_watched : ∀ a0 s, watched (parsePass a0 s) = watched s := by
  intros; unfold parsePass; (try simp only []); (repeat' split) <;> simp

@[simp] theorem upPass_watched : ∀ a0 a1 a2 s, watched (upPass a0 a1 a2 s) = watched s := by
  intros; unfold upPass; (try simp only []); (repeat' split) <;> simp

@[simp] theorem portPass_watched : ∀ a0 a1 a2 a3 s, watched (portPass a0 a1 a2 a3 s) = watched s := by
  intros; unfold portPass; (try simp only []); (repeat' split) <;> simp

@[simp] theorem securedPass_watched : ∀ a0 a1 a2 a3 s, watched (securedPass a0 a1 a2 a3 s) = watched s := by
  intros; unfold securedPass; (try simp only []); (repeat' split) <;> simp

@[simp] theorem downPass_watched : ∀ a0 a1 a2 a3 s, watched (downPass a0 a1 a2 a3 s) = watched s := by
  intros; unfold downPass; (try simp only []); (repeat' split) <;> simp

@[simp] theorem releaseExits_watched : ∀ a0 s, watched (releaseExits a0 s) = watched s := by
  intros; unfold releaseExits; simp

@[simp] theorem writeRow_watched : ∀ a0 a1 a2 a3 s, watched (writeRow a0 a1 a2 a3 s) = watched s := by
  intros; unfold writeRow; (repeat' split) <;> simp

@[simp] theorem writeRowRec_watched : ∀ a0 a1 a2 s, watched (writeRowRec a0 a1 a2 s) = watched s := by
  intros; unfold writeRowRec; (repeat' split) <;> simp

@[simp] theorem writeBank_watched : ∀ a0 a1 s, watched (writeBank a0 a1 s) = watched s := by
  intros; unfold writeBank; simp

@[simp] theorem releaseRows_watched : ∀ a0 s, watched (releaseRows a0 s) = watched s := by
  intros; unfold releaseRows; simp

@[simp] theorem dropOldRecirc_watched : ∀ a0 a1 s, watched (dropOldRecirc a0 a1 s) = watched s := by
  intros; unfold dropOldRecirc; simp

@[simp] theorem releaseBank_watched : ∀ a0 a1 s, watched (releaseBank a0 a1 s) = watched s := by
  intros; unfold releaseBank; simp

@[simp] theorem latchGroup_watched : ∀ a0 s, watched (latchGroup a0 s) = watched s := by
  intros; unfold latchGroup; simp

@[simp] theorem modEvRing_watched : ∀ a0 a1 a2 s, watched (modEvRing a0 a1 a2 s) = watched s := by
  intros; unfold modEvRing; (repeat' split) <;> simp

@[simp] theorem keepEv_watched : ∀ a0 a1 s, watched (keepEv a0 a1 s) = watched s := by
  intros; unfold keepEv; simp

@[simp] theorem deliverTo_watched : ∀ a0 a1 s, watched (deliverTo a0 a1 s) = watched s := by
  intros; unfold deliverTo; (try simp only []); (repeat' split) <;> simp

@[simp] theorem clearKept_watched : ∀ a0 s, watched (clearKept a0 s) = watched s := by
  intros; unfold clearKept; simp

@[simp] theorem consume_watched : ∀ a0 s, watched (consume a0 s) = watched s := by
  intros; unfold consume; (repeat' split) <;> simp

@[simp] theorem clearPins_watched : ∀ a0 a1 s, watched (clearPins a0 a1 s) = watched s := by
  intros; unfold clearPins; (repeat' split) <;> simp

@[simp] theorem clearWraps_watched : ∀ a0 s, watched (clearWraps a0 s) = watched s := by
  intros; unfold clearWraps; (repeat' split) <;> simp

@[simp] theorem clearCounters_watched : ∀ a0 s, watched (clearCounters a0 s) = watched s := by
  intros; unfold clearCounters; (repeat' split) <;> simp

@[simp] theorem detachPunt_watched : ∀ a0 s, watched (detachPunt a0 s) = watched s := by
  intros; unfold detachPunt; simp

@[simp] theorem freeThimble_watched : ∀ a0 s, watched (freeThimble a0 s) = watched s := by
  intros; unfold freeThimble; simp

@[simp] theorem modSession_watched : ∀ a0 a1 a2 s, watched (modSession a0 a1 a2 s) = watched s := by
  intros; unfold modSession; simp

@[simp] theorem attachEvents_watched : ∀ a0 a1 a2 a3 s, watched (attachEvents a0 a1 a2 a3 s) = watched s := by
  intros; unfold attachEvents; (repeat' split) <;> simp

@[simp] theorem claimThimble_watched : ∀ a0 a1 a2 s, watched (claimThimble a0 a1 a2 s) = watched s := by
  intros; unfold claimThimble; (try simp only []); (repeat' split) <;> simp

@[simp] theorem releaseThimble_watched : ∀ a0 a1 a2 s, watched (releaseThimble a0 a1 a2 s) = watched s := by
  intros; unfold releaseThimble; (repeat' split) <;> simp

@[simp] theorem raiseRingError_watched : ∀ a0 a1 s, watched (raiseRingError a0 a1 s) = watched s := by
  intros; unfold raiseRingError; simp

@[simp] theorem ringFails_watched : ∀ a0 a1 s, watched (ringFails a0 a1 s) = watched s := by
  intros; unfold ringFails; simp

@[simp] theorem enableRing_watched : ∀ a0 a1 s, watched (enableRing a0 a1 s) = watched s := by
  intros; unfold enableRing; (repeat' split) <;> simp

@[simp] theorem releaseOwned_watched (f : PortId × Nat → Bool) (s : State) : watched (releaseOwned f s).2 = watched s := by
  simp [releaseOwned, watched_forAll]

@[simp] theorem closeSession_watched (p : PortId) (r : Nat) (s : State) : watched (closeSession p r s).2 = watched s := by
  unfold closeSession
  split
  · rfl
  · simp [watched_doIf]

@[simp] theorem disableRing_watched (p : PortId) (r : Nat) (s : State) : watched (disableRing p r s) = watched s := by
  simp [disableRing]

@[simp] theorem writeRingCtrl_watched : ∀ a0 a1 a2 a3 a4 s, watched (writeRingCtrl a0 a1 a2 a3 a4 s) = watched s := by
  intros; unfold writeRingCtrl; (try simp only []); (repeat' split) <;> simp

@[simp] theorem writeCmdProd_watched : ∀ a0 a1 a2 s, watched (writeCmdProd a0 a1 a2 s) = watched s := by
  intros; unfold writeCmdProd; (try simp only []); (repeat' split) <;> simp

@[simp] theorem writeRplCons_watched : ∀ a0 a1 a2 s, watched (writeRplCons a0 a1 a2 s) = watched s := by
  intros; unfold writeRplCons; (try simp only []); (repeat' split) <;> simp

theorem ownWrite_watched (w p : PortId) (f : State → State) (h : ∀ s,
    watched (f s) = watched s) (s : State) : watched (ownWrite w p f s) = watched s := by
  unfold ownWrite; repeat' split
  all_goals simp [h]

@[simp] theorem readPuntFifo_watched : ∀ a0 a1 s, watched (readPuntFifo a0 a1 s) = watched s := by
  intros; unfold readPuntFifo; (repeat' split) <;> simp

@[simp] theorem returnPunt_watched : ∀ a0 a1 s, watched (returnPunt a0 a1 s) = watched s := by
  intros; unfold returnPunt; (repeat' split) <;> simp

@[simp] theorem writeRingAddr_watched : ∀ a0 a1 a2 s, watched (writeRingAddr a0 a1 a2 s) = watched s := by
  intros; unfold writeRingAddr; (try simp only []); (repeat' split) <;> simp

@[simp] theorem writeRingReg_watched : ∀ a0 a1 a2 a3 s, watched (writeRingReg a0 a1 a2 a3 s) = watched s := by
  intros; unfold writeRingReg; (repeat' split) <;> simp

@[simp] theorem writeRingBlock_watched (w p : PortId) (off : Nat) (v : Word) (s : State) : watched (writeRingBlock w p off v s) = watched s := by
  unfold writeRingBlock; split
  · exact ownWrite_watched _ _ _ (writeRingReg_watched _ _ _ _) s
  · simp

@[simp] theorem writePuntBlock_watched (w p : PortId) (off : Nat) (v : Word) (s : State) : watched (writePuntBlock w p off v s) = watched s := by
  unfold writePuntBlock; split
  · exact ownWrite_watched _ _ _ (returnPunt_watched _ _) s
  · simp

@[simp] theorem writeThimbleBlock_watched : ∀ a0 a1 a2 s, watched (writeThimbleBlock a0 a1 a2 s) = watched s := by
  intros; unfold writeThimbleBlock; (repeat' split) <;> simp

@[simp] theorem writeHoldoff_watched : ∀ a0 a1 a2 s, watched (writeHoldoff a0 a1 a2 s) = watched s := by
  intros; unfold writeHoldoff; (try simp only []); (repeat' split) <;> simp

@[simp] theorem writeEvtBlock_watched : ∀ a0 a1 a2 s, watched (writeEvtBlock a0 a1 a2 s) = watched s := by
  intros; unfold writeEvtBlock; (repeat' split) <;> simp

@[simp] theorem writeLockBlock_watched : ∀ a0 a1 a2 a3 s, watched (writeLockBlock a0 a1 a2 a3 s) = watched s := by
  intros; unfold writeLockBlock; (repeat' split) <;> simp

@[simp] theorem writeReg_watched : ∀ a0 a1 a2 a3 s, watched (writeReg a0 a1 a2 a3 s) = watched s := by
  intros; unfold writeReg; (repeat' split) <;> simp

@[simp] theorem dropCommands_watched (p : PortId) (s : State) : watched (dropCommands p s) = watched s := by
  unfold dropCommands
  refine watched_forAll _ _ (fun r s => ?_) s
  by_cases h : ringOf s p r = {}
  · rw [if_pos h]
  · rw [if_neg h]; exact modRing_watched ..

@[simp] theorem ownOmci_watched : ∀ a0 a1 a2 a3 a4 a5 s, watched (ownOmci a0 a1 a2 a3 a4 a5 s) = watched s := by
  intros; unfold ownOmci; simp

@[simp] theorem askVersion_watched : ∀ a0 s, watched (askVersion a0 s) = watched s := by
  intros; unfold askVersion; (repeat' split) <;> simp

@[simp] theorem sendBcastKey_watched : ∀ a0 a1 a2 a3 s, watched (sendBcastKey a0 a1 a2 a3 s) = watched s := by
  intros; unfold sendBcastKey; simp

@[simp] theorem omciResponse_watched : ∀ a0 a1 a2 s, watched (omciResponse a0 a1 a2 s) = watched s := by
  intros; unfold omciResponse; simp

@[simp] theorem omciUnanswered_watched : ∀ a0 a1 s, watched (omciUnanswered a0 a1 s) = watched s := by
  intros; unfold omciUnanswered; (repeat' split) <;> simp

@[simp] theorem pushOmci_watched : ∀ a0 a1 s, watched (pushOmci a0 a1 s) = watched s := by
  intros; unfold pushOmci; (repeat' split) <;> simp

@[simp] theorem omciNotify_watched : ∀ a0 a1 s, watched (omciNotify a0 a1 s) = watched s := by
  intros; unfold omciNotify; (try simp only []); (repeat' split) <;> simp

@[simp] theorem alarmCheck_watched : ∀ a0 a1 s, watched (alarmCheck a0 a1 s) = watched s := by
  intros; unfold alarmCheck; simp

@[simp] theorem sendSection_watched : ∀ a0 a1 a2 a3 s, watched (sendSection a0 a1 a2 a3 s) = watched s := by
  intros; unfold sendSection; simp

@[simp] theorem sendWindow_watched : ∀ a0 s, watched (sendWindow a0 s) = watched s := by
  intros; unfold sendWindow; (repeat' split) <;> simp

@[simp] theorem sendEnd_watched : ∀ a0 s, watched (sendEnd a0 s) = watched s := by
  intros; unfold sendEnd; (repeat' split) <;> simp

@[simp] theorem goOn_watched : ∀ a0 s, watched (goOn a0 s) = watched s := by
  intros; unfold goOn; (repeat' split) <;> simp

@[simp] theorem windowFails_watched : ∀ a0 a1 s, watched (windowFails a0 a1 s) = watched s := by
  intros; unfold windowFails; (repeat' split) <;> simp

@[simp] theorem swdlAnswer_watched : ∀ a0 a1 s, watched (swdlAnswer a0 a1 s) = watched s := by
  intros; unfold swdlAnswer; (try simp only []); (repeat' split) <;> simp

@[simp] theorem relayUp_watched : ∀ a0 a1 a2 s, watched (relayUp a0 a1 a2 s) = watched s := by
  intros; unfold relayUp; (try simp only []); (repeat' split) <;> simp

@[simp] theorem relayInsert_watched : ∀ a0 a1 a2 a3 a4 a5 a6 s, watched (relayInsert a0 a1 a2 a3 a4 a5 a6 s) = watched s := by
  intros; unfold relayInsert; (repeat' split) <;> simp

@[simp] theorem relayDown_watched : ∀ a0 a1 a2 s, watched (relayDown a0 a1 a2 s) = watched s := by
  intros; unfold relayDown; (repeat' split) <;> simp

@[simp] theorem sendLoaded_watched : ∀ a0 a1 a2 s, watched (sendLoaded a0 a1 a2 s) = watched s := by
  intros; unfold sendLoaded; simp

@[simp] theorem joinOrHold_watched (t ch tenant vid g : Nat) (s : State) : watched (joinOrHold t ch tenant vid g s) = watched s := by
  unfold joinOrHold
  split
  · simp
  · simp [watched_doIf]

@[simp] theorem leave_watched : ∀ a0 a1 a2 a3 a4 a5 a6 s, watched (leave a0 a1 a2 a3 a4 a5 a6 s) = watched s := by
  intros; unfold leave; (try simp only []); (repeat' split) <;> simp

@[simp] theorem report_watched : ∀ a0 a1 a2 a3 a4 s, watched (report a0 a1 a2 a3 a4 s) = watched s := by
  intros; unfold report; (try simp only []); (repeat' split) <;> simp

@[simp] theorem leaveStep_watched : ∀ a0 s, watched (leaveStep a0 s) = watched s := by
  intros; unfold leaveStep; (repeat' split) <;> simp

@[simp] theorem generalQuery_watched : ∀ a0 a1 a2 s, watched (generalQuery a0 a1 a2 s) = watched s := by
  intros; unfold generalQuery; (try simp only []); (repeat' split) <;> simp

@[simp] theorem putRemote_watched : ∀ a0 s, watched (putRemote a0 s) = watched s := by
  intros; unfold putRemote; simp

@[simp] theorem sendFromMep_watched : ∀ a0 a1 s, watched (sendFromMep a0 a1 s) = watched s := by
  intros; unfold sendFromMep
  repeat' (first
    | rfl
    | (simp; done)
    | split
    | (refine (watched_forAll _ _ (fun _ _ => ?_) _).trans ?_)
    | (refine (watched_doIf _ _ (fun _ => ?_) _).trans ?_)
    | simp only [watched_of, watched_mk])

@[simp] theorem ccmReceive_watched : ∀ a0 a1 a2 a3 a4 s, watched (ccmReceive a0 a1 a2 a3 a4 s) = watched s := by
  intros; unfold ccmReceive; (try simp only []); (repeat' split) <;> simp

@[simp] theorem dropSeries_watched : ∀ a0 a1 s, watched (dropSeries a0 a1 s) = watched s := by
  intros; unfold dropSeries; simp

@[simp] theorem endSeries_watched : ∀ a0 a1 s, watched (endSeries a0 a1 s) = watched s := by
  intros; unfold endSeries; simp

@[simp] theorem seriesReply_watched : ∀ a0 a1 a2 a3 s, watched (seriesReply a0 a1 a2 a3 s) = watched s := by
  intros; unfold seriesReply; (try simp only []); (repeat' split) <;> simp

@[simp] theorem loopDetected_watched : ∀ a0 a1 a2 a3 a4 s, watched (loopDetected a0 a1 a2 a3 a4 s) = watched s := by
  intros; unfold loopDetected; (try simp only []); (repeat' split) <;> simp

@[simp] theorem unblock_watched : ∀ a0 s, watched (unblock a0 s) = watched s := by
  intros; unfold unblock; simp

@[simp] theorem ptpTake_watched : ∀ a0 a1 s, watched (ptpTake a0 a1 s) = watched s := by
  intros; unfold ptpTake; (try simp only []); (repeat' split) <;> simp

@[simp] theorem passOn_watched : ∀ a0 a1 a2 s, watched (passOn a0 a1 a2 s) = watched s := by
  intros; unfold passOn; simp

@[simp] theorem serve__watched : ∀ a0 a1 a2 a3 s, watched (serve_ a0 a1 a2 a3 s) = watched s := by
  intros; unfold serve_; (repeat' split) <;> simp

@[simp] theorem takeSvc_watched : ∀ a0 s, watched (takeSvc a0 s) = watched s := by
  intros; unfold takeSvc; (repeat' split) <;> simp

@[simp] theorem serviceTakeover_watched : ∀  s, watched (serviceTakeover  s) = watched s := by
  intros; unfold serviceTakeover; simp

@[simp] theorem wakePool_watched : ∀ a0 a1 s, watched (wakePool a0 a1 s) = watched s := by
  intros; unfold wakePool; simp

@[simp] theorem wakeNap_watched : ∀ a0 a1 s, watched (wakeNap a0 a1 s) = watched s := by
  intros; unfold wakeNap; (try simp only []); (repeat' split) <;> simp

@[simp] theorem wakeLowest_watched : ∀ a0 s, watched (wakeLowest a0 s) = watched s := by
  intros; unfold wakeLowest; (repeat' split) <;> simp

@[simp] theorem noteSpare_watched : ∀ a0 s, watched (noteSpare a0 s) = watched s := by
  intros; unfold noteSpare; simp

@[simp] theorem settleLoad_watched : ∀ a0 s, watched (settleLoad a0 s) = watched s := by
  intros; unfold settleLoad; simp

@[simp] theorem moveForLoad_watched : ∀ a0 s, watched (moveForLoad a0 s) = watched s := by
  intros; unfold moveForLoad; (try simp only []); (repeat' split) <;> simp

@[simp] theorem poolAwake_watched : ∀ a0 s, watched (poolAwake a0 s) = watched s := by
  intros; unfold poolAwake; (repeat' split) <;> simp

@[simp] theorem countItem_watched : ∀ a0 s, watched (countItem a0 s) = watched s := by
  intros; unfold countItem; simp

@[simp] theorem itemFate_watched : ∀ a0 a1 s, watched (itemFate a0 a1 s) = watched s := by
  intros; unfold itemFate; (repeat' split) <;> simp

@[simp] theorem moveForFault_watched : ∀ a0 s, watched (moveForFault a0 s) = watched s := by
  intros; unfold moveForFault; (try simp only []); (repeat' split) <;> simp

@[simp] theorem keyReport_watched : ∀ a0 a1 a2 a3 s, watched (keyReport a0 a1 a2 a3 s) = watched s := by
  intros; unfold keyReport; (try simp only []); (repeat' split) <;> simp

@[simp] theorem makeCurrent_watched : ∀ a0 a1 a2 a3 s, watched (makeCurrent a0 a1 a2 a3 s) = watched s := by
  intros; unfold makeCurrent; simp

@[simp] theorem markSpent_watched : ∀ a0 a1 a2 a3 s, watched (markSpent a0 a1 a2 a3 s) = watched s := by
  intros; unfold markSpent; simp

@[simp] theorem bcastRefresh_watched : ∀ a0 a1 s, watched (bcastRefresh a0 a1 s) = watched s := by
  intros; unfold bcastRefresh; simp

@[simp] theorem frameContextLost_watched : ∀ a0 a1 a2 s, watched (frameContextLost a0 a1 a2 s) = watched s := by
  intros; unfold frameContextLost; (repeat' split) <;> simp

@[simp] theorem keysLost_watched : ∀ a0 a1 s, watched (keysLost a0 a1 s) = watched s := by
  intros; unfold keysLost; (try simp only []); (repeat' split) <;> simp

@[simp] theorem acceptedRec_watched : ∀ a0 s, watched (acceptedRec a0 s) = watched s := by
  intros; unfold acceptedRec; simp

@[simp] theorem copyBase_watched : ∀ a0 s, watched (copyBase a0 s) = watched s := by
  intros; unfold copyBase; (try simp only []); (repeat' split) <;> simp

@[simp] theorem settleCopies_watched : ∀  s, watched (settleCopies  s) = watched s := by
  intros; unfold settleCopies; simp

@[simp] theorem setBase_watched : ∀ a0 a1 s, watched (setBase a0 a1 s) = watched s := by
  intros; unfold setBase; (try simp only []); (repeat' split) <;> simp

@[simp] theorem todDueOf_watched : ∀ a0 s, watched (todDueOf a0 s) = watched s := by
  intros; unfold todDueOf
  repeat' (first
    | rfl
    | (simp; done)
    | split
    | (refine (watched_forAll _ _ (fun _ _ => ?_) _).trans ?_)
    | (refine (watched_doIf _ _ (fun _ => ?_) _).trans ?_)
    | simp only [watched_of, watched_mk])

@[simp] theorem dropPassed_watched : ∀ a0 s, watched (dropPassed a0 s) = watched s := by
  intros; unfold dropPassed; simp

@[simp] theorem stepBase_watched : ∀ a0 a1 s, watched (stepBase a0 a1 s) = watched s := by
  intros; unfold stepBase; simp

@[simp] theorem feedServo_watched : ∀ a0 a1 s, watched (feedServo a0 a1 s) = watched s := by
  intros; unfold feedServo; (try simp only []); (repeat' split) <;> simp

@[simp] theorem sample_watched : ∀ a0 a1 s, watched (sample a0 a1 s) = watched s := by
  intros; unfold sample; (try simp only []); (repeat' split) <;> simp

@[simp] theorem loseSource_watched : ∀ a0 s, watched (loseSource a0 s) = watched s := by
  intros; unfold loseSource; (repeat' split) <;> simp

@[simp] theorem refuseJump_watched : ∀ a0 s, watched (refuseJump a0 s) = watched s := by
  intros; unfold refuseJump; (try simp only []); (repeat' split) <;> simp

@[simp] theorem announceChange_watched : ∀ a0 a1 s, watched (announceChange a0 a1 s) = watched s := by
  intros; unfold announceChange; simp

@[simp] theorem setForeign_watched : ∀ a0 s, watched (setForeign a0 s) = watched s := by
  intros; unfold setForeign; simp

@[simp] theorem ptpIfDue_watched : ∀ a0 a1 a2 a3 s, watched (ptpIfDue a0 a1 a2 a3 s) = watched s := by
  intros; unfold ptpIfDue; (try simp only []); (repeat' split) <;> simp

@[simp] theorem sendTod_watched : ∀ a0 a1 s, watched (sendTod a0 a1 s) = watched s := by
  intros; unfold sendTod; simp

@[simp] theorem subportDown_watched : ∀ a0 s, watched (subportDown a0 s) = watched s := by
  intros; unfold subportDown; (repeat' split) <;> simp

@[simp] theorem seamDrop_watched : ∀  s, watched (seamDrop  s) = watched s := by
  intros; unfold seamDrop; (repeat' split) <;> simp

@[simp] theorem seamLanesCheck_watched : ∀  s, watched (seamLanesCheck  s) = watched s := by
  intros; unfold seamLanesCheck; (repeat' split) <;> simp

@[simp] theorem laneStops_watched : ∀ a0 s, watched (laneStops a0 s) = watched s := by
  intros; unfold laneStops; (repeat' split) <;> simp

@[simp] theorem nextScan_watched : ∀ a0 s, watched (nextScan a0 s) = watched s := by
  intros; unfold nextScan; (repeat' split) <;> simp

@[simp] theorem askScan_watched : ∀ a0 s, watched (askScan a0 s) = watched s := by
  intros; unfold askScan; (repeat' split) <;> simp

@[simp] theorem endScan_watched : ∀ a0 a1 s, watched (endScan a0 a1 s) = watched s := by
  intros; unfold endScan; (repeat' split) <;> simp

@[simp] theorem squelch_watched : ∀ a0 s, watched (squelch a0 s) = watched s := by
  intros; unfold squelch; simp

@[simp] theorem laneLoses_watched : ∀ a0 s, watched (laneLoses a0 s) = watched s := by
  intros; unfold laneLoses; simp

@[simp] theorem laneReturns_watched : ∀ a0 s, watched (laneReturns a0 s) = watched s := by
  intros; unfold laneReturns
  repeat' (first
    | rfl
    | (simp; done)
    | split
    | (refine (watched_forAll _ _ (fun _ _ => ?_) _).trans ?_)
    | (refine (watched_doIf _ _ (fun _ => ?_) _).trans ?_)
    | simp only [watched_of, watched_mk])

@[simp] theorem lanePhaseLost_watched : ∀ a0 s, watched (lanePhaseLost a0 s) = watched s := by
  intros; unfold lanePhaseLost; (repeat' split) <;> simp

@[simp] theorem startTraining_watched : ∀ a0 s, watched (startTraining a0 s) = watched s := by
  intros; unfold startTraining; simp

@[simp] theorem takeSnapshot_watched : ∀ a0 s, watched (takeSnapshot a0 s) = watched s := by
  intros; unfold takeSnapshot; simp

@[simp] theorem countLane_watched : ∀ a0 a1 a2 a3 s, watched (countLane a0 a1 a2 a3 s) = watched s := by
  intros; unfold countLane; simp

@[simp] theorem degradeStep_watched : ∀ a0 a1 s, watched (degradeStep a0 a1 s) = watched s := by
  intros; unfold degradeStep; (try simp only []); (repeat' split) <;> simp

@[simp] theorem uncountDip_watched : ∀ a0 s, watched (uncountDip a0 s) = watched s := by
  intros; unfold uncountDip; (repeat' split) <;> simp

@[simp] theorem beginStartup_watched : ∀  s, watched (beginStartup  s) = watched s := by
  intros; unfold beginStartup; simp

@[simp] theorem settleGrid_watched : ∀  s, watched (settleGrid  s) = watched s := by
  intros; unfold settleGrid; (try simp only []); (repeat' split) <;> simp

@[simp] theorem burstLaneLost_watched : ∀ a0 s, watched (burstLaneLost a0 s) = watched s := by
  intros; unfold burstLaneLost; (repeat' split) <;> simp

@[simp] theorem refUnlocks_watched : ∀ a0 s, watched (refUnlocks a0 s) = watched s := by
  intros; unfold refUnlocks; (repeat' split) <;> simp

@[simp] theorem blockStart_watched : ∀  s, watched (blockStart  s) = watched s := by
  intros; unfold blockStart; simp

@[simp] theorem reportReset_watched : ∀  s, watched (reportReset  s) = watched s := by
  intros; unfold reportReset; (repeat' split) <;> simp

@[simp] theorem becomeReady_watched : ∀  s, watched (becomeReady  s) = watched s := by
  intros; unfold becomeReady; simp

@[simp] theorem settleWrites_watched : ∀  s, watched (settleWrites  s) = watched s := by
  intros; unfold settleWrites; simp

@[simp] theorem replan_watched : ∀ a0 a1 s, watched (replan a0 a1 s) = watched s := by
  intros; unfold replan; (try simp only []); (repeat' split) <;> simp

@[simp] theorem ingestReport_watched : ∀ a0 a1 s, watched (ingestReport a0 a1 s) = watched s := by
  intros; unfold ingestReport; (repeat' split) <;> simp

@[simp] theorem accrue_watched : ∀ a0 s, watched (accrue a0 s) = watched s := by
  intros; unfold accrue; simp

@[simp] theorem setShares_watched : ∀  s, watched (setShares  s) = watched s := by
  intros; unfold setShares; simp

@[simp] theorem closeDemand_watched : ∀ a0 s, watched (closeDemand a0 s) = watched s := by
  intros; unfold closeDemand; simp

@[simp] theorem periodEnd_watched : ∀  s, watched (periodEnd  s) = watched s := by
  intros; unfold periodEnd; (try simp only []); (repeat' split) <;> simp

@[simp] theorem refreshBudget_watched : ∀ a0 s, watched (refreshBudget a0 s) = watched s := by
  intros; unfold refreshBudget; (try simp only []); (repeat' split) <;> simp

@[simp] theorem cutOff_watched : ∀ a0 a1 s, watched (cutOff a0 a1 s) = watched s := by
  intros; unfold cutOff; simp

@[simp] theorem startBuild_watched : ∀ a0 a1 a2 a3 s, watched (startBuild a0 a1 a2 a3 s) = watched s := by
  intros; unfold startBuild; (repeat' split) <;> simp

@[simp] theorem sendAllocState_watched : ∀ a0 s, watched (sendAllocState a0 s) = watched s := by
  intros; unfold sendAllocState; (repeat' split) <;> simp

@[simp] theorem buildStart_watched : ∀ a0 s, watched (buildStart a0 s) = watched s := by
  intros; unfold buildStart; (try simp only []); (repeat' split) <;> simp

@[simp] theorem debitGrant_watched : ∀ a0 a1 s, watched (debitGrant a0 a1 s) = watched s := by
  intros; unfold debitGrant; (repeat' split) <;> simp

@[simp] theorem debitMap_watched : ∀ a0 s, watched (debitMap a0 s) = watched s := by
  intros; unfold debitMap; simp

@[simp] theorem handOver_watched : ∀ a0 a1 a2 s, watched (handOver a0 a1 a2 s) = watched s := by
  intros; unfold handOver; simp

@[simp] theorem settleIdle_watched : ∀ s, watched (settleIdle s) = watched s := by
  intros; unfold settleIdle; simp

@[simp] theorem finishBuild_watched : ∀ a0 a1 s, watched (finishBuild a0 a1 s) = watched s := by
  intros; unfold finishBuild; (try simp only []); (repeat' split) <;> simp

@[simp] theorem returnWindows_watched : ∀ a0 a1 s, watched (returnWindows a0 a1 s) = watched s := by
  intros; unfold returnWindows; simp

@[simp] theorem abandonBuild_watched : ∀ a0 s, watched (abandonBuild a0 s) = watched s := by
  intros; unfold abandonBuild; (repeat' split) <;> simp

@[simp] theorem setProtected_watched : ∀ a0 a1 s, watched (setProtected a0 a1 s) = watched s := by
  intros; unfold setProtected; (try simp only []); (repeat' split) <;> simp

@[simp] theorem steal_watched : ∀ a0 a1 s, watched (steal a0 a1 s) = watched s := by
  intros; unfold steal; simp

@[simp] theorem moveContexts_watched : ∀ a0 a1 a2 s, watched (moveContexts a0 a1 a2 s) = watched s := by
  intros; unfold moveContexts; simp

@[simp] theorem dropBuilds_watched : ∀ a0 s, watched (dropBuilds a0 s) = watched s := by
  intros; unfold dropBuilds; simp

@[simp] theorem storeHint_watched : ∀ a0 a1 s, watched (storeHint a0 a1 s) = watched s := by
  intros; unfold storeHint; simp

@[simp] theorem pruneHints_watched : ∀  s, watched (pruneHints  s) = watched s := by
  intros; unfold pruneHints; simp

@[simp] theorem lateHint_watched : ∀ a0 s, watched (lateHint a0 s) = watched s := by
  intros; unfold lateHint; simp

@[simp] theorem purgeQueue_watched : ∀ a0 a1 s, watched (purgeQueue a0 a1 s) = watched s := by
  intros; unfold purgeQueue; simp

@[simp] theorem purgeLaunches_watched : ∀ a0 a1 s, watched (purgeLaunches a0 a1 s) = watched s := by
  intros; unfold purgeLaunches; simp

@[simp] theorem purgePorts_watched : ∀ a0 s, watched (purgePorts a0 s) = watched s := by
  intros; unfold purgePorts; simp

@[simp] theorem purgeFlows_watched : ∀ a0 s, watched (purgeFlows a0 s) = watched s := by
  intros; unfold purgeFlows; (repeat' split) <;> simp

@[simp] theorem purgeWhole_watched : ∀ a0 s, watched (purgeWhole a0 s) = watched s := by
  intros; unfold purgeWhole; simp

@[simp] theorem forgetTerm_watched : ∀ a0 s, watched (forgetTerm a0 s) = watched s := by
  intros; unfold forgetTerm; (repeat' split) <;> simp

@[simp] theorem revokeTerm_watched : ∀ a0 s, watched (revokeTerm a0 s) = watched s := by
  intros; unfold revokeTerm; (repeat' split) <;> simp

@[simp] theorem revokeAlloc_watched : ∀ a0 s, watched (revokeAlloc a0 s) = watched s := by
  intros; unfold revokeAlloc
  repeat' (first
    | rfl
    | (simp; done)
    | split
    | (refine (watched_forAll _ _ (fun _ _ => ?_) _).trans ?_)
    | (refine (watched_doIf _ _ (fun _ => ?_) _).trans ?_)
    | simp only [watched_of, watched_mk])

@[simp] theorem revokeQueue_watched : ∀ a0 a1 s, watched (revokeQueue a0 a1 s) = watched s := by
  intros; unfold revokeQueue; (repeat' split) <;> simp

@[simp] theorem revokePort_watched : ∀ a0 s, watched (revokePort a0 s) = watched s := by
  intros; unfold revokePort; simp

@[simp] theorem disableChannel_watched : ∀ a0 s, watched (disableChannel a0 s) = watched s := by
  intros; unfold disableChannel; (try simp only []); (repeat' split) <;> simp

@[simp] theorem closeStatic_watched : ∀ a0 a1 s, watched (closeStatic a0 a1 s) = watched s := by
  intros; unfold closeStatic; simp

theorem staticPlace_watched {o : Obj} {d : DieId} {tenant key : Nat} {s : State} {r : State × Nat × Nat}
    (h : staticPlace o d tenant key s = some r) : watched r.1 = watched s := by
  unfold staticPlace at h
  split at h
  · obtain ⟨i, _, rfl⟩ := Option.map_eq_some_iff.1 h; rfl
  · dsimp only at h
    split at h
    · obtain ⟨i, _, rfl⟩ := Option.map_eq_some_iff.1 h; rfl
    · exact makeRoom_watched h

@[simp] theorem openStatic_watched (new : Cfg) (n : Nat) (s : State) : watched (openStatic new n s) = watched s := by
  unfold openStatic
  refine watched_forAll _ _ (fun d s => ?_) s
  dsimp only
  split
  · rfl
  · rename_i h; simpa using staticPlace_watched h

@[simp] theorem revokeMep_watched : ∀ a0 s, watched (revokeMep a0 s) = watched s := by
  intros; unfold revokeMep; simp

@[simp] theorem revokeRef_watched : ∀ a0 a1 a2 s, watched (revokeRef a0 a1 a2 s) = watched s := by
  intros; unfold revokeRef
  repeat' (first
    | rfl
    | (simp; done)
    | split
    | (refine (watched_forAll _ _ (fun _ _ => ?_) _).trans ?_)
    | (refine (watched_doIf _ _ (fun _ => ?_) _).trans ?_)
    | simp only [watched_of, watched_mk])

@[simp] theorem clipLevels_watched : ∀  s, watched (clipLevels  s) = watched s := by
  intros; unfold clipLevels; simp

@[simp] theorem switchBank_watched : ∀ a0 a1 s, watched (switchBank a0 a1 s) = watched s := by
  intros; unfold switchBank
  repeat' (first
    | rfl
    | (simp; done)
    | split
    | (refine (watched_forAll _ _ (fun _ _ => ?_) _).trans ?_)
    | (refine (watched_doIf _ _ (fun _ => ?_) _).trans ?_)
    | simp only [watched_of, watched_mk])

@[simp] theorem modPend_watched : ∀ a0 s, watched (modPend a0 s) = watched s := by
  intros; unfold modPend; simp

@[simp] theorem revokeAll_watched : ∀ a0 a1 a2 a3 s, watched (revokeAll a0 a1 a2 a3 s) = watched s := by
  intros; unfold revokeAll; simp

@[simp] theorem openWindow_watched : ∀ a0 s, watched (openWindow a0 s) = watched s := by
  intros; unfold openWindow; simp

@[simp] theorem moveEntry_watched : ∀ a0 a1 s, watched (moveEntry a0 a1 s) = watched s := by
  intros; unfold moveEntry; (repeat' split) <;> simp

@[simp] theorem moveRow_watched : ∀ a0 a1 s, watched (moveRow a0 a1 s) = watched s := by
  intros; unfold moveRow; (try simp only []); (repeat' split) <;> simp

@[simp] theorem moveAway_watched : ∀ a0 a1 s, watched (moveAway a0 a1 s) = watched s := by
  intros; unfold moveAway; simp

@[simp] theorem placeNew_watched : ∀ a0 a1 a2 s, watched (placeNew a0 a1 a2 s) = watched s := by
  intros; unfold placeNew; (repeat' split) <;> simp

@[simp] theorem placeQueue_watched : ∀ a0 s, watched (placeQueue a0 s) = watched s := by
  intros; unfold placeQueue; (try simp only []); (repeat' split) <;> simp

@[simp] theorem placeOnLane_watched : ∀ a0 a1 a2 s, watched (placeOnLane a0 a1 a2 s) = watched s := by
  intros; unfold placeOnLane; (try simp only []); (repeat' split) <;> simp

@[simp] theorem placeTerm_watched : ∀ a0 s, watched (placeTerm a0 s) = watched s := by
  intros; unfold placeTerm; (try simp only []); (repeat' split) <;> simp

@[simp] theorem setupPriv_watched : ∀ a0 a1 s, watched (setupPriv a0 a1 s) = watched s := by
  intros; unfold setupPriv; (repeat' split) <;> simp

@[simp] theorem privQueue_watched : ∀ a0 a1 s, watched (privQueue a0 a1 s) = watched s := by
  intros; unfold privQueue; (try simp only []); (repeat' split) <;> simp

@[simp] theorem profilesChanged_watched : ∀ a0 a1 a2 a3 s, watched (profilesChanged a0 a1 a2 a3 s) = watched s := by
  intros; unfold profilesChanged; (try simp only []); (repeat' split) <;> simp

@[simp] theorem hostDisable_watched : ∀ a0 s, watched (hostDisable a0 s) = watched s := by
  intros; unfold hostDisable; simp

@[simp] theorem openBase_watched : ∀ a0 a1 a2 s, watched (openBase a0 a1 a2 s) = watched s := by
  intros; unfold openBase; (try simp only []); (repeat' split) <;> simp

@[simp] theorem openMep_watched : ∀ a0 a1 s, watched (openMep a0 a1 s) = watched s := by
  intros; unfold openMep; simp

@[simp] theorem eraseTerm_watched : ∀ a0 s, watched (eraseTerm a0 s) = watched s := by
  intros; unfold eraseTerm; simp

@[simp] theorem leaveTree_watched : ∀ a0 s, watched (leaveTree a0 s) = watched s := by
  intros; unfold leaveTree; simp

@[simp] theorem eraseObj_watched : ∀ a0 s, watched (eraseObj a0 s) = watched s := by
  intros; unfold eraseObj; (repeat' split) <;> simp

@[simp] theorem settleStatics_watched : ∀ a0 s, watched (settleStatics a0 s) = watched s := by
  intros; unfold settleStatics; simp

@[simp] theorem freeDeleted_watched : ∀ a0 s, watched (freeDeleted a0 s) = watched s := by
  intros; unfold freeDeleted; simp

@[simp] theorem mendEntry_watched : ∀ a0 a1 s, watched (mendEntry a0 a1 s) = watched s := by
  intros; unfold mendEntry; (repeat' split) <;> simp

@[simp] theorem settleNear_watched : ∀ a0 s, watched (settleNear a0 s) = watched s := by
  intros; unfold settleNear; (try simp only []); (repeat' split) <;> simp

@[simp] theorem completeMove_watched : ∀ a0 a1 s, watched (completeMove a0 a1 s) = watched s := by
  intros; unfold completeMove; simp

@[simp] theorem claimToken_watched : ∀ a0 s, watched (claimToken a0 s) = watched s := by
  intros; unfold claimToken; simp

@[simp] theorem baseTakeover_watched : ∀ a0 s, watched (baseTakeover a0 s) = watched s := by
  intros; unfold baseTakeover; (repeat' split) <;> simp

@[simp] theorem abandonLoaded_watched : ∀ a0 s, watched (abandonLoaded a0 s) = watched s := by
  intros; unfold abandonLoaded
  repeat' (first
    | rfl
    | (simp; done)
    | split
    | (refine (watched_forAll _ _ (fun _ _ => ?_) _).trans ?_)
    | (refine (watched_doIf _ _ (fun _ => ?_) _).trans ?_)
    | simp only [watched_of, watched_mk])

@[simp] theorem feederAdjust_watched : ∀ a0 s, watched (feederAdjust a0 s) = watched s := by
  intros; unfold feederAdjust; (repeat' split) <;> simp

@[simp] theorem firstFrame_watched : ∀ a0 s, watched (firstFrame a0 s) = watched s := by
  intros; unfold firstFrame; (repeat' split) <;> simp

@[simp] theorem tellTakeover_watched : ∀  s, watched (tellTakeover  s) = watched s := by
  intros; unfold tellTakeover; (repeat' split) <;> simp

@[simp] theorem oweExchanges_watched : ∀ a0 s, watched (oweExchanges a0 s) = watched s := by
  intros; unfold oweExchanges; simp

@[simp] theorem startResync_watched : ∀ a0 a1 s, watched (startResync a0 a1 s) = watched s := by
  intros; unfold startResync; (repeat' split) <;> simp

@[simp] theorem disarmAndResync_watched : ∀ a0 a1 s, watched (disarmAndResync a0 a1 s) = watched s := by
  intros; unfold disarmAndResync; simp

@[simp] theorem failResync_watched : ∀ a0 s, watched (failResync a0 s) = watched s := by
  intros; unfold failResync; simp

@[simp] theorem checkArmed_watched : ∀  s, watched (checkArmed  s) = watched s := by
  intros; unfold checkArmed; (repeat' split) <;> simp

@[simp] theorem stopSeries_watched : ∀ a0 a1 a2 a3 a4 s, watched (stopSeries a0 a1 a2 a3 a4 s) = watched s := by
  intros; unfold stopSeries; (repeat' split) <;> simp

@[simp] theorem stopRunning_watched : ∀ a0 a1 a2 s, watched (stopRunning a0 a1 a2 s) = watched s := by
  intros; unfold stopRunning; (repeat' split) <;> simp

@[simp] theorem abortEngine_watched (target : AbortTarget) (s : State) : watched (abortEngine target s).2 = watched s := by
  unfold abortEngine
  dsimp only
  split
  all_goals (repeat' split)
  all_goals simp [endTest, watched_forAll, watched_of]

@[simp] theorem carryOut_watched (e : AbortEntry) (s : State) : watched (carryOut e s) = watched s := by
  unfold carryOut
  split
  · rfl
  · dsimp only
    split <;> simp

@[simp] theorem countBadSeam_watched : ∀  s, watched (countBadSeam  s) = watched s := by
  intros; unfold countBadSeam; simp

@[simp] theorem noteSeam_watched : ∀ a0 a1 s, watched (noteSeam a0 a1 s) = watched s := by
  intros; unfold noteSeam; simp

@[simp] theorem followToken_watched : ∀ a0 s, watched (followToken a0 s) = watched s := by
  intros; unfold followToken; (repeat' split) <;> simp

@[simp] theorem ackSeam_watched : ∀ a0 s, watched (ackSeam a0 s) = watched s := by
  intros; unfold ackSeam; simp

theorem seamIn_watched (hello : Bool) (sh : SeamHdr) (f : State → State) (h : ∀ s, watched (f s) = watched s) (s : State) :
    watched (seamIn hello sh f s) = watched s := by
  unfold seamIn; repeat' split
  all_goals simp [h]

@[simp] theorem refusePairing_watched : ∀ a0 a1 s, watched (refusePairing a0 a1 s) = watched s := by
  intros; unfold refusePairing; simp

@[simp] theorem answerHello_watched : ∀  s, watched (answerHello  s) = watched s := by
  intros; unfold answerHello; (repeat' split) <;> simp

@[simp] theorem pairWith_watched : ∀ a0 a1 a2 a3 s, watched (pairWith a0 a1 a2 a3 s) = watched s := by
  intros; unfold pairWith; (try simp only []); (repeat' split) <;> simp

@[simp] theorem stepGrid_watched : ∀ a0 a1 s, watched (stepGrid a0 a1 s) = watched s := by
  intros; unfold stepGrid; simp

@[simp] theorem alignGrid_watched : ∀ a0 a1 s, watched (alignGrid a0 a1 s) = watched s := by
  intros; unfold alignGrid; (repeat' split) <;> simp

@[simp] theorem configMismatch_watched : ∀ a0 a1 a2 a3 s, watched (configMismatch a0 a1 a2 a3 s) = watched s := by
  intros; unfold configMismatch; simp

@[simp] theorem gridIn_watched : ∀ a0 a1 a2 a3 s, watched (gridIn a0 a1 a2 a3 s) = watched s := by
  intros; unfold gridIn; (try simp only []); (repeat' split) <;> simp

theorem issueNum_watched {b : BasteRec} {s : State} {x : Nat × State} (h : issueNum b s = some x) : watched x.2 = watched s := by
  unfold issueNum at h
  split at h
  · split at h
    · cases h
    · cases h; simp
  · obtain ⟨n, _, rfl⟩ := Option.map_eq_some_iff.1 h; rfl

@[simp] theorem takeNumber_watched (r : BasteRec) (num : Nat) (s : State) : watched (takeNumber r num s) = watched s := by
  unfold takeNumber
  split
  · split
    · rename_i h; split
      · exact issueNum_watched h
      · rfl
    · rfl
  · rfl

@[simp] theorem nextPart_watched : ∀ a0 s, watched (nextPart a0 s) = watched s := by
  intros; unfold nextPart; simp

@[simp] theorem keepStitch_watched : ∀ a0 a1 a2 s, watched (keepStitch a0 a1 a2 s) = watched s := by
  intros; unfold keepStitch; simp

@[simp] theorem stageRec_watched (b : BasteRec) (num : Nat) (c : Option Nat) (s : State) : watched (stageRec b num c s).2 = watched s := rfl

@[simp] theorem stitchIn_watched (sh : SeamHdr) (part : StitchPart) (s : State) : watched (stitchIn sh part s) = watched s := by
  unfold stitchIn
  split <;> dsimp only <;> (repeat' split) <;> simp [watched_of]
  all_goals (try split) <;> simp [← watched_of]

@[simp] theorem answerStitches_watched : ∀  s, watched (answerStitches  s) = watched s := by
  intros; unfold answerStitches
  repeat' (first
    | rfl
    | (simp; done)
    | split
    | (refine (watched_forAll _ _ (fun _ _ => ?_) _).trans ?_)
    | (refine (watched_doIf _ _ (fun _ => ?_) _).trans ?_)
    | simp only [watched_of, watched_mk])

@[simp] theorem restream_watched : ∀  s, watched (restream  s) = watched s := by
  intros; unfold restream; simp

@[simp] theorem serveResync_watched : ∀  s, watched (serveResync  s) = watched s := by
  intros; unfold serveResync; simp

@[simp] theorem afterImage_watched : ∀  s, watched (afterImage  s) = watched s := by
  intros; unfold afterImage; simp

@[simp] theorem buildInputIn_watched : ∀ a0 a1 a2 a3 s, watched (buildInputIn a0 a1 a2 a3 s) = watched s := by
  intros; unfold buildInputIn; (try simp only []); (repeat' split) <;> simp

@[simp] theorem digestMatch_watched : ∀ a0 s, watched (digestMatch a0 s) = watched s := by
  intros; unfold digestMatch; (try simp only []); (repeat' split) <;> simp

@[simp] theorem digestMismatch_watched : ∀ a0 s, watched (digestMismatch a0 s) = watched s := by
  intros; unfold digestMismatch; (try simp only []); (repeat' split) <;> simp

@[simp] theorem digestIn_watched : ∀ a0 a1 a2 s, watched (digestIn a0 a1 a2 s) = watched s := by
  intros; unfold digestIn; (repeat' split) <;> simp

@[simp] theorem addDelta_watched : ∀ a0 a1 a2 s, watched (addDelta a0 a1 a2 s) = watched s := by
  intros; unfold addDelta; (try simp only []); (repeat' split) <;> simp

@[simp] theorem followRanging_watched : ∀ a0 a1 a2 a3 a4 a5 s, watched (followRanging a0 a1 a2 a3 a4 a5 s) = watched s := by
  intros; unfold followRanging; (try simp only []); (repeat' split) <;> simp

@[simp] theorem rangingIn_watched : ∀ a0 a1 a2 a3 a4 a5 a6 s, watched (rangingIn a0 a1 a2 a3 a4 a5 a6 s) = watched s := by
  intros; unfold rangingIn; (repeat' split) <;> simp

@[simp] theorem followRogue_watched : ∀ a0 a1 s, watched (followRogue a0 a1 s) = watched s := by
  intros; unfold followRogue; (repeat' split) <;> simp

@[simp] theorem hostEventIn_watched : ∀ a0 s, watched (hostEventIn a0 s) = watched s := by
  intros; unfold hostEventIn; (repeat' split) <;> simp

@[simp] theorem installKey_watched : ∀ a0 a1 a2 a3 a4 a5 a6 s, watched (installKey a0 a1 a2 a3 a4 a5 a6 s) = watched s := by
  intros; unfold installKey; (try simp only []); (repeat' split) <;> simp

@[simp] theorem keyFails_watched : ∀ a0 a1 s, watched (keyFails a0 a1 s) = watched s := by
  intros; unfold keyFails; (try simp only []); (repeat' split) <;> simp

@[simp] theorem keyContextIn_watched : ∀ a0 a1 a2 a3 a4 a5 a6 a7 s,
    watched (keyContextIn a0 a1 a2 a3 a4 a5 a6 a7 s) = watched s := by
  intros; unfold keyContextIn; (repeat' split) <;> simp

@[simp] theorem baseFits_watched : ∀ a0 s, watched (baseFits a0 s) = watched s := by
  intros; unfold baseFits; simp

@[simp] theorem baseUnfit_watched : ∀ a0 a1 s, watched (baseUnfit a0 a1 s) = watched s := by
  intros; unfold baseUnfit; simp

@[simp] theorem sampleSeam_watched : ∀ a0 a1 s, watched (sampleSeam a0 a1 s) = watched s := by
  intros; unfold sampleSeam; simp

@[simp] theorem compareIn_watched (n value : Nat) (st : BaseState) (s : State) : watched (compareIn n value st s) = watched s := by
  unfold compareIn
  dsimp only
  have h : ∀ b, watched (doIf b (fun s : State => { s with twin := { s.twin with resyncStep := 6 } }) s) = watched s :=
    fun b => watched_doIf b _ (fun t => show watched { t with twin := { t.twin with resyncStep := 6 } } = watched t from rfl) s
  split
  · split <;> simp [h]
  · split
    · simp [h]
    · split
      · simp [h]
      · split <;> simp [h]

@[simp] theorem allocSeen_watched : ∀ a0 s, watched (allocSeen a0 s) = watched s := by
  intros; unfold allocSeen; (repeat' split) <;> simp

@[simp] theorem allocStateIn_watched : ∀ a0 a1 a2 a3 s, watched (allocStateIn a0 a1 a2 a3 s) = watched s := by
  intros; unfold allocStateIn; simp

@[simp] theorem clearMulti_watched : ∀ a0 s, watched (clearMulti a0 s) = watched s := by
  intros; unfold clearMulti; simp

end Sys2Proof.Machine
end

