-- ==== Sys2Proof/Tests/Slice0.lean ====
section
/-! SUPPORT. Tests: ill-formed terms that the checks of WellFormed refuse; for every statement a state and operands that meet all its hypotheses; and one-step tests whose results come from the spec. -/

namespace Sys2Proof.Tests
open Sys2Proof Sys2Proof.Machine

-- One test after another: each one's evaluation by the kernel waits for what stands before it.
set_option Elab.async false

/-! ### Small states -/

/-- A unit whose start-up has ended. -/
def ready : PowerSt := { inReset := false, stage := 5, ready := true }
/-- The session of ring A0. -/
def se0 : Session := { id := 7, agent := 3, version := 0x0102 }
/-- A ring with one command that waits. -/
def ring0 : Ring := { enable := true, cmdProd := 1, session := some se0 }
/-- Ring 0 of a ready unit has a command to start; both links are up. -/
def host : State := { pwr := ready, host := { linkA := true, linkB := true, rings := [(0, ring0)] } }
def h0 : Hdr := { port := .a, ring := 0, session := 7 }
/-- The unit holds the token and has lit a cluster. -/
def lit (s : State) : State := { s with twin := { s.twin with held := true, tokenOut := true, yieldOut := false, lasers := [0] } }
/-- What the state after a command says of something. -/
def after (o : Host.Outcome State Fault Refusal) (p : State → Bool) : Bool :=
  match o with
  | .next t => p t
  | _ => false


/-! ### Ill-formed terms -/

def shAt (lane seq : Nat) : SeamHdr := { lane := lane, seq := seq }
theorem test_wf_channel : wellFormed (.mapBuildStart 0 512) = false ∧ wellFormed (.mapBuildStart 0 511) = true := by decide
theorem test_wf_terminal : wellFormed (.terminalLost 0 65536) = false ∧ wellFormed (.terminalLost 0 65535) = true := by decide
theorem test_wf_flow : wellFormed (.loopHoldEnd 0 1048576) = false ∧ wellFormed (.loopHoldEnd 0 1048575) = true := by decide
theorem test_wf_tenant : wellFormed (.loopProbeSend 0 .east 64 0) = false ∧ wellFormed (.loopProbeSend 0 .east 63 4095) = true := by decide
theorem test_wf_vid : wellFormed (.loopProbeSend 0 .east 0 4096) = false := by decide
theorem test_wf_mac : wellFormed (.holdWindowClose 0 .east 0 0 (2 ^ 48)) = false ∧ wellFormed (.holdWindowClose 0 .east 0 0 (2 ^ 48 - 1)) = true := by decide
theorem test_wf_base : wellFormed (.timeLock 0 8) = false ∧ wellFormed (.timeLock 0 7) = true := by decide
theorem test_wf_ring : wellFormed (.sessionClose 0 { h0 with ring := 16 }) = false ∧ wellFormed (.sessionClose 0 h0) = true := by decide
theorem test_wf_abort : wellFormed (.abort 0 ⟨.a, 16, 0, 0, 0, false, 0, .command .a 0 0⟩) = false := by decide
theorem test_wf_unpick : wellFormed (.unpickScan 0 [⟨.a, 16, 0, 0, 0, false, 0, .command .a 0 0⟩]) = false ∧ wellFormed (.unpickScan 0 []) = true := by decide
theorem test_wf_bank : wellFormed (.tableLockTimeout 0 .east 16) = false ∧ wellFormed (.tableLockTimeout 0 .east 15) = true := by decide
theorem test_wf_pin : wellFormed (.fcInAssert 0 8) = false ∧ wellFormed (.fcInAssert 0 7) = true := by decide
theorem test_wf_eventPin : wellFormed (.evtPinStatus 0 .a 2 0) = false ∧ wellFormed (.evtPinStatus 0 .a 1 0) = true := by decide
theorem test_wf_port : wellFormed (.uplinkTransmit 0 64) = false ∧ wellFormed (.uplinkTransmit 0 63) = true := by decide
theorem test_wf_slot : wellFormed (.keySlotFault 0 .east 131072 false) = false ∧ wellFormed (.keySlotFault 0 .east 131071 false) = true := by decide
theorem test_wf_vector : wellFormed (.vectorHoldoffEnd 0 .a 32) = false ∧ wellFormed (.vectorHoldoffEnd 0 .a 31) = true := by decide
theorem test_wf_rail : wellFormed (.dipBegin 0 19 700) = false ∧ wellFormed (.dipBegin 0 18 700) = true := by decide
theorem test_wf_agent : wellFormed (.thimbleClaim 0 .a 0 64) = false ∧ wellFormed (.thimbleClaim 0 .a 0 63) = true := by decide
theorem test_wf_thimble : wellFormed (.thimbleTimeout 0 64) = false ∧ wellFormed (.thimbleTimeout 0 63) = true := by decide
theorem test_wf_pool : wellFormed (.cipherPoolNap 0 24) = false ∧ wellFormed (.cipherPoolNap 0 23) = true := by decide
theorem test_wf_lane : wellFormed (.cipherLoadRebalance 0 192 0) = false ∧ wellFormed (.laneLos 0 68) = false ∧ wellFormed (.laneLos 0 67) = true := by decide
theorem test_wf_word : wellFormed (.flush 0 h0 (2 ^ 32)) = false ∧ wellFormed (.flush 0 h0 (2 ^ 32 - 1)) = true := by decide
theorem test_wf_seam : wellFormed (.ack 0 (shAt 4 0) [] true) = false ∧ wellFormed (.ack 0 (shAt 0 (2 ^ 64)) [] true) = false ∧
    wellFormed (.ack 0 (shAt 3 (2 ^ 64 - 1)) [] true) = true := by decide
theorem test_wf_record : wellFormed (.baste 0 h0 { op := 256, kind := 6 }) = false ∧ wellFormed (.baste 0 h0 { op := 1, kind := 256 }) = false ∧
    wellFormed (.baste 0 h0 { op := 1, kind := 6, handle := 2 ^ 32 }) = false ∧ wellFormed (.baste 0 h0 { op := 1, kind := 6, pin := 2 ^ 32 }) = false ∧
    wellFormed (.baste 0 h0 { op := 1, kind := 6, forbid := List.replicate 17 0 }) = false ∧ wellFormed (.baste 0 h0 { op := 1, kind := 6 }) = true := by decide
theorem test_wf_registers : wellFormed (.registerWrite 0 .a (2 ^ 24) 4 0) = false ∧ wellFormed (.bar2StrayWrite 0 .a (2 ^ 28)) = false ∧
    wellFormed (.ringEnable 0 .a .a 0 16) = false ∧ wellFormed (.ringEnable 0 .a .a 0 15) = true := by decide
theorem test_wf_sensor : wellFormed (.thermalWarning 0 .east 16 110) = false ∧ wellFormed (.thermalWarning 0 .east 15 110) = true := by decide
theorem test_wf_reference : wellFormed (.refclkCheck 0 [{ ref := 8 }]) = false ∧ wellFormed (.refclkCheck 0 [{ ref := 7 }]) = true := by decide
theorem test_wf_ploam : wellFormed (.serialNumberOnu 0 8 (2 ^ 96) .r49 0) = false ∧ wellFormed (.keyReport 0 0 8 []) = false ∧
    wellFormed (.sleepRequest 0 0 256) = false := by decide
theorem test_wf_pipeline : wellFormed (.pipelinePass 0 .down 64 [] none .none) = false ∧ wellFormed (.pipelinePass 0 .up 64 [] none .none) = true ∧
    wellFormed (.recirculation 0 .east .up 4) = false ∧ wellFormed (.timedLaunch 0 false 512) = false := by decide
theorem test_wf_services : wellFormed (.omciTimeout 0 0 2) = false ∧ wellFormed (.ppsInEdge 0 4) = false ∧ wellFormed (.rclkResume 0 2) = false ∧
    wellFormed (.laneFence 0 0 12) = false ∧ wellFormed (.twinResyncFailed 0 8) = false ∧ wellFormed (.placementMoveDone 0 64 0) = false := by decide
theorem test_wf_messages : wellFormed (.ranging 0 (shAt 0 1) 0 8 1024 .absent 0 0 none) = false ∧
    wellFormed (.keyContext 0 (shAt 0 1) .east 6 0 0 0 none true) = false ∧ wellFormed (.keyContext 0 (shAt 0 1) .east 0 0 4 0 none true) = false ∧
    wellFormed (.keyContext 0 (shAt 0 1) .east 0 0 0 4 none true) = false ∧ wellFormed (.burstTally 0 (shAt 0 1) [⟨512, true, false⟩] false) = false ∧
    wellFormed (.eventDelivery 0 [(.a, 16, .event, 1)]) = false := by decide
theorem test_wf_values : wellFormed (.timeSet 0 h0 0 (2 ^ 48) 0) = false := by decide
theorem test_wf_key : wellFormed (.matchStep 0 h0 .east true (2 ^ 250 * 2 ^ 250 * 2 ^ 140) 0) = false := by decide +kernel
/-! ### Host ports -/

theorem wit_StepRunsTheFrontCommand : ({ pending := [.debugAccess 5] } : State).pending = .debugAccess 5 :: [] ∧ State.reset.pending = [] := by
  decide +kernel
theorem wit_LightInvariant : lightOnlyWithToken (lit host) ∧ imagesWf (lit host) ∧ (lit host).twin.lasers ≠ [] := by
  refine ⟨fun _ => ?_, ⟨?_, ?_⟩, ?_⟩ <;> decide +kernel
def noSession : State := { host with host := { host.host with rings := [(0, { ring0 with session := none })] } }
theorem wit_SessionsOpenAndClose_open : serves Op.sessionOpen h0 noSession ∧ 63 < 64 ∧ max 0x0102 0x0100 ≤ min 0x0200 0x0102 := by
  decide +kernel
theorem wit_SessionsOpenAndClose_version : serves Op.sessionOpen h0 noSession ∧ 0 < 64 ∧ min 0x0200 0x0102 < max 0x0103 0x0100 := by
  decide +kernel
theorem wit_SessionsOpenAndClose_close :
    serves Op.sessionClose h0 host ∧ (ringOf host h0.port h0.ring).session = some se0 := by decide +kernel
theorem wit_HostRingsAttachAndDetach_delivery :
    serves Op.hostRings h0 host ∧ (ringOf host h0.port h0.ring).session = some se0 := by decide +kernel
/-- Another ring of the port has an event ring. -/
def twoEvents : State :=
  { host with host := { host.host with rings :=
      [(0, ring0), (1, { session := some { id := 8, agent := 4, version := 0x0102, eventRing := some ⟨0, 64, 0xFFFF, 1, 0, 0, [], 0, 0, 0⟩ } })] } }
theorem wit_HostRingsAttachAndDetach_event :
    serves Op.hostRings h0 twoEvents ∧ (ringOf twoEvents h0.port h0.ring).session = some se0 ∧ pow2In 65536 64 65536 = true ∧
    pow2In 64 64 65536 = true ∧ 0xFFFF ≤ 65535 ∧ ringsWith twoEvents h0.port .event ≠ [] := by decide +kernel
theorem wit_HostRingsAttachAndDetach_punt :
    serves Op.hostRings h0 host ∧ (ringOf host h0.port h0.ring).session = some se0 ∧ (puntOf host h0.port).pool = none ∧
    1 ≤ 65535 ∧ 65535 ≤ 65535 := by decide +kernel
def punted : State :=
  { host with host := { host.host with rings := [(0, { ring0 with session := some { se0 with punt := true } })]
                                       puntA := { pool := some (0x1000, 4), fifo := [puntItem 2 64], out := [1] } } }
theorem wit_HostRingsAttachAndDetach_detach :
    serves Op.hostRings h0 punted ∧ (ringOf punted h0.port h0.ring).session = some { se0 with punt := true } := by decide +kernel

/-- Thimble 0 is owned by agent 3 on port A, with a limit of 100 µs; Thimble 1 is free. -/
def claimed : State :=
  { host with now := 200000001, host := { host.host with
      thimbles := [(0, { owner := some (.a, 3), waits := 0, since := 100000000, inForce := 1 })]
      locks := [(5, { owner := some (.a, 3), since := 100000000, inForce := 1 })] } }
theorem wit_ThimblesServeTheirClaims_claim : linkOf claimed .b = true ∧ (thimbleOf claimed 1).owner = none := by decide +kernel
theorem wit_ThimblesServeTheirClaims_again : linkOf claimed .a = true ∧ (thimbleOf claimed 0).owner = some (.a, 3) := by decide +kernel
theorem wit_ThimblesServeTheirClaims_refused :
    linkOf claimed .b = true ∧ (thimbleOf claimed 0).owner = some (.a, 3) ∧ (PortId.a, 3) ≠ (.b, 7) := by decide +kernel
theorem wit_ThimblesServeTheirClaims_ignored :
    linkOf claimed .b = true ∧ (thimbleOf claimed 0).owner ≠ some (.b, 3) ∧ ctrVal claimed 0 0 Cn.ignoredWrites + 1 < 2 ^ 48 := by
  decide +kernel
theorem wit_ThimblesServeTheirClaims_timeout :
    (thimbleOf claimed 0).owner = some (.a, 3) ∧ (thimbleOf claimed 0).inForce ≠ 0 ∧
    (thimbleOf claimed 0).since + Time.us (100 * (thimbleOf claimed 0).inForce) < claimed.now + 0 := by decide +kernel
/-- Table 14.10: agent 3's claim on port A reads 0x0000_020D, agent 7's on port B 0x0001_020C. -/
theorem test_thimble_words :
    after (exec (.thimbleClaim 0 .a 1 3) claimed) (fun t => t.out == [.read 0x0000020D]) = true ∧
    after (exec (.thimbleClaim 0 .b 0 7) claimed) (fun t => t.out == [.read 0x0001020C]) = true := by decide +kernel
theorem wit_BankLocks_claim : claimed.pwr.ready = true ∧ linkOf claimed .b = true ∧ (lockOf claimed .west 9).owner = none ∧ 63 < 64 := by
  decide +kernel
theorem wit_BankLocks_release :
    claimed.pwr.ready = true ∧ linkOf claimed .a = true ∧ (lockOf claimed .east 5).owner = some (.a, 3) ∧ 3 < 64 ∧
    ringsWaiting claimed waitsForBank = [] := by decide +kernel
theorem wit_BankLocks_timeout :
    (lockOf claimed .east 5).owner = some (.a, 3) ∧ (lockOf claimed .east 5).inForce ≠ 0 ∧
    (lockOf claimed .east 5).since + Time.us (100 * (lockOf claimed .east 5).inForce) < claimed.now + 0 ∧
    ringsWaiting claimed waitsForBank = [] := by decide +kernel
/-- R457: 0x0000_000D written to the lock of West bank 9 sets HELD with agent 3. -/
theorem test_lock_word :
    after (exec (.registerWrite 0 .b 0x400024 4 0x0000000D) claimed)
      (fun t => fmtLockWord (lockOf t .west 9) == 0x0064010D) = true := by decide +kernel

/-! ### Registers and windows -/

theorem wit_RingRegisters_enable :
    linkOf host .a = true ∧ ringAligned (ringOf host .a 1) = true ∧ (ringOf host .a 1).enable = false ∧
    (ringOf host .a 1).running = none ∧ 4 ≤ 4 ∧ 12 ≤ 12 := by decide +kernel
def skewed : State := { host with host := { host.host with rings := [(1, { rplBaseLo := 4 })] } }
theorem wit_RingRegisters_misaligned :
    linkOf skewed .a = true ∧ ringAligned (ringOf skewed .a 1) = false ∧ 4 = (ringOf skewed .a 1).log2 := by decide +kernel
theorem wit_RingRegisters_submit :
    linkOf host .a = true ∧ host.pwr.ready = true ∧
    (BitVec.ofNat 16 (16 : Word).toNat - (ringOf host .a 0).rplCons).toNat ≤ ringEntries (ringOf host .a 0) := by decide +kernel
theorem wit_RingRegisters_overrun :
    linkOf host .a = true ∧ host.pwr.ready = true ∧ (ringOf host .a 0).enable = true ∧
    ringEntries (ringOf host .a 0) < (BitVec.ofNat 16 (17 : Word).toNat - (ringOf host .a 0).rplCons).toNat := by decide +kernel
def notReady : State := { host with pwr := { ready with ready := false, stage := 4 } }
theorem wit_RingRegisters_notReady :
    linkOf notReady .a = true ∧ notReady.pwr.ready = false ∧ ctrVal notReady 0 0 Cn.ignoredWrites + 1 < 2 ^ 48 := by decide +kernel
def oneReply : State :=
  { host with host := { host.host with rings := [(0, { ring0 with rplProd := 1, replies := [⟨1, 0, 0, 7, 1, 0, []⟩] })] } }
theorem wit_RingRegisters_consume :
    linkOf oneReply .a = true ∧
    (BitVec.ofNat 16 (1 : Word).toNat - (ringOf oneReply .a 0).rplCons).toNat
      ≤ ((ringOf oneReply .a 0).rplProd - (ringOf oneReply .a 0).rplCons).toNat ∧
    ((ringOf oneReply .a 0).rplProd - (ringOf oneReply .a 0).rplCons).toNat ≤ ringEntries (ringOf oneReply .a 0) := by decide +kernel
theorem wit_RingRegisters_other : linkOf host .b = true ∧ PortId.b ≠ .a ∧ ctrVal host 0 0 Cn.ignoredWrites + 1 < 2 ^ 48 := by
  decide +kernel
theorem wit_PuntedFrames_read :
    linkOf punted .a = true ∧ punted.pwr.ready = true ∧ (puntOf punted .a).fifo = puntItem 2 64 :: [] := by decide +kernel
theorem wit_PuntedFrames_idle : linkOf punted .b = true ∧ punted.pwr.ready = true ∧ PortId.b ≠ .a := by decide +kernel
theorem wit_PuntedFrames_return :
    linkOf punted .a = true ∧ punted.pwr.ready = true ∧ (puntOf punted .a).pool ≠ none ∧
    (1 : BitVec 16).toNat ∈ (puntOf punted .a).out := by decide +kernel
theorem wit_PuntedFrames_ignored :
    linkOf punted .a = true ∧ (2 : BitVec 16).toNat ∉ (puntOf punted .a).out ∧ ctrVal punted 0 0 Cn.ignoredWrites + 1 < 2 ^ 48 := by
  decide +kernel
theorem wit_RegisterWrites_word : linkOf host .a = true ∧ 63 < 64 ∧ (1000 : Word).toNat % 1024 ≤ 1000 := by decide +kernel
theorem wit_RegisterWrites_base :
    linkOf host .a = true ∧ 15 < 16 ∧ (ringOf host .a 15).enable = false ∧ (ringOf host .a 15).running = none := by decide +kernel
theorem wit_RegisterWrites_ignored :
    linkOf host .a = true ∧ 9 ≤ 0x480000 / 0x80000 ∧ 2 ≠ 4 ∧ 0x300011 % 4 ≠ 0 ∧ ctrVal host 0 0 Cn.ignoredWrites + 1 < 2 ^ 48 := by
  decide +kernel
/-- A dynamic entry to a subscriber's port at bank 1, index 0 of East, whose bank port A has locked. -/
def dmaState : State :=
  { host with
    host := { host.host with locks := [(1, { owner := some (.a, 3) })] }
    stitch := { cfg := [(objKey Kind.subport 4, { kind := Kind.subport, num := 4 })] }
    tab := { fmtE := [{ mac := 9, vid := 1, tenant := 2, dtype := 1, dvalue := 4, bank := 1, index := 0 }] } }
def dmaDelete : List Byte :=
  leBytes 16 (fmtEntryBits { mac := 9, vid := 1, tenant := 2, dtype := 1, dvalue := 4 } - 2 ^ 127)
theorem wit_WindowWrites_dma :
    linkOf dmaState .a = true ∧ 0x40000 % 16 = 0 ∧ 0x40000 < 0x400000 ∧ dmaDelete.length = 16 ∧
    dmaEntry dmaState .a .east 0x40000 (leNat (sliceBytes dmaDelete 0 16)) =
      some ({ mac := 9, vid := 1, tenant := 2, dtype := 1, dvalue := 4, bank := 1, index := 0 }, none) := by decide +kernel
theorem wit_WindowWrites_reject :
    linkOf dmaState .a = true ∧ 0x3FFFF0 % 16 = 0 ∧ 0x3FFFF0 < 0x400000 ∧ dmaDelete.length = 16 ∧
    entryAt dmaState .west 0x3FFFF0 = none ∧ ctrVal dmaState 3 (64 * dieNum .west) Cn.dmaReject + 1 < 2 ^ 48 := by decide +kernel
/-- Image 31 of 8 bytes is open on West. -/
def imaging : State :=
  { host with host := { host.host with imagesW := { opened := some (31, 8, .a), images := [(2, (4, 0))], offset := 0, mem := [(imageAddr 31 1, 5)] } } }
theorem wit_WindowWrites_image :
    linkOf imaging .a = true ∧ (imagesOf imaging .west).opened = some (31, 8, .a) ∧ 4 % 4 = 0 ∧ 4 < mib 64 ∧
    [(1 : Byte), 2, 3, 0].length % 4 = 0 ∧ 4 + [(1 : Byte), 2, 3, 0].length ≤ mib 64 ∧
    (imagesOf imaging .west).offset + 4 + [(1 : Byte), 2, 3, 0].length ≤ 8 := by decide +kernel
theorem wit_WindowWrites_stray :
    linkOf host .a = true ∧ fmtWindow? 0x8400000 = none ∧ imageWindow? 0x8400000 = none ∧ ctrVal host 0 0 Cn.strayWrites + 1 < 2 ^ 48 := by
  decide +kernel
theorem wit_Images_open :
    serves Op.imageOpen h0 imaging ∧ 31 < 32 ∧ mib 256 ≤ mib 256 ∧ (imagesOf imaging .east).opened = none ∧
    imageInUse imaging .east 31 = false ∧
    storeBytes { imagesOf imaging .east with images := (imagesOf imaging .east).images.del 31 } + mib 256 ≤ mib 1024 := by decide +kernel
theorem wit_Images_busy : serves Op.imageOpen h0 imaging ∧ 3 < 32 ∧ 8 ≤ mib 256 ∧ (imagesOf imaging .west).opened ≠ none := by
  decide +kernel
theorem wit_Images_window : serves Op.imageWindow h0 imaging ∧ 3 < 4 ∧ (imagesOf imaging .west).opened ≠ none := by decide +kernel
theorem wit_Images_close : serves Op.imageClose h0 imaging ∧ (imagesOf imaging .west).opened = some (31, 8, .a) := by decide +kernel
theorem wit_Images_delete :
    serves Op.imageDelete h0 imaging ∧ (imagesOf imaging .west).images.find? 2 ≠ none ∧ imageInUse imaging .west 2 = false := by
  decide +kernel
theorem wit_HostPortLinks : notReady.pwr.inReset = false ∧ linkOf host .b = true := by decide +kernel

/-! ### Staging, stitches, queries and table commands -/

/-- A terminal object of tree 4 and a policer of tenant 2 on East are configured, and one record is staged. -/
def staged : State :=
  { host with stitch := {
      cfg := [(objKey Kind.terminal 0, { kind := Kind.terminal, num := 0, fields := [(Fld.trmSerial, 77), (Fld.trmTree, 4)] }),
              (objKey Kind.policer 9, { kind := Kind.policer, num := 9, fields := [(Fld.poTenant, 2)] })]
      staging := [⟨{ op := 2, kind := Kind.policer, handle := 9, fields := [(Fld.poCir, 800)] }, 9, none, 0, [(Fld.poCir, 800)]⟩]
      nextIndex := 1 } }
def hBaste : Hdr := { h0 with stitch := 1 }
def recDelete : BasteRec := { op := 3, kind := Kind.policer, handle := 9 }
def recModify : BasteRec := { op := 2, kind := Kind.policer, handle := 9, fields := [(Fld.poCir, 1600)] }
def recCreate : BasteRec := { op := 1, kind := Kind.flow, fields := [(Fld.flTerm, 0), (Fld.flTenant, 2)] }
theorem wit_Bastes_delete :
    serves Op.baste hBaste staged ∧ hBaste.stitch = stagingNumber staged ∧ staged.stitch.staging.length < 65536 ∧
    recForm recDelete = true ∧ recDelete.op = 3 ∧ (stagedCfg staged).has recDelete.kind recDelete.handle = true ∧
    recDelete.kind ≠ Kind.queue ∧ recDelete.kind ≠ Kind.subport := by decide +kernel
theorem wit_Bastes_modify :
    serves Op.baste hBaste staged ∧ hBaste.stitch = stagingNumber staged ∧ staged.stitch.staging.length < 65536 ∧
    recForm recModify = true ∧ recModify.op = 2 ∧ (stagedCfg staged).has recModify.kind recModify.handle = true ∧
    objectStatus staged (trialCfg staged recModify recModify.handle none) recModify recModify.handle = St.ok := by decide +kernel
/-- The first flow takes handle 0 and XGEM Port-ID 1021. -/
theorem wit_Bastes_create :
    serves Op.baste hBaste staged ∧ hBaste.stitch = stagingNumber staged ∧ staged.stitch.staging.length < 65536 ∧
    recForm recCreate = true ∧ recCreate.op = 1 ∧ (issueNum recCreate staged).map (·.1) = some 0 ∧
    (stagedCfg staged).has recCreate.kind 0 = false ∧
    chosenFor staged (trialCfg staged recCreate 0 none) 0 recCreate = some 1021 ∧
    objectStatus staged (trialCfg staged recCreate 0 (some 1021)) recCreate 0 = St.ok := by decide +kernel
theorem wit_Bastes_stale : serves Op.baste h0 staged ∧ h0.stitch ≠ stagingNumber staged := by decide +kernel
/-- A staging set of 65,536 records. -/
def full : State :=
  { host with stitch := { staging := List.replicate 65536 ⟨recDelete, 9, none, 0, []⟩ } }
theorem wit_Bastes_full : serves Op.baste hBaste full ∧ hBaste.stitch = stagingNumber full ∧ 65536 ≤ full.stitch.staging.length := by
  refine ⟨by decide +kernel, by decide +kernel, ?_⟩
  exact Nat.le_of_eq List.length_replicate.symm
theorem wit_Stitch_discard : serves Op.discard h0 staged := by decide +kernel
theorem wit_Stitch_accept :
    serves Op.stitch hBaste staged ∧ hBaste.stitch = stagingNumber staged ∧ staged.stitch.pend.length < 2 ∧
    profileBusy staged staged.stitch.staging = false ∧
    firstCharge (refCharges staged (stagedCfg staged) staged.stitch.staging ++ limitCharges staged staged.stitch.staging) = none := by
  decide +kernel
/-- The staged record creates a flow of a terminal that does not exist. -/
def badSet : State :=
  { host with stitch := { staging := [⟨{ recCreate with fields := [(Fld.flTerm, 5), (Fld.flTenant, 2)] }, 0, some 1021, 0,
      [(Fld.flTerm, 5), (Fld.flTenant, 2)]⟩], nextIndex := 1 } }
theorem wit_Stitch_fails :
    serves Op.stitch hBaste badSet ∧ hBaste.stitch = stagingNumber badSet ∧ badSet.stitch.pend.length < 2 ∧
    profileBusy badSet badSet.stitch.staging = false ∧
    firstCharge (refCharges badSet (stagedCfg badSet) badSet.stitch.staging ++ limitCharges badSet badSet.stitch.staging)
      = some (0, St.validation) := by decide +kernel
def twoPending : State :=
  { host with stitch := { pend := [{ number := 1, recs := [], b1 := 0, b2 := 125000000 }, { number := 2, recs := [], b1 := 375000000, b2 := 500000000 }] } }
theorem wit_Stitch_third :
    serves Op.stitch { h0 with stitch := 3 } twoPending ∧ (3 : StitchNo) = stagingNumber twoPending ∧ 2 ≤ twoPending.stitch.pend.length := by
  decide +kernel
theorem wit_Queries : serves Op.query h0 host ∧ 512 ≤ 512 ∧ 67 < 68 ∧ (laneOf host 67).los = false ∧ (laneOf host 67).lol = false := by
  decide +kernel
def dark67 : State := { host with lane := { lanes := [(67, { los := true })] } }
theorem wit_Queries_laneDown : serves Op.query h0 dark67 ∧ 67 < 68 ∧ (laneOf dark67 67).los = true := by decide +kernel
theorem wit_Queries_fmt :
    serves Op.query h0 dmaState ∧
    fmtFind dmaState .east 2 1 9 = some { mac := 9, vid := 1, tenant := 2, dtype := 1, dvalue := 4, bank := 1, index := 0 } := by
  decide +kernel
def oneRow : State :=
  { host with stitch := { cfg := [(objKey Kind.row 3, { kind := Kind.row, num := 3 })] }
              tab := { rows := [(rowKey 3 false, { phys := 40, hits := 6, multi := true })] } }
theorem wit_Queries_row : serves Op.query h0 oneRow ∧ rowResult? oneRow (65536 * dieNum .east + 3) = some [40, 1, 6] := by
  decide +kernel
theorem wit_Fmt_insert :
    serves Op.fmtInsert h0 host ∧ 63 < 64 ∧ 4095 < 4096 ∧ 2 ^ 48 - 1 < 2 ^ 48 ∧ destStatus host 63 4 0 = St.ok ∧
    fmtFind host .west 63 4095 (2 ^ 48 - 1) = none ∧ tableUse host .west 63 < quotaOf host .west 63 1 ∧
    banksFor host .west 63 (fmtKey 63 4095 (2 ^ 48 - 1)) ≠ [] := by decide +kernel
theorem wit_Fmt_insert_unlocked (b : Nat) : (lockOf host .west b).owner = none := rfl
def dynEntry : FmtEntry := { mac := 9, vid := 1, tenant := 2, dtype := 1, dvalue := 4, bank := 1, index := 0 }
theorem wit_Fmt_rewrite :
    serves Op.fmtInsert h0 { dmaState with host := host.host } ∧ 2 < 64 ∧ 1 < 4096 ∧ 9 < 2 ^ 48 ∧ destStatus dmaState 2 4 0 = St.ok ∧
    fmtFind dmaState .east 2 1 9 = some dynEntry ∧ dynEntry.isStatic = false ∧
    (lockOf { dmaState with host := host.host } .east dynEntry.bank).owner = none := by decide +kernel
theorem wit_Fmt_deferred :
    serves Op.fmtDelete h0 dmaState ∧ fmtFind dmaState .east 2 1 9 = some dynEntry ∧ dynEntry.isStatic = false ∧
    (lockOf dmaState .east dynEntry.bank).owner ≠ none := by decide +kernel
theorem wit_Fmt_handle : serves Op.fmtDelete h0 dmaState ∧ fmtFind dmaState .west 2 1 9 = none := by decide +kernel
theorem wit_Fmt_step : serves Op.matchStep h0 host ∧ 2 ^ 640 - 1 < 2 ^ 640 ∧ 2 ^ 320 - 1 < 2 ^ 320 := by decide +kernel
def counted : State := { host with ctr := { counters := [(ctrKey 7 3 4, { value := 9 }), (ctrKey 8 3 4, { value := 5 })] } }
theorem wit_Counters :
    serves Op.counterRead h0 counted ∧ serves Op.counterClear h0 counted ∧ serves Op.userReadGrant h0 counted ∧ 11 < 12 := by
  decide +kernel
/-- Ring A0 runs a delete that waits for a bank's lock; ring A1 has an ABORT at its head. -/
def aborting : State :=
  { host with now := 20000000000, host := { host.host with rings :=
      [(0, { ring0 with cmdCons := 1, running := some ⟨Op.fmtDelete, 77, 7, false, 0, 10000000000, .fmtDelete .east 1 2 3, false⟩ }),
       (1, { ring0 with session := some { se0 with id := 8 } })] } }
def abortOne : AbortEntry := { port := .a, ring := 1, idx := 0, seq := 5, session := 8, target := .command .a 0 77 }
theorem wit_Abort_gone :
    abortVisible aborting { abortOne with target := .command .a 0 78 } = true ∧ abortRoom aborting abortOne = true ∧
    gateStatus Op.abort (abortHdr abortOne) aborting = none ∧ (ringOf aborting .a 0).running.map (·.seq) = some 77 ∧ (77 : Word) ≠ 78 ∧
    mirrors aborting = false := by decide +kernel
theorem wit_Abort_target :
    abortVisible aborting abortOne = true ∧ abortRoom aborting abortOne = true ∧
    gateStatus Op.abort (abortHdr abortOne) aborting = none ∧
    (ringOf aborting .a 0).running = some ⟨Op.fmtDelete, 77, 7, false, 0, 10000000000, .fmtDelete .east 1 2 3, false⟩ ∧
    linkOf aborting .a = true ∧ (abortOne.port, abortOne.ring) ≠ (PortId.a, 0) ∧ 1 < 16 ∧ 0 < 16 ∧ mirrors aborting = false := by
  decide +kernel
theorem wit_Abort_scan : aborting.host.lastScan + Time.us 2 ≤ aborting.now + 0 := by decide +kernel
theorem wit_Abort_expired :
    (ringOf aborting .a 0).running = some ⟨Op.fmtDelete, 77, 7, false, 0, 10000000000, .fmtDelete .east 1 2 3, false⟩ ∧
    0 + 10000000000 ≤ aborting.now + 0 ∧ linkOf aborting .a = true := by decide +kernel


/-- Table 15.2 and R382: the arguments of SUPPLY_DIP are aligned to their widths. -/
theorem test_schema_event : schemaAnswer 0xFF 1 = some [0, 1, 2, 2, 8, 8, 16, 1, 17, 1] ∧ schemaAnswer 0xFF 4 = none := by decide +kernel
/-! ### Power, supplies and resets -/

/-- The holder with an ACTIVE and a DRAINING channel, a LOCKED base, and two dips in the last second. -/
def holder : State :=
  { lit host with now := 3000000000000
                  pon := { host.pon with gridOn := true, channels := [(3, { st := .active }), (4, { st := .draining }), (200, { st := .active })] }
                  time := { bases := [(0, { st := .locked, refVal := 500 }), (1, { st := .freeRun })], stampClock := true }
                  pwr := { ready with dips := [2500000000000, 2600000000000], bridgeUp := true } }
theorem wit_ResetsOfTheDevice_assert : Time.us 1 ≤ 1000000 ∧ 999999 < Time.us 1 := by decide +kernel
theorem wit_ResetsOfTheDevice_running : holder.pwr.inReset = false := by decide +kernel
theorem wit_ResetsOfTheDevice_power : State.reset.pwr.inReset = true ∧ State.reset.pwr.resetBy = 0 := by decide +kernel
def hotReset : State := { holder with pwr := { inReset := true, resetBy := 2 } }
def lowReset : State := { holder with pwr := { inReset := true, resetBy := 1 } }
theorem wit_ResetsOfTheDevice_ends :
    lowReset.pwr.inReset = true ∧ lowReset.pwr.resetBy = 1 ∧ hotReset.pwr.inReset = true ∧ hotReset.pwr.resetBy = 2 := by decide +kernel
def starting (n : Nat) : State := { pwr := { inReset := false, stage := n } }
theorem wit_StartupRunsItsPhases (n : Nat) :
    (starting n).pwr.inReset = false ∧ (starting n).pwr.ready = false ∧ (starting n).pwr.fail = 0 ∧ (starting n).pwr.stage = n :=
  ⟨rfl, rfl, rfl, rfl⟩
theorem wit_StartupRunsItsPhases_stages :
    (starting 0).pwr.stage < 3 ∧ (starting 2).pwr.stage < 3 ∧ (starting 3).pwr.stage < 4 := by decide +kernel
theorem wit_SupplyDips_begin : holder.pwr.inReset = false ∧ (railOf holder 3).dipSince = none := by decide +kernel
def dipping : State :=
  { holder with pwr := { holder.pwr with rails := [(3, { dipSince := some 0 }), (4, { marginSince := some 2998000000000 })] } }
theorem wit_SupplyDips_end : (railOf dipping 3).dipSince ≠ none := by decide +kernel
theorem wit_SupplyDips_margin :
    (railOf dipping 4).marginSince = some 2998000000000 ∧ 2998000000000 + Time.ms 2 ≤ dipping.now + 0 := by decide +kernel
theorem wit_FatalFindings :
    holder.pwr.ready = true ∧ holder.pwr.bridgeUp = true ∧ deepFaulted holder .east = false ∧ holder.twin.held = true := by decide +kernel
theorem wit_ThermalWarnings : 110 ≤ 110 ∧ ({ holder with pwr := { ready with thermalHigh := true } } : State).pwr.thermalHigh = true ∧
    holder.pwr.thermalHigh = false := by decide +kernel
def badRef (n : Nat) : RefReading := { ref := n, present := false, ppm := 0, ppbVsGrid := 0 }
def goodRef (n : Nat) : RefReading := { ref := n, present := true, ppm := 200, ppbVsGrid := 1000 }
theorem wit_References_fault :
    readsFaulted (badRef 0) = true ∧ refFaulted holder (badRef 0).ref = false ∧ readsFaulted (badRef 4) = true ∧
    refFaulted holder (badRef 4).ref = false ∧ 4 ≤ holder.pwr.stage := by decide +kernel
def refLost : State := { holder with pwr := { holder.pwr with refFault := [(4, true)], passWanted := true } }
theorem wit_References_back : readsFaulted (goodRef 4) = false ∧ refFaulted refLost (goodRef 4).ref = true := by decide +kernel
theorem wit_Passes_start :
    refLost.pwr.ready = true ∧ refLost.pwr.passSince = none ∧ refLost.pwr.passWanted = true ∧ passBlocked refLost = false := by
  decide +kernel
def passing : State := { holder with pwr := { holder.pwr with passSince := some 5, rails := [(0, { marginFlag := true })] } }
theorem wit_Passes_end : passing.pwr.passSince ≠ none := by decide +kernel
/-- Pools 0 and 1 of East rest in NAP, pool 2 wakes; the other pools of East run and pool 7 is a spare. -/
def resting : State :=
  { holder with now := 70000000000000
                pon := { holder.pon with channels := [(3, { readyAt := 5 })], bobbins := [(9, { wakeDue := some 5 })] }
                ciph := { pools := [(0, { st := .nap }), (1, { st := .nap }), (2, { waking := some (.run, 7) }),
                                    (7, { spareSince := some 5 })] } }
theorem wit_Pools_sleep :
    (cpoolOf resting 0).st = .nap ∧ (cpoolOf resting 0).waking = none ∧ (cpoolOf resting 0).napSince + Time.sec 60 ≤ resting.now + 0 ∧
    2 ≤ (restingIn resting (poolDie 0) .nap).length := by decide +kernel
theorem wit_Pools_awake :
    (cpoolOf resting 2).waking = some (.run, 7) ∧ 7 ≤ resting.now + 0 ∧ (chOf resting 3).readyAt ≤ resting.now + 0 ∧
    (bobOf resting 9).wakeDue = some 5 ∧ 5 ≤ resting.now + 0 := by decide +kernel
theorem wit_Pools_nap :
    (cpoolOf resting 7).spareSince = some 5 ∧ 5 + Time.sec 1 ≤ resting.now + 0 ∧ spareable resting 7 = true ∧
    poolEmptiable resting 7 = true := by decide +kernel
/-! ### Events and the Rake -/

def rec1 : EvRec := { num := 0x21, clear := false, die := .west, token := true, suppressed := 0, time := 9, stitch := 0, args := [] }
/-- Port A's ring 0 has an event ring; one record is held. -/
def eventful (prod : Nat) : State :=
  { host with
    host := { host.host with rings := [(0, { ring0 with session := some { se0 with
      eventRing := some { addr := 0, entries := 64, mask := 0xFFFF, prod := prod, nextSeq := prod + 3, lost := 2,
                          lostPending := if prod < 64 then 0 else 2, firstLost := 65,
                          recs := List.replicate prod (1, rec1) } } })] }
    ev := { held := [rec1] } }
theorem wit_EventRecords_room : ∃ se e,
    (eventful 63).ev.held = [rec1] ∧ ringsWith (eventful 63) .a .event = [0] ∧ ringsWith (eventful 63) .b .event = [] ∧
    (ringOf (eventful 63) .a 0).session = some se ∧ se.eventRing = some e ∧ maskTakes e.mask rec1.num = true ∧
    e.lostPending = 0 ∧ evRoom e = true :=
  ⟨_, _, rfl, by decide +kernel, by decide +kernel, rfl, rfl, by decide +kernel, rfl, by decide +kernel⟩
theorem wit_EventRecords_full : ∃ se e,
    (eventful 64).ev.held = [rec1] ∧ ringsWith (eventful 64) .a .event = [0] ∧ ringsWith (eventful 64) .b .event = [] ∧
    (ringOf (eventful 64) .a 0).session = some se ∧ se.eventRing = some e ∧ maskTakes e.mask rec1.num = true ∧
    evRoom e = false ∧ e.lostPending ≠ 0 ∧ e.cons < e.prod ∧ 1 ≤ 1 :=
  ⟨_, _, rfl, by decide +kernel, by decide +kernel, rfl, rfl, by decide +kernel, by decide +kernel, by decide +kernel, by decide +kernel, by decide⟩
def unattached : State := { host with ev := { held := [rec1] } }
theorem wit_EventRecords_kept :
    ringsWith unattached .a .event = [] ∧ ringsWith unattached .b .event = [] ∧
    (unattached.ev.kept.getD (keptKey .b .west) []).length ≤ 1024 := by decide +kernel
def holding : State :=
  { host with ev := { vectors := [(vecKey .b 17, { holdEnd := 0, advanced := true })] }
              pon := { gridOn := true, sf := 16 } }
theorem wit_Vectors :
    (holding.ev.vectors.getD (vecKey .b 17) {}).holdEnd ≤ holding.now + 0 ∧ (holding.ev.vectors.getD (vecKey .b 17) {}).advanced = true := by
  decide +kernel
theorem wit_Rake_due :
    holding.pon.gridOn = true ∧ holding.pon.sf.toNat % 8 = 0 ∧ holding.ctr.latched = none ∧
    (holding.ctr.snapshot.number = 0 ∨ holding.ctr.snapshot.sf ≠ holding.pon.sf) := by decide +kernel
def gathering : State := { holding with ctr := { latched := some { number := 4, sf := 8 } } }
theorem wit_Rake_late :
    gathering.pon.gridOn = true ∧ gathering.pon.sf.toNat % 8 = 0 ∧ gathering.ctr.latched = some { number := 4, sf := 8 } ∧
    (8 : SF) ≠ gathering.pon.sf := by decide +kernel
/-! ### Lanes -/

def cfgPorts : Cfg :=
  [(objKey Kind.subport 0, { kind := Kind.subport, num := 0, fields := [(Fld.spRate, 100), (Fld.spEnable, 1), (Fld.spIface, 1)] }),
   (objKey Kind.subport 8, { kind := Kind.subport, num := 8, fields := [(Fld.spRate, 100), (Fld.spEnable, 0)] }),
   (objKey Kind.rclk 1, { kind := Kind.rclk, num := 1, fields := [(Fld.rcLane, 0)] })]
/-- Sub-port 0 is up on lane 0 under CR, sub-port 8 stands disabled, Seam lane 67 is the only one up and carries the Seam. -/
def wired : State :=
  { host with
    now := 3000000000000
    stitch := { cfg := cfgPorts }
    twin := { paired := true, seamUp := true }
    lane := { lanes := [(0, { up := true, snap := [4], work := [5] }), (1, { test := some ⟨0, .none⟩, los := true, snap := [4] }),
                        (67, { up := true, snap := [1] })]
              subports := [(0, { up := true, aligned := true })] } }
theorem wit_Tests_start : serves Op.laneTestStart h0 wired ∧ testLane 579 = true ∧ 3 < patterns 579 ∧ injectOk (.burst 255) = true ∧
    testAllowed wired 579 = true ∧ testAllowed wired 8 = true ∧ testAllowed wired 0 = false := by decide +kernel
theorem wit_Tests_seam : serves Op.seamTestStart h0 wired ∧ 3 < 4 ∧ 10 < patterns (64 + 3) ∧ injectOk (.rate 12) = true ∧
    wired.twin.role = .solo := by decide +kernel
theorem wit_Tests_stop : serves Op.laneTestStop h0 wired ∧ testLane 1 = true ∧ (laneOf wired 1).test ≠ none := by decide +kernel
def seamTested : State := { wired with lane := { lanes := [(67, { test := some ⟨10, .once⟩ })] } }
theorem wit_Tests_seamStop : serves Op.seamTestStop h0 seamTested ∧ 3 < 4 ∧ (laneOf seamTested (64 + 3)).test ≠ none := by decide +kernel
theorem wit_Tests_inject : serves Op.laneInject h0 wired ∧ (cfgOf wired).has Kind.subport 0 = true ∧ (12 = 0 ∨ (4 ≤ 12 ∧ 12 ≤ 12)) ∧
    (subportOf wired 0).up = true ∧ (cfgOf wired).has Kind.subport 8 = true := by decide +kernel
theorem wit_Detectors : (laneOf wired 0).los = false ∧ (laneOf wired 67).lol = false ∧ laneSubport? wired 0 = some 0 ∧ rclkOf wired 0 = [1] := by
  decide +kernel
theorem wit_Detectors_clear : (laneOf wired 1).los = true := by decide +kernel
def unlocked : State := { wired with lane := { lanes := [(0, { lol := true, snap := [4] })] } }
theorem wit_Detectors_lock : (laneOf unlocked 0).lol = true ∧ laneRefFault unlocked 0 = false := by decide +kernel
def portDown : State := { wired with lane := { wired.lane with subports := [] } }
theorem wit_Detectors_up : subportOn portDown 0 = true ∧ (subportOf portDown 0).up = false ∧
    ∀ l, l ∈ subportLanes (cfgOf portDown) 0 → laneCarries (tick 5 portDown) l = true := by decide +kernel
theorem wit_Detectors_pcs : (subportOf wired 0).up = true := by decide +kernel
/-- Seam lane 66 trains, with the tap c(1) at its lowest. -/
def trainingState : State :=
  { host with now := 600000000000, lane := { lanes := [(66, { training := true, readySeen := 3, taps := [0, 0, 0, -10] })] } }
theorem wit_Training_frame : isSeamLane 66 = true ∧ (laneOf trainingState 66).training = true := by decide +kernel
theorem wit_Training_done :
    (laneOf trainingState 66).training = true ∧ (laneOf trainingState 66).los = false ∧ (laneOf trainingState 66).lol = false ∧
    laneRefFault trainingState 66 = false ∧ (isSeamLane 66 = false ∨ 3 ≤ (laneOf trainingState 66).readySeen) := by decide +kernel
theorem wit_Training_fail :
    (laneOf trainingState 66).training = true ∧ (laneOf trainingState 66).trainSince + Time.ms 500 ≤ trainingState.now + 0 := by decide +kernel
def failed66 : State := { trainingState with lane := { lanes := [(66, { failedAt := some 500000000000, start := [7] })] } }
theorem wit_Training_retrain :
    trains failed66 66 = true ∧ (laneOf failed66 66).training = false ∧ retrainDue (tick 0 failed66) (laneOf failed66 66) = true := by
  decide +kernel
/-- Table 13.7: a decrement of c(1) below −0.20 is answered "at limit" for tap 4. -/
theorem test_tap_at_limit :
    after (exec (.trainingFrame 0 66 0x0050 0 (trainCrc 0x0050 0)) trainingState)
      (fun t => t.out == [.trainStatus 66 0x0014] && (laneOf t 66).taps == [0, 0, 0, -10]) = true := by decide +kernel
/-- Table 13.7: preset 2 sets c(−1) to −0.10. -/
theorem test_preset_two :
    after (exec (.trainingFrame 0 66 0x0002 0 (trainCrc 0x0002 0)) trainingState)
      (fun t => t.out == [.trainStatus 66 0x0028] && (laneOf t 66).taps == [0, 0, -5, 0]) = true := by decide +kernel
theorem wit_Intervals_above : laneCarries (tick 0 wired) 0 = true ∧ (laneOf wired 0).degraded = false ∧ aboveDegrade wired 0 2 100000 = true := by
  decide +kernel
def degradedState (n : Nat) : State := { wired with lane := { wired.lane with lanes := [(0, { up := true, degraded := true, degRun := n })] } }
theorem wit_Intervals_below :
    laneCarries (tick 0 (degradedState 2)) 0 = true ∧ (laneOf (degradedState 2) 0).degraded = true ∧
    aboveDegrade (degradedState 2) 0 1 100000 = false ∧ ctrVal (degradedState 2) 8 0 Cn.laneErrors + 1 < 2 ^ 48 ∧
    2 ≤ (laneOf (degradedState 2) 0).degRun ∧ ¬ 2 ≤ (laneOf (degradedState 1) 0).degRun ∧
    laneCarries (tick 0 (degradedState 1)) 0 = true := by decide +kernel
theorem wit_Fence : laneCarries (tick 0 wired) 67 = true ∧ ctrVal wired 8 67 Cn.fenceHits + 1 < 2 ^ 48 ∧ belowDegrade (laneOf wired 67) = true ∧
    (laneOf wired 67).snapAt + Time.sec 1 ≤ wired.now + 0 := by decide +kernel
/-- Ring A0 waits for the scan of lane 67. -/
def scanning : State :=
  { wired with
    host := { wired.host with rings := [(0, { ring0 with cmdCons := 1, running := some ⟨Op.query, 5, 7, false, 0, Time.ms 100, .scan 67, false⟩ })] }
    lane := { wired.lane with scans := [(67, some 2980000000000)] } }
theorem wit_Scan :
    scanning.lane.scans.find? (fun x => x.1 == 67) = some (67, some 2980000000000) ∧ 2980000000000 + Time.ms 20 ≤ scanning.now + 0 ∧
    (laneOf scanning 67).los = false ∧ (laneOf scanning 67).lol = false ∧
    (PortId.a, 0) ∈ ringsWaiting scanning (fun w => w == .scan 67) := by decide +kernel
/-! ### Time bases -/

/-- Base 0 follows PTP on port 8 (SLAVE), base 1 PPS input 2; port 8 belongs to base 0. Tree 4 takes time of day from base 0. -/
def cfgTime : Cfg :=
  [(objKey Kind.ptpPort 8, { kind := Kind.ptpPort, num := 8, fields := [(Fld.ptState, 2), (Fld.ptBase, 0)] }),
   (objKey Kind.ptpPort 16, { kind := Kind.ptpPort, num := 16, fields := [(Fld.ptState, 1), (Fld.ptBase, 0)] }),
   (objKey Kind.tree 4, { kind := Kind.tree, num := 4, fields := [(Fld.treeSplit, 1)] }),
   (objKey Kind.terminal 7, { kind := Kind.terminal, num := 7, fields := [(Fld.trmTree, 4), (Fld.trmTod, 1)] })]
def timed (b : TimeBase) : State :=
  { host with
    now := 100000000000000
    stitch := { cfg := cfgTime }
    pon := { gridOn := true, gridAt := 99999875000000, sf := 80000, terms := [(7, { ch := some 8, st := .operational })],
             todUnverified := [(4, 5)], channels := [(8, { asymConfirmed := true })] }
    twin := { held := true, tokenOut := true, yieldOut := false }
    time := { stampClock := true, bases := [(0, b), (1, { st := .locked, source := 2, sourceArg := 2 })] } }
def unsetBase : TimeBase := { source := 1, sourceArg := 8 }
def lockedBase : TimeBase :=
  { st := .locked, source := 1, sourceArg := 8, refNow := 90000000000000, refVal := 5000000, rate := 1000, holdSince := some 0 }
theorem wit_Sync_unset :
    sourceOf (timed unsetBase) 0 = (1, 8) ∧ (cfgOf (timed unsetBase)).valN Kind.ptpPort 8 Fld.ptState = 2 ∧
    (baseOf (timed unsetBase) 0).ignored = false ∧ (baseOf (timed unsetBase) 0).st = .unset ∧
    ctrVal (timed unsetBase) 5 0 Cn.incomplete + 1 < 2 ^ 48 := by decide +kernel
theorem wit_Sync_within :
    sourceOf (timed lockedBase) 0 = (1, 8) ∧ (cfgOf (timed lockedBase)).valN Kind.ptpPort 8 Fld.ptState = 2 ∧
    (baseOf (timed lockedBase) 0).ignored = false ∧ (baseOf (timed lockedBase) 0).st ≠ .unset ∧
    (baseOf (timed lockedBase) 0).heldJump = none ∧
    (offsetOf (timed lockedBase) 8 (u16 1000) 0 0 (u16 1000) 0).natAbs ≤ 65536 * tbValN (timed lockedBase) 0 Fld.tbJumpNs ∧
    65536 * tbValN (timed lockedBase) 0 Fld.tbJumpNs < (offsetOf (timed lockedBase) 8 (u16 1001) 0 0 (u16 1001) 0).natAbs := by
  decide +kernel
def nearLock : TimeBase := { lockedBase with st := .acquiring, inLimitSince := some 90000000000000 }
theorem wit_TimeLock :
    (baseOf (timed nearLock) 0).st = .acquiring ∧ (baseOf (timed nearLock) 0).inLimitSince = some 90000000000000 ∧
    90000000000000 + Time.sec 10 ≤ (timed nearLock).now + 0 := by decide +kernel
def eightOff : TimeBase := { lockedBase with beyond := [u16 5000, u16 5100, u16 5000, u16 5050, u16 5000, u16 5000, u16 5000, u16 5100] }
theorem wit_JumpHeld :
    (baseOf (timed eightOff) 0).st ≠ .jumpHeld ∧ (baseOf (timed eightOff) 0).heldJump = none ∧ (baseOf (timed eightOff) 0).beyond.length = 8 ∧
    allAgree (baseOf (timed eightOff) 0).beyond = true ∧ (sourceOf (timed eightOff) 0).1 ≠ 4 := by decide +kernel
def holdingOver : TimeBase := { lockedBase with st := .holdover, heldJump := some 77 }
theorem wit_Budget :
    ((baseOf (timed holdingOver) 0).st = .holdover ∨ (baseOf (timed holdingOver) 0).st = .jumpHeld) ∧
    (baseOf (timed holdingOver) 0).holdSince = some 0 ∧
    0 + Time.sec (60 * tbValN (timed holdingOver) 0 Fld.tbHoldMin) ≤ (timed holdingOver).now + Time.sec 14400 := by decide +kernel
def jumping : TimeBase := { lockedBase with st := .jumpHeld, heldJump := some (u16 5000) }
theorem wit_Jumps :
    serves Op.jumpAccept h0 (timed jumping) ∧ serves Op.jumpRefuse h0 (timed jumping) ∧ 0 < 8 ∧
    (baseOf (timed jumping) 0).heldJump = some (u16 5000) ∧ (baseOf (timed jumping) 0).acceptAt = none ∧
    (baseOf (timed jumping) 1).heldJump = none := by decide +kernel
def accepted : TimeBase := { jumping with acceptAt := some 100000000000000 }
theorem wit_JumpApplied :
    (baseOf (timed accepted) 0).heldJump = some (u16 5000) ∧ (baseOf (timed accepted) 0).acceptAt = some 100000000000000 ∧
    100000000000000 ≤ (timed accepted).now + 0 ∧ (sourceOf (timed accepted) 0).1 ≠ 4 := by decide +kernel
theorem wit_TimeSet : serves Op.timeSet h0 (timed lockedBase) ∧ 7 < 8 ∧ 999999999 < 10 ^ 9 ∧ 2 ^ 48 - 1 < 2 ^ 48 := by decide +kernel
def setDue : TimeBase := { lockedBase with setAt := some (100000000000000, 1700000123400000000, false) }
theorem wit_TimeSetApply :
    (baseOf (timed setDue) 0).setAt = some ((timed setDue).now + 0, 1700000123400000000, false) ∧ (sourceOf (timed setDue) 0).1 ≠ 4 := by
  decide +kernel
theorem wit_Asymmetry : serves Op.asymmetrySet h0 (timed lockedBase) ∧ 511 < 512 ∧ splitPath (timed lockedBase) (treeOf 9) = true := by
  decide +kernel
theorem wit_Announce_new :
    ptpPortOf (timed lockedBase) 0 8 ≠ 0 ∧
    (timed lockedBase).time.foreign.find? (fun f => f.base == 0 && f.port == 8 && f.master == 3) = none ∧
    ((timed lockedBase).time.foreign.filter fun f => f.base == 0 && f.port == 8).length < 8 ∧ ptpPortOf (timed lockedBase) 1 8 = 0 ∧
    ctrVal (timed lockedBase) 5 1 Cn.ptpDropped + 1 < 2 ^ 48 := by decide +kernel
def known : State := { timed lockedBase with time := { (timed lockedBase).time with foreign := [⟨0, 8, 3, 9, 0⟩] } }
theorem wit_Announce_known :
    ptpPortOf known 0 8 ≠ 0 ∧ known.time.foreign.find? (fun f => f.base == 0 && f.port == 8 && f.master == 3) = some ⟨0, 8, 3, 9, 0⟩ := by
  decide +kernel
theorem wit_Announce_timeout :
    known.time.foreign = [⟨0, 8, 3, 9, 0⟩] ∧ 0 + Time.ms 375 ≤ known.now + 0 ∧ (sourceOf known 0).1 = 1 ∧
    (baseOf known 0).lastSample + Time.ms 375 ≤ known.now + 0 := by decide +kernel
def sending : State :=
  { timed lockedBase with
    lane := { subports := [(8, { up := true }), (16, { up := true })] }
    time := { (timed lockedBase).time with lastSend := [(64, 99937500000000), (65, 99937500000000)] } }
theorem wit_Ptp_first : portUp sending 8 = true ∧ ∀ k, k < 3 → sending.time.lastSend.find? (4 * 8 + k) = none := by decide +kernel
theorem wit_Ptp_rates :
    portUp sending 16 = true ∧ ptpPortOf sending 0 16 = 1 ∧ sending.time.lastSend.find? (4 * 16) = some 99937500000000 ∧
    sending.time.lastSend.find? (4 * 16 + 1) = some 99937500000000 := by decide +kernel
def pulsed : State :=
  { timed lockedBase with
    time := { (timed lockedBase).time with
      ppsLast := [(2, 99000000000000), (3, 99500000000000)]
      ppsLost := [(1, true)]
      squelched := [(0, true)]
      lockBack := [(0, 99000000000000)] } }
theorem wit_Pps_early :
    pulsed.time.ppsLast.find? 3 = some 99500000000000 ∧ pulsed.now + 0 < 99500000000000 + Time.ms 900 ∧
    ctrVal pulsed 5 (16 + 3) Cn.edgesIgnored + 1 < 2 ^ 48 := by decide +kernel
theorem wit_Pps_edge :
    (∀ last, pulsed.time.ppsLast.find? 1 = some last → last + Time.ms 900 ≤ pulsed.now + 0) ∧ basesOfPps pulsed 1 = [] ∧
    pulsed.time.ppsLost.getD 1 false = true := by
  refine ⟨fun last h => ?_, by decide +kernel, by decide +kernel⟩
  simp [pulsed, timed, host, Tab.find?] at h
theorem wit_Pps_loss :
    pulsed.pwr.ready = true ∧ pulsed.time.ppsLost.getD 2 false = false ∧
    pulsed.time.ppsLast.getD 2 pulsed.pwr.readyAt + Time.ms 1500 ≤ pulsed.now + Time.ms 500 := by decide +kernel
def onSecond : State := { timed lockedBase with time := { bases := [(0, { st := .locked })] }, now := 0 }
theorem wit_PpsOut :
    pulseNow (tick 0 onSecond) 0 = true ∧ (∀ last, onSecond.time.ppsOutLast.find? 0 = some last → last + Time.ns 4 < onSecond.now + 0) ∧
    (tbVal onSecond ((cfgOf onSecond).valN Kind.ppsOut 0 Fld.ppBase) Fld.tbSquelch ≠ 1 ∨
     (baseOf onSecond ((cfgOf onSecond).valN Kind.ppsOut 0 Fld.ppBase)).st = .locked) := by
  refine ⟨by decide +kernel, fun last h => ?_, by decide +kernel⟩
  simp [onSecond, timed, Tab.find?] at h
theorem wit_Rclk :
    pulsed.time.squelched.getD 0 false = true ∧ pulsed.time.lockBack.find? 0 = some 99000000000000 ∧
    99000000000000 + Time.sec 1 ≤ pulsed.now + 0 := by decide +kernel
theorem wit_Tod :
    pulsed.twin.held = true ∧ (termOf pulsed 7).ch = some 8 ∧ (termOf pulsed 7).st = .operational ∧ (termOf pulsed 7).todOut = false ∧
    (termOf pulsed 7).todDue ≤ pulsed.now + 0 ∧ (cfgOf pulsed).on Kind.terminal 7 Fld.trmTod = true := by decide +kernel
/-! ### Keys -/

def wrapped (kind : Nat) : List Byte := [1, BitVec.ofNat 8 kind, 16] ++ List.replicate 81 0
/-- The holder with an OPERATIONAL terminal 0 on channel 8; its data key is at index 1, the broadcast key of tenant 2 at index 2. -/
def keyed (x : Terminal) : State :=
  { lit host with
    now := 100000000000000
    stitch := { cfg := [(objKey Kind.terminal 0, { kind := Kind.terminal, num := 0, fields := [(Fld.trmTree, 4)] }),
                        (objKey Kind.subscriber 2, { kind := Kind.subscriber, num := 2 }),
                        (objKey Kind.subport 0, { kind := Kind.subport, num := 0, fields := [(Fld.spRate, 100)] }),
                        (objKey Kind.leg 5, { kind := Kind.leg, num := 5, fields := [(Fld.lgKind, 0), (Fld.lgValue, 8), (Fld.lgGroup, 1)] }),
                        (objKey Kind.group 1, { kind := Kind.group, num := 1, fields := [(Fld.grTenant, 2)] })] }
    pon := { gridOn := true, sf := 5000000000, terms := [(0, { x with ch := some 8, onu := some 11, st := .operational })],
             channels := [(8, { st := .active })] }
    ciph := { slots := [(0, { kind := 0, owner := 0, key1 := { st := .current, since := 5 }, key2 := { st := .loaded } }),
                        (1, { kind := 3, owner := 514, key2 := { st := .current, since := 5 } }),
                        (2, { kind := 5, owner := 0 })] } }
theorem wit_KeyImport_short : serves Op.keyImport h0 (keyed {}) ∧ ([] : List Byte).length ≠ 84 := by decide +kernel
theorem wit_KeyImport :
    serves Op.keyImport h0 (keyed {}) ∧ (wrapped 1).length = 84 ∧ wkKind (wrapped 1) = 1 ∧ wkKind (wrapped 2) = 2 ∧
    wkKind (wrapped 3) = 3 ∧ wkKind (wrapped 4) = 4 ∧ (cfgOf (keyed {})).has Kind.terminal (wkBinding (wrapped 2) % 65536) = true ∧
    (cfgOf (keyed {})).has Kind.subport (wkAssoc (wrapped 3) / 36) = true ∧
    assocUsable (keyed {}) (wkAssoc (wrapped 3) / 36) (wkAssoc (wrapped 3)) = false := by decide +kernel
theorem wit_KeyImport_places :
    keyPlace (keyed {}) .east slotExchange 0 ∧ keyPlace (keyed {}) .east slotSak 0 ∧ keyPlace (keyed {}) .east slotSeam 0 ∧
    keyPlace (keyed {}) .east slotData 0 ∧ keyPlace (keyed {}) .east slotBroadcast (bcastOwner 8 2) :=
  ⟨⟨by decide +kernel, by decide +kernel⟩, ⟨by decide +kernel, by decide +kernel⟩, ⟨_, rfl, rfl, rfl⟩, ⟨_, rfl, rfl, rfl⟩, ⟨_, rfl, rfl, rfl⟩⟩
theorem wit_KeyExchanges_start :
    (keyed {}).twin.held = true ∧ (termOf (keyed {}) 0).st = .operational ∧ (termOf (keyed {}) 0).ch = some 8 ∧
    (termOf (keyed {}) 0).onu = some 11 ∧ hasPloamQueue (chOf (keyed {}) 8).st = true ∧ (termOf (keyed {}) 0).exch = none ∧
    (termOf (keyed {}) 0).exchRetryAt = none ∧ (termOf (keyed {}) 0).nextRefresh ≤ (keyed {}).now + 0 ∧
    currentIndex (keyed {}) (dieOfTerm (keyed {}) 0) slotData 0 = some 1 := by decide +kernel
theorem wit_KeyExchanges_retry :
    (keyed { exchRetryAt := some 9 }).twin.held = true ∧ (termOf (keyed { exchRetryAt := some 9 }) 0).exchRetryAt = some 9 ∧
    (termOf (keyed { exchRetryAt := some 9 }) 0).exch = none ∧ 9 ≤ (keyed { exchRetryAt := some 9 }).now + 0 := by decide +kernel
/-- An exchange at index 2 whose key is not loaded yet, with one fragment there. -/
def exchanging (tries : Nat) : State :=
  { keyed { exch := some { index := 2, tries := tries, startedAt := 5, fragments := [(0, [1])] } } with
    ciph := { slots := [(0, { kind := 0, owner := 0, key1 := { st := .current, since := 5 } })] } }
theorem wit_KeyExchanges_report (n : Nat) :
    (exchanging n).twin.held = true ∧ (termOf (exchanging n) 0).ch = some 8 ∧ (termOf (exchanging n) 0).onu = some 11 ∧
    hasPloamQueue (chOf (exchanging n) 8).st = true ∧
    (termOf (exchanging n) 0).exch = some { index := 2, tries := n, startedAt := 5, fragments := [(0, [1])] } ∧
    exchangeLoaded (exchanging n) 0 = false ∧ keyPlace (exchanging n) (dieOfTerm (exchanging n) 0) slotData 0 ∧
    5 + Time.sec 3 ≤ (exchanging n).now + 0 :=
  ⟨rfl, rfl, rfl, rfl, rfl, rfl, ⟨_, rfl, rfl, rfl⟩, by show 5 + Time.sec 3 ≤ 100000000000000 + 0; decide +kernel⟩
theorem wit_KeyExchanges_report_whole :
    wholeReport (([(0, [1])] : List (Nat × List Byte)).filter (fun p => p.1 != 1) ++ [(1, [2])]) = some [1, 2] ∧
    wholeReport (([(0, [1])] : List (Nat × List Byte)).filter (fun p => p.1 != 0) ++ [(0, [2])]) = none := by decide +kernel
def switching : State := keyed { exch := some { index := 2, startedAt := 5 }, switchAt := some 5000000000, clearAt := some 4000000000 }
theorem wit_KeyExchanges_switch :
    (termOf switching 0).exch = some { index := 2, startedAt := 5 } ∧ (termOf switching 0).switchAt = some 5000000000 ∧
    sfReached switching 5000000000 = true ∧ (termOf switching 0).clearAt = some 4000000000 ∧ sfReached switching 4000000000 = true ∧
    currentIndex switching (dieOfTerm switching 0) slotData 0 = some 1 := by decide +kernel
theorem wit_Broadcast_due : bcastDue (tick 0 (keyed {})) 2 8 = true := by decide +kernel
def distributing : State :=
  { keyed {} with ciph := { (keyed {}).ciph with bcasts := [⟨2, 8, 1, 90000000000000, [0]⟩] } }
theorem wit_Broadcast_switch :
    bcastOf? distributing 2 8 = some ⟨2, 8, 1, 90000000000000, [0]⟩ ∧ lagging distributing ⟨2, 8, 1, 90000000000000, [0]⟩ = [0] ∧
    90000000000000 + Time.sec 10 ≤ distributing.now + 0 := by decide +kernel
theorem wit_KeySpent :
    spentIndex (keyed {}) (dieOfTerm (keyed {}) 0) slotData 0 (lifeOf (keyed {}) (termTenants (keyed {}) 0)) 0 = some 1 ∧
    spentIndex (keyed {}) (dieOfChannel (514 / 64)) slotBroadcast 514 (lifeOf (keyed {}) [514 % 64]) 0 = some 2 := by decide +kernel
theorem wit_SlotFault : ((keyed {}).ciph.slots.find? (slotKey .east 2)).isSome = true := by decide +kernel
def fewLanes : State :=
  { keyed {} with
    stitch := { cfg := [(objKey Kind.device 0, { kind := Kind.device, num := 0, fields := [(Fld.devYieldCipher, 1)] })] }
    ciph := { quarantined := [0, 1, 2, 3, 4, 5, 6, 7] } }
theorem wit_LaneFault : quarantinedLane fewLanes 8 = false ∧ (cfgOf fewLanes).on Kind.device 0 Fld.devYieldCipher = true := by decide +kernel
/-! ### Services -/

/-- Terminal 0 on channel 8 with a flow 3 of tenant 2 and a management queue; a MEP 6 on that flow; VLAN 5 of tenant 2 snooped. -/
def serving (x : Terminal) : State :=
  { keyed x with
    stitch := { cfg := (keyed {}).stitch.cfg
      ++ [(objKey Kind.flow 3, { kind := Kind.flow, num := 3, fields := [(Fld.flTerm, 0), (Fld.flTenant, 2)] }),
          (objKey Kind.tenant 2, { kind := Kind.tenant, num := 2, fields := [(Fld.tnTrust, 2)] }),
          (objKey Kind.vlan (memKey 2 5), { kind := Kind.vlan, num := memKey 2 5, fields := [(Fld.vlSnoop, 1), (Fld.vlLoop, 1), (Fld.vlGroup, 1), (Fld.vlLoopMs, 100)] }),
          (objKey Kind.mep 6, { kind := Kind.mep, num := 6, fields := [(Fld.mpPlace, 0), (Fld.mpValue, 3), (Fld.mpTenant, 2), (Fld.mpInterval, 3), (Fld.mpRemote, 9)] })] }
    pon := { (keyed x).pon with channels := [(8, { st := .active, mgmtQ := some 44 })] }
    host := { host.host with imagesE := { images := [(3, (4000, 0xABCD))] } } }
theorem wit_Omci :
    serves Op.omciRequest h0 (serving {}) ∧ serves Op.imageActivate h0 (serving {}) ∧ serves Op.imageCommit h0 (serving {}) ∧
    (cfgOf (serving {})).has Kind.terminal 0 = true ∧ (termOf (serving {}) 0).st = .operational ∧
    (List.replicate 32 (0 : Byte)).length ≤ omciRoom (termOf (serving {}) 0) ∧ 65535 ≤ 65535 ∧ 255 ≤ 255 ∧ 1 ≤ 1 ∧
    (termOf (serving {}) 0).omciWait.length < 16 := by decide +kernel
def req (n : Nat) : OmciReq := { prio := 1, contents := [1], txn := 5, resends := n }
/-- A request of ring A0 is outstanding, resent `n` times. -/
def asked (n : Nat) : State :=
  { serving { omciOut := [req n] } with
    host := { host.host with rings := [(0, { ring0 with cmdCons := 1, running := some ⟨Op.omciRequest, 5, 7, false, 0, Time.sec 4, .omci 0 1, false⟩ })] } }
theorem wit_Omci_timeout (n : Nat) :
    (termOf (asked n) 0).omciOut.find? (fun r => r.prio == 1) = some (req n) ∧
    (ringOf (asked n) (req n).port (req n).ring).running = some ⟨Op.omciRequest, 5, 7, false, 0, Time.sec 4, .omci 0 1, false⟩ ∧
    (req n).use = .host ∧ linkOf (asked n) (req n).port = true ∧ registered (termOf (asked n) 0).st = true ∧
    omciNamed? (termOf (asked n) 0) 5 = some (req n) ∧ omciNamed? (termOf (asked n) 0) 6 = none :=
  ⟨rfl, rfl, rfl, rfl, rfl, rfl, rfl⟩
theorem wit_Omci_timeout_due : (req 2).sentAt + omciTimeout (asked 2) ≤ (asked 2).now + 0 ∧ (req 2).resends < 3 ∧ 3 ≤ (req 3).resends ∧
    (req 3).sentAt + omciTimeout (asked 3) ≤ (asked 3).now + 0 ∧ ctrVal (asked 2) 10 0 Cn.omciBadMic + 1 < 2 ^ 48 ∧
    ctrVal (asked 2) 10 0 Cn.omciUnexpected + 1 < 2 ^ 48 := by decide +kernel
theorem wit_Omci_busy : omciBusy { omciOut := [req 0], omciWait := List.replicate 16 (req 0) } 1 = true ∧
    16 ≤ ({ omciWait := List.replicate 16 (req 0) } : Terminal).omciWait.length := by decide +kernel
theorem wit_Swdl_start :
    serves Op.swdlStart h0 (serving {}) ∧ (cfgOf (serving {})).has Kind.terminal 0 = true ∧
    (imagesOf (serving {}) (dieOfTerm (serving {}) 0)).images.find? 3 ≠ none ∧ 1 ≤ 1 ∧ 256 ≤ 256 ∧
    (termOf (serving {}) 0).download = none ∧ (termOf (serving {}) 0).st = .operational ∧ (termOf (serving {}) 0).ch ≠ none := by decide +kernel
def dl : Download := { image := 3, inst := 1, window := 16, running := true, started := true }
def loading (d : Download) : State := serving { download := some d }
theorem wit_Swdl_busy : serves Op.swdlStart h0 (loading dl) ∧ (termOf (loading dl) 0).download ≠ none := by decide +kernel
theorem wit_Swdl_window :
    (termOf (loading dl) 0).download = some dl ∧ dl.running = true ∧ dl.ending = false ∧ dl.retried = false ∧
    dl.lastAt + omciTimeout (loading dl) ≤ (loading dl).now + 0 := by decide +kernel
def dlEnd : Download := { dl with ending := true, lastAt := 99000000000000 }
theorem wit_Swdl_end :
    (termOf (loading dlEnd) 0).download = some dlEnd ∧ dlEnd.ending = true ∧ dlEnd.lastAt + Time.sec 1 ≤ (loading dlEnd).now + 0 ∧
    ¬ dlEnd.endSince + Time.sec 300 ≤ (loading dlEnd).now + 0 ∧ dlEnd.endSince + Time.sec 300 ≤ (loading dlEnd).now + Time.sec 200 := by
  decide +kernel
/-- A frame of a class from flow 3 stands at the head of East's queue. -/
def punt1 (cls : Nat) : SvcFrame := { cls := cls, frame := { dir := .up, ingress := 3, tenant := 2 } }
def queued (cls : Nat) : State :=
  { serving {} with svc := { inE := [punt1 cls, punt1 9], probeValue := 0x55AA,
                             series := [{ mep := 6, trace := false, target := 1, wanted := 3, port := .a, ring := 0 }] } }
theorem wit_Service_taken (cls : Nat) : svcQueue (queued cls) .east = punt1 cls :: [punt1 9] ∧ (punt1 cls).frame.tenant < 64 :=
  ⟨rfl, by show 2 < 64; decide⟩
theorem wit_Service_classes :
    (svcClass (.dhcp4Client true)).contains 16 = true ∧ (svcClass .dhcp6Client).contains 16 = false ∧
    ((bankOf (queued 16) .east (punt1 16).frame.stitch).getD (cfgOf (queued 16))).valN Kind.tenant 2 Fld.tnTrust = 2 ∧
    ctrVal (queued 16) 4 (objTenant .east 2) Cn.relayDrops + 1 < 2 ^ 48 ∧ ctrVal (queued 17) 4 (objTenant .east 2) Cn.relayBad + 1 < 2 ^ 48 ∧
    (queued 23).svc.blocked.find? 3 = none ∧ (queued 16).svc.leaves = [] := by decide +kernel
theorem wit_Service_other : ∀ x rest, svcQueue (queued 16) .east = x :: rest → (svcClass .dhcp6Client).contains x.cls = false := by
  intro x rest h; cases h; decide
theorem wit_Service_series : ∃ y, seriesOf? (queued 21) 6 false = some y ∧ y.mep = 6 ∧ y.trace = false ∧ y.got.length + 1 < y.wanted :=
  ⟨_, rfl, rfl, rfl, by decide⟩
/-- Terminal 0's only membership was reported at the start. -/
def member : State := { serving { groups := [(memKey 2 5, 0xE0000101, 0)] } with now := Time.sec 260 }
theorem wit_Query : member.svc.leaves = [] ∧ (∀ y, y ∈ member.pon.terms.map (·.1) → y = 0) ∧ (member.pon.terms.map (·.1)).Nodup := by
  decide +kernel
theorem wit_Ccm_send :
    (cfgOf (serving {})).live Kind.mep 6 = true ∧ (serving {}).twin.held = true ∧
    (∀ last, (serving {}).svc.lastCcm.find? 6 = some last → last + ccmInterval (serving {}) 6 ≤ (serving {}).now + 0) := by
  refine ⟨by decide +kernel, by decide +kernel, fun last h => ?_⟩
  simp [serving, keyed, lit, host, Tab.find?] at h
def heard : State := { serving {} with svc := { remotes := [{ mep := 6, remote := 9, last := 0 }] } }
theorem wit_Ccm_loss :
    remoteOf? heard 6 9 = some { mep := 6, remote := 9, last := 0 } ∧ (cfgOf heard).live Kind.mep 6 = true ∧
    9 ∈ expectedRemotes (cfgOf heard) 6 ∧ 0 + lossTime heard 6 ≤ heard.now + 0 := by decide +kernel
theorem wit_Series :
    serves Op.cfmLbm h0 (serving {}) ∧ serves Op.cfmLtm h0 (serving {}) ∧ (cfgOf (serving {})).has Kind.mep 6 = true ∧ 1000 ≤ 1000 ∧
    seriesOf? (serving {}) 6 false = none ∧ seriesOf? (serving {}) 6 true = none ∧ seriesOf? (queued 21) 6 false ≠ none := by decide +kernel
theorem wit_Probe :
    (cfgOf (serving {})).live Kind.vlan (2 ^ 18 * dieNum .east + memKey 2 5) = true ∧
    (cfgOf (serving {})).val Kind.vlan (2 ^ 18 * dieNum .east + memKey 2 5) Fld.vlLoop = 1 ∧
    0 ≤ (cfgOf (serving {})).val Kind.vlan (2 ^ 18 * dieNum .east + memKey 2 5) Fld.vlGroup ∧ (serving {}).twin.held = true ∧
    (serving {}).svc.lastProbe = [] := by decide +kernel
def blockedState : State := { serving {} with svc := { blocked := [(3, 5), (4, 0)] } }
theorem wit_Loop :
    blockedState.svc.blocked.find? 3 = some 5 ∧ blockedState.svc.blocked.find? 4 = some 0 ∧ serves Op.loopClear h0 blockedState ∧
    (cfgOf blockedState).has Kind.flow 3 = true ∧ (cfgOf (serving {})).has Kind.flow 3 = true := by decide +kernel
/-! ### The twin -/

/-- A SOLO unit of side 1, 200 ms after its start-up. -/
def quietSolo : State := { host with now := Time.ms 200, pwr := { ready with side := true } }
theorem wit_Token_claim :
    quietSolo.pwr.ready = true ∧ quietSolo.twin.role = .solo ∧ quietSolo.twin.held = false ∧ quietSolo.twin.guardSince = none ∧
    quietSolo.twin.tokenIn = false ∧ 0 ≤ quietSolo.pwr.readyAt ∧
    quietSolo.pwr.readyAt + Time.ms (if quietSolo.pwr.side = true then 200 else 100) ≤ quietSolo.now + 0 := by decide +kernel
theorem wit_Token_noClaim : quietSolo.pwr.readyAt < 1 := by decide +kernel
/-- A standby in this role, paired, with a terminal on each of two SHADOW channels of cluster 0 and a DARK one. -/
def standby (r : Role) : State :=
  { keyed {} with
    twin := { role := r, paired := true, seamUp := true, lastCause := Cause.seamLoss, lastMsg := 99999999999999 }
    ciph := { (keyed {}).ciph with pairingKey := some [1] }
    lane := { lanes := [(65, { up := true })] }
    time := { bases := [(0, { st := .locked, refNow := 100000000000000, refVal := 7 })] }
    pon := { (keyed {}).pon with channels := [(8, { st := .shadow, deltas := [3000, 5000], ownDigest := some (5000000000, 77) }),
                                              (9, { st := .shadow, drainFrom := some 4 }), (40, {})] } }
theorem wit_Token_fall : (standby .armed).twin.role = .armed ∧ (standby .armed).twin.guardSince = none := by decide +kernel
theorem wit_Token_fallHolder : (lit host).twin.role ≠ .armed ∧ (lit host).twin.held = true := by decide +kernel
/-- The guard runs since 50 us before the end of its 10 us. -/
def guarding (takes : Bool) : State :=
  { standby .armed with twin := { (standby .armed).twin with guardSince := some 99999990000000, takeover := takes, tokenOut := true, yieldCause := 20 } }
theorem wit_Token_guard : (guarding false).twin.guardSince = some 99999990000000 ∧
    99999990000000 + Time.us 10 ≤ (guarding false).now + 0 ∧ (guarding false).twin.takeover = false := by decide +kernel
theorem wit_Token_takeover : (guarding true).twin.guardSince = some 99999990000000 ∧
    99999990000000 + Time.us 10 ≤ (guarding true).now + 0 ∧ (guarding true).twin.takeover = true := by decide +kernel
theorem wit_Token_conflict : (lit host).twin.held = true ∧ host.twin.held = false := by decide +kernel
/-- The unit has taken over: cluster 0 is to be lit and to send now, cluster 1 later. -/
def took : State :=
  { guarding true with twin := { (guarding true).twin with
      held := true, role := .active, guardSince := none
      lasersAt := [(0, 99999999000000), (1, 100000001000000)], framesAt := [(0, 99999999500000), (1, 100000001000000)] } }
theorem wit_Takeover_light : took.twin.held = true ∧ took.twin.tokenIn = false := by decide +kernel
theorem wit_Takeover_dark : (standby .armed).twin.held = false := by decide +kernel
theorem wit_Takeover_frame : took.twin.held = true ∧ (0, 99999999500000) ∈ took.twin.framesAt ∧ 99999999500000 ≤ took.now + 0 ∧
    took.twin.takeover = true ∧ took.twin.takeoverTold = false := by decide +kernel
/-- The paired holder with one protected channel. -/
def activeUnit : State :=
  { lit host with twin := { (lit host).twin with role := .active, paired := true, seamUp := true }
                  ciph := { pairingKey := some [1] }
                  pon := { sf := 41, channels := [(8, { st := .active, isProtected := true })] }, lane := { lanes := [(64, { up := true })] } }
theorem wit_Handover : serves Op.handover h0 activeUnit ∧
    handoverOk { activeUnit with twin := { activeUnit.twin with yieldIn := false } } = true ∧ openStitch? activeUnit = none := by decide +kernel
def windowOpen : State := { activeUnit with stitch := { pend := [{ number := 1, recs := [], b1 := 0, b2 := 125, digest := 0, opened := true }] } }
theorem wit_Handover_waits : serves Op.handover h0 windowOpen ∧
    handoverOk { windowOpen with twin := { windowOpen.twin with yieldIn := false } } = true ∧ openStitch? windowOpen ≠ none := by decide +kernel
theorem wit_Handover_state : serves Op.handover h0 quietSolo ∧ quietSolo.twin.role ≠ .active := by decide +kernel
def handCmd : Running := ⟨Op.handover, 5, 7, false, 0, Time.ms 1, .handover, false⟩
def handing : State := { activeUnit with twin := { activeUnit.twin with yieldIn := false }, host := { host.host with rings := [(0, { ring0 with cmdCons := 1, running := some handCmd })] } }
theorem wit_Handover_yield : ringsWaiting handing (fun w => w == .handover) = [(.a, 0)] ∧ (ringOf handing .a 0).running = some handCmd ∧
    handCmd.discard = false ∧ linkOf handing .a = true ∧ openStitch? handing = none ∧ handoverOk handing = true := by decide +kernel
theorem wit_Disarm : serves Op.disarm h0 (standby .armed) ∧ serves Op.resync h0 (standby .disarmed) := by decide +kernel
/-- A resync at step 5, begun now, with two tries behind it. -/
def syncing5 : State :=
  { standby .syncing with twin := { (standby .syncing).twin with resyncStep := 5, resyncTries := 2, resyncSince := 100000000000000 } }
theorem wit_Resync_fails : syncing5.twin.role = .syncing ∧ syncing5.twin.resyncStep ≠ 0 ∧ syncing5.twin.resyncStep = 5 := by decide +kernel
def retrying : State := { standby .disarmed with twin := { (standby .disarmed).twin with resyncRetryAt := some 5 } }
theorem wit_Resync_retry : retrying.twin.resyncRetryAt = some 5 ∧ 5 ≤ retrying.now + 0 ∧ retrying.twin.role = .disarmed ∧
    retrying.twin.paired = true ∧ retrying.twin.seamUp = true := by decide +kernel
/-! ### The Seam -/

/-- A message of lane 1 with a token flag, an acknowledgement wanted, and a sequence number after a gap. -/
def msg : SeamHdr := { lane := 1, seq := 9, sf := 5000000000, stitch := 0, token := true, ackReq := true, tagOk := true }
theorem wit_Seam_hello : hears true msg 0 (standby .solo) ∧ pairVersion (standby .solo) 2 7 2 = some 3 ∧
    pairVersion (standby .solo) 4 7 2 = none := by decide +kernel
def forged : SeamHdr := { msg with tagOk := false }
theorem wit_Seam_bad : (standby .armed).pwr.ready = true ∧ forged.lane < 4 ∧ seamLaneUp (tick 0 (standby .armed)) forged.lane = true ∧
    badSeam false forged (standby .armed) = true ∧ ctrVal (standby .armed) 5 8 Cn.seamBad + 1 < 2 ^ 48 := by decide +kernel
/-- Sixteen bad messages within the last second, the last good one 2 ms ago. -/
def noisy : State :=
  { standby .armed with twin := { (standby .armed).twin with badMsgs := List.replicate 16 99999000000000, lastMsg := 99998000000000 } }
theorem wit_Seam_integrity : 16 ≤ (noisy.twin.badMsgs.filter fun x => decide (noisy.now + 0 < x + Time.sec 1)).length := by decide +kernel
theorem wit_Seam_down : noisy.twin.seamUp = true ∧ noisy.twin.lastMsg + Time.ms 1 ≤ noisy.now + 0 := by decide +kernel
def silent : State := { standby .syncing with twin := { (standby .syncing).twin with seamUp := false, downSince := some 99990000000000 } }
theorem wit_Seam_loss : silent.twin.downSince = some 99990000000000 ∧ 99990000000000 + Time.ms 10 ≤ silent.now + 0 ∧
    (silent.twin.role = .armed ∨ silent.twin.role = .syncing) ∧ silent.twin.guardSince = none := by decide +kernel
def secondUp : State := { standby .armed with time := { bases := [(0, { refNow := 100000000000000, refVal := 65536000000001 })] } }
theorem wit_Seam_compare : secondUp.twin.paired = true ∧ secondUp.twin.seamUp = true ∧
    secondUp.twin.lastCompare < baseNs (tick 0 secondUp) 0 / 10 ^ 9 ∧ seamLane? (tick 0 secondUp) 0 = some 1 := by decide +kernel
theorem wit_Seam_tally : (standby .armed).twin.paired = true ∧ follows (standby .armed) = true ∧ (standby .armed).twin.seamUp = true ∧
    (standby .armed).twin.lastTally + Time.us 10 ≤ (standby .armed).now + 0 := by decide +kernel
/-- The standby has staged a record that sets fields 1 and 2 of an object. -/
def staging : State :=
  { standby .armed with stitch := { (standby .armed).stitch with
      staging := [⟨{ op := 2, kind := Kind.terminal, handle := 0, fields := [(1, 4), (2, 5)] }, 0, none, 0, [(1, 4), (2, 5)]⟩], nextIndex := 1, partNo := 4 } }
theorem wit_Stream : hears false msg 0 staging ∧ standsBy staging ∧ staging.stitch.partNo ≤ 4 ∧ awaitsImage staging = false := by decide +kernel
theorem wit_Stream_agrees : closingAgrees staging 1 1 (digestWith 0 1 staging.stitch.staging) = true := by
  simp [closingAgrees, lastDigest, stagingNumber, staging, standby, keyed, lit, host]
  decide
def ackCmd : Running := ⟨Op.stitch, 5, 7, false, 0, Time.ms 1, .stitchAck [1], false⟩
/-- The holder whose STITCH waits for the acknowledgement. -/
def acking : State :=
  { activeUnit with stitch := { ackDue := some (1, 5) }, now := 9
                    host := { host.host with rings := [(0, { ring0 with cmdCons := 1, running := some ackCmd })] } }
def msg0 : SeamHdr := { msg with lane := 0 }
theorem wit_Ack : hears false msg0 0 acking ∧ acking.twin.paired = true ∧ acking.twin.held = true ∧ acking.stitch.ackDue ≠ none ∧ [9] ≠ [] ∧
    0 < 16 ∧ (ringOf acking .a 0).running = some ackCmd ∧ ackCmd.wait = .stitchAck [1] ∧ ackCmd.discard = false ∧ linkOf acking .a = true ∧
    acking.stitch.ackDue = some (1, 5) ∧ 5 ≤ acking.now + 0 := by decide +kernel
def following (r : Role) : State :=
  { standby r with twin := { (standby r).twin with aligned := true, resyncStep := 6, basesFit := List.range 8, lastCause := 0, imageNext := 2 } }
theorem wit_Grid : hears false msg 0 (following .armed) ∧ (following .armed).twin.paired = true ∧ (following .armed).twin.held = false ∧
    (following .armed).twin.guardSince = none ∧ (following .armed).twin.aligned = true ∧ gridDiffers (following .armed) msg 5000000000 0 = false ∧
    gridDiffers (following .armed) msg 5000000000 1 = true := by decide +kernel
theorem wit_Grid_arms : hears false msg 0 (following .syncing) ∧ (following .syncing).twin.resyncStep = 6 ∧
    gridDiffers (following .syncing) msg 5000000000 0 = false ∧
    armReady { following .syncing with twin := { (following .syncing).twin with digestFit := true } } = true := by decide +kernel
theorem wit_Grid_drift : follows (following .disarmed) = true ∧ (following .disarmed).twin.aligned = true ∧
    (following .disarmed).twin.seamUp = true ∧ (following .disarmed).twin.lastDrift + Time.sec 1 ≤ (following .disarmed).now + 0 := by decide +kernel
theorem wit_Mirror : hears false msg 0 (following .armed) ∧ standsBy (following .armed) ∧ (chOf (following .armed) 8).ownDigest = some (5000000000, 77) ∧
    (cfgOf (following .armed)).has Kind.terminal 0 = true ∧
    (baseOf (following .armed) 0).st ≠ .unset ∧ compareOf (tick 0 (following .armed)) 0 (7 + 100 * 65536) .locked = some (100 * 65536) ∧
    compareOf (tick 0 (following .armed)) 0 (8 + 100 * 65536) .locked = some (100 * 65536 + 1) ∧
    ([((3 : Nat), (4 : Int), (5 : Int), (6 : Int)), (4, 5, 6, 7)].map (·.1)).Nodup := by decide +kernel
def imaging2 : State := { following .syncing with twin := { (following .syncing).twin with resyncStep := 2 } }
theorem wit_Mirror_image : hears false msg 0 imaging2 ∧ standsBy imaging2 ∧ awaitsImage imaging2 = true ∧ imaging2.twin.imageNext = 2 ∧
    imaging2.twin.keptStitches = [] := by decide +kernel
/-- The holder whose channel 8 has diverged three times from what the standby hears, and which may yield for it. -/
def diverging : State :=
  { activeUnit with
    stitch := { cfg := [(objKey Kind.device 0, { kind := Kind.device, num := 0, fields := [(Fld.devYieldDiverge, 1)] })] }
    pon := { channels := [(8, { st := .active, tallyRun := List.replicate 3 (true, true) })], terms := [(0, { ch := some 8, onu := some 3, st := .operational })] } }
theorem wit_Mirror_tally : hears false msg0 0 diverging ∧ diverging.twin.paired = true ∧ diverging.twin.held = true ∧ opTerms diverging 8 ≠ [] ∧
    (cfgOf diverging).on Kind.device 0 Fld.devYieldDiverge = true := by decide +kernel
theorem wit_Mirror_keys : keyPlace (following .armed) .east 0 0 ∧ keyPlace (following .armed) .west 3 700 :=
  ⟨⟨_, rfl, rfl, rfl⟩, ⟨by decide +kernel, by decide +kernel⟩⟩
/-! ### Frames, builds and bobbins -/

def term' (n : Nat) : Nat × Obj := (objKey Kind.terminal n, { kind := Kind.terminal, num := n, fields := [(Fld.trmTree, 4), (Fld.trmSerial, 70 + n)] })
/-- Terminals 0 to 4 on channel 8 with an express allocation 5 of terminal 0 with a fixed rate; a paired holder whose partner is ARMED. -/
def weaving : State :=
  { lit host with
    now := 100000000000000
    stitch := { cfg := (List.range 5).map term' ++
      [(objKey Kind.alloc 5, { kind := Kind.alloc, num := 5, fields := [(Fld.alTerm, 0), (Fld.alAllocId, 2000), (Fld.alFixed, 100), (Fld.alExpress, 1), (Fld.alHint, 50)] })] }
    twin := { (lit host).twin with paired := true, seamUp := true, yieldIn := false, role := .active }
    lane := { lanes := [(64, { up := true })] }
    pon := { gridOn := true, gridAt := 99999900000000, sf := 39, allocs := [(5, { bound := true, backlog := 900 })],
             terms := (List.range 5).map fun i => (i, { ch := some 8, onu := some (10 + i), st := .operational, rtd := 200000000 + i, eqd := 900 })
             channels := [(8, { st := .active, inbox := [⟨2000, 700, 35⟩], windowsDue := [{ kind := .ranging, term := some 3, len := Time.us 50 }], lastStep := none,
                                frOffsets := (List.range 5).map fun i => (i, 9000 + i), frExpected := 5, frMissed := 3, missFrames := 1 }), (9, {})] } }
theorem wit_Frames : weaving.pon.gridOn = true ∧ weaving.pon.gridAt + Time.frame ≤ weaving.now + Time.us 25 ∧
    (weaving.pon.channels.map (·.1)).Nodup ∧ inStep (tick 0 weaving) 8 = true ∧ sendsFrames (tick 0 weaving) 8 = true ∧
    inStep (tick 0 weaving) 9 = false ∧ weaving.now + 0 < weaving.pon.gridAt + Time.frame ∧ seamLane? (tick 0 weaving) 0 = some 0 := by decide +kernel
theorem wit_Frames_step : (chOf weaving 8).st = .active ∧ (weaving.pon.terms.map (·.1)).Nodup ∧ directStep (chOf weaving 8).frOffsets = some 9002 ∧
    chTerms weaving 8 = [0, 1, 2, 3, 4] := by decide +kernel
def missing : State := modCh 8 (fun x => { x with frOffsets := [] }) weaving
theorem wit_Frames_misses : (chOf missing 8).st = .active ∧ directStep (chOf missing 8).frOffsets = none ∧ frameMissed (chOf missing 8) = true ∧
    (chOf missing 8).search = none ∧ (chOf missing 8).los = false := by decide +kernel
def searching (second : Bool) : State := modCh 8 (fun x => { x with search := some ⟨second, [0, 1], some 5⟩ }) weaving
theorem wit_Frames_search (b : Bool) : (chOf (searching b) 8).search = some ⟨b, [0, 1], some 5⟩ ∧ 5 ≤ (searching b).now + 0 ∧
    ((searching b).pon.terms.map (·.1)).Nodup := by cases b <;> decide +kernel
theorem wit_Frames_answers : agreedStep [30, 9000, 9100] = some 9000 ∧ agreedStep [30, 9000] = none := by decide +kernel
theorem wit_Build : weaving.pon.gridOn = true ∧ buildsMaps weaving 8 = true ∧ buildFree weaving 8 = true ∧
    nextFrame weaving ≤ weaving.now + 0 + Time.us 40 ∧ shadows weaving 8 = false ∧ (bobOf weaving 8).quarantined = false := by decide +kernel
/-- The unit of `weaving` as a standby. -/
def shadowing : State :=
  { modCh 8 (fun x => { x with st := .shadow, isProtected := true }) weaving with twin := { weaving.twin with held := false, role := .armed } }
theorem wit_Build_shadow : shadowing.pon.gridOn = true ∧ shadows shadowing 8 = true ∧ buildFree shadowing 8 = true ∧
    nextFrame shadowing ≤ shadowing.now + 0 + Time.us 30 ∧ (bobOf shadowing 8).quarantined = false := by decide +kernel
/-- Channels 8 and 10 build, 8 with a batch exposed; the bobbin of channel 11 is awake and done. -/
def building : State :=
  modBob 11 (fun x => { x with dozing := false }) <| modCh 11 (fun x => { x with st := .active, nextMap := some { sf := 40 } })
    (modCh 8 (fun x => { x with build := some { ch := 8, carry := 40, t := 99999900000000 + Time.frame, reports := 1, active := 6, batches := 2,
                                                map := { sf := 40, bursts := [⟨0, 10, 1000, 500, .r49, 0, false, [{ allocId := 2000, alloc := some 5, term := some 0, bytes := 100, fixed := 60, start := 1000 }]⟩],
                                                         windows := [⟨.discovery, none, .r49, 99999900000000, 5⟩] } } })
      weaving)
theorem wit_Build_done : ((chOf building 8).build.map fun b => decide (building.now + 0 + deadlineLead building 8 ≤ b.t)) = some true ∧
    (bobOf building 8).quarantined = false ∧ restsNow (finishBuild 8 { ch := 8, carry := 40, t := 99999900000000 + Time.frame, reports := 1, active := 6, batches := 2, map := { sf := 40 } } building) 8 = true := by
  decide +kernel
theorem wit_Build_late : building.pon.gridOn = true ∧ buildsMaps building 8 = true ∧ (chOf building 8).nextMap = none ∧
    nextFrame building ≤ building.now + Time.us 5 + deadlineLead building 8 ∧ ctrVal building 7 8 Cn.mapLate + 1 < 2 ^ 48 := by decide +kernel
theorem wit_Build_steal : stealsNow building 11 = true ∧ preferred building 11 = some 8 ∧ (chOf building 8).build ≠ none ∧
    ctrVal building 6 11 Cn.steals + 1 < 2 ^ 48 := by decide +kernel
theorem wit_Build_wake : (8 :: (bobOf weaving 8).serves).any (buildsMaps weaving) = true ∧ nextFrame weaving ≤ weaving.now + 0 + Time.us 41 := by
  decide +kernel
theorem wit_BudgetPeriod : weaving.pon.gridOn = true ∧ weaving.pon.sf.toNat % 8 = 7 ∧ weaving.pon.channels.sorted = true := by decide +kernel
theorem wit_BudgetPeriod_not : host.pon.gridOn = false := by decide +kernel
theorem wit_Hint : serves Op.hint h0 weaving ∧ (cfgOf weaving).has Kind.alloc 5 = true ∧ (cfgOf weaving).on Kind.alloc 5 Fld.alExpress = true ∧
    ¬ (frameAt weaving 43 < weaving.now + 0 + Time.us 45) ∧ frameAt weaving 40 < weaving.now + 0 + Time.us 45 ∧ hintRevoked weaving 5 43 = false := by
  decide +kernel
def lastBob : State := { weaving with pon := { weaving.pon with bobbins := ((List.range 32).filter (· ≠ 8)).map fun i => (i, { quarantined := true }) } }
theorem wit_BobbinFault : (bobOf weaving 8).quarantined = false ∧ (clusterBobs weaving (clusterOf 8)).filter (· ≠ 8) ≠ [] ∧
    (bobOf lastBob 8).quarantined = false ∧ (clusterBobs lastBob (clusterOf 8)).filter (· ≠ 8) = [] ∧ (bobOf lastBob 7).quarantined = true := by
  decide +kernel
/-! ### Bursts, terminals and channels -/

def item (n : Nat) : CueItem := { term := 0, onu := 10, rate := .r49, profile := 0, short := true, arrival := 100000000000000 - n, dur := 500, sf := 39 }
/-- Channel 8 with an item that is received and one that waits; a FRESH record of terminal 0. -/
def lane8 : State :=
  { modCh 8 (fun x => { x with cue := [{ item 9000000 with cued := true, preloaded := true, swapped := true }, { item 2 with term := 1, onu := 11 }]
                               los := false, losFrames := 8, receiver := some 0, shadow := some 1 }) weaving with
    pon := { (modCh 8 (fun x => { x with cue := [{ item 9000000 with cued := true, preloaded := true, swapped := true }, { item 2 with term := 1, onu := 11 }]
                                         losFrames := 8, receiver := some 0, shadow := some 1 }) weaving).pon with
             fits := [(0, { st := .fresh, conf := 255, work := List.replicate 12 3, snap := List.replicate 12 3 }), (1, { st := .fresh, lastAdapt := 1, slot := 4 })] } }
theorem wit_Cue : (chOf lane8 8).cue.find? (fun c => !c.cued) = some { item 2 with term := 1, onu := 11 } ∧ (chOf lane8 8).st ≠ .dark ∧
    (chOf lane8 8).st ≠ .faulted ∧ (chOf lane8 8).cue.find? (fun c => !c.preloaded) ≠ none ∧ lanesReceive lane8 8 = true ∧
    directed { item 2 with term := 1, onu := 11 } = true := by decide +kernel
def swapping : State := modCh 8 (fun x => { x with cue := [{ item 5 with preloaded := true, rate := .r24 }] }) lane8
theorem wit_Swap : (chOf swapping 8).cue.find? (fun c => c.preloaded && !c.swapped) = some { item 5 with preloaded := true, rate := .r24 } ∧
    lanesReceive swapping 8 = true := by decide +kernel
def heard10 : BurstObs := { onu := 10, cws := [{ corrected := 1, upd := [(3, 1)] }, { ok := false }], bits := 400000, reports := [⟨2000, 50, 0⟩] }
theorem wit_Burst : (chOf lane8 8).cue.head? = some { item 9000000 with cued := true, preloaded := true, swapped := true } ∧ directed (item 0) = true ∧
    (chOf lane8 8).lol = false ∧ classOf (item 0) heard10 = .accepted ∧ classOf (item 0) { heard10 with onu := 12 } = .foreign ∧
    classOf (item 0) { heard10 with delim := some 32001 } = .preloadFailure ∧ classOf (item 0) { energy := false } = .absent ∧
    ctrVal lane8 7 8 (classCounter .accepted) + 1 < 2 ^ 48 ∧ ctrVal lane8 10 0 Cn.termAccepted + 1 < 2 ^ 48 ∧
    ctrVal lane8 10 0 Cn.lostBursts + 1 < 2 ^ 48 ∧ (termOf lane8 0).fitReset = none ∧ countsLoss lane8 8 0 = true ∧
    (∀ r, r ∈ heard10.reports → cwOk heard10 r.cw = true) ∧ (chOf lane8 8).inbox.length + heard10.reports.length ≤ Config.inboxMax := by decide +kernel
theorem wit_Burst_context : classOf (item 0) { heard10 with ctx := { reload := some (0, false) } } = .accepted ∧ (termOf lane8 0).st = .operational ∧
    (termOf lane8 0).ctxLost = false ∧ ctxGood lane8 slotData 0 { reload := some (0, false) } = false := by decide +kernel
def unlocked8 : State := modCh 8 (fun x => { x with lol := true }) lane8
theorem wit_Burst_lol : (chOf unlocked8 8).lol = true ∧ unlocked8.pwr.refFault.getD (quadrantOf 8) false = false ∧ (chOf unlocked8 8).cue ≠ [] := by
  decide +kernel
theorem wit_Burst_los : (chOf lane8 8).los = false ∧ 8 ≤ (chOf lane8 8).losFrames := by decide +kernel
/-- Terminal 2 has `bad` of 1,000 codewords uncorrectable, with an alarm standing for two quiet intervals. -/
def erring (bad : Nat) : State := modTerm 2 (fun x => { x with cwTotal := 1000, cwBad := bad, degRun := 2, degraded := decide (bad = 0) }) lane8
theorem wit_Ber : (termOf (erring 999) 2).ch = some 8 ∧ (termOf (erring 999) 2).berAt + Time.sec 1 ≤ (erring 999).now + 0 ∧
    (termOf (erring 999) 2).cwTotal ≠ 0 ∧ chValN (erring 999) 8 Fld.chDegM * 1000 < 999 * 10 ^ chValN (erring 999) 8 Fld.chDegN ∧
    0 * 10 ^ chValN (erring 0) 8 Fld.chDegN < chValN (erring 0) 8 Fld.chDegM * 1000 ∧ (termOf (erring 0) 2).degRun = 2 ∧
    chValN (erring 999) 8 Fld.chFailM * 1000 < 999 * 10 ^ chValN (erring 999) 8 Fld.chFailN := by decide +kernel
def aged : State := { lane8 with pon := { lane8.pon with sf := 4000000000 } }
theorem wit_Sweep : aged.pon.fits.find? 1 = some { st := .fresh, lastAdapt := 1, slot := 4 } ∧
    discardDue aged 1 { st := .fresh, lastAdapt := 1, slot := 4 } = true := by decide +kernel
theorem wit_FitReset : serves Op.fittingReset h0 lane8 ∧ (cfgOf lane8).has Kind.terminal 0 = true ∧ lane8.pon.fits.find? 0 ≠ none ∧
    receiving lane8 0 = true ∧ receiving lane8 1 = false ∧ (cfgOf lane8).has Kind.terminal 3 = true ∧ lane8.pon.fits.find? 3 = none := by decide +kernel

/-- Terminal 4 of `weaving` in this state; channel 8 QUIET and awake. -/
def activating (x : Terminal) : State := modCh 8 (fun c => { c with st := .quiet, awake := true }) (modTerm 4 (fun _ => x) weaving)
theorem wit_Serial : takesAnswers (tick 0 (activating {})) 8 = true ∧ termOfSerial (activating {}) (treeOf 8) 99 = none ∧
    rateEnt? (activating {}) Ev.unknownSerial 99 = none ∧ termOfSerial (activating {}) (treeOf 8) 74 = some 4 ∧ (termOf (activating {}) 4).st = .absent ∧
    (allowedChannels (cfgOf (activating {})) 4).contains 8 = true ∧ isWide 8 = true ∧ grantedRate (activating {}) 4 8 .r49 = some .r49 ∧
    chooseOnu (activating {}) 4 = some 0 ∧ ctrVal (activating {}) 7 8 Cn.duplicateDiscovery + 1 < 2 ^ 48 := by decide +kernel
theorem wit_Serial_dup : registered (termOf (activating { st := .ranged, ch := some 9 }) 4).st = true ∧
    (termOf (activating { st := .ranged, ch := some 9 }) 4).ch ≠ some 8 ∧ (termOf (activating { st := .disabled }) 4).st = .disabled := by decide +kernel
def at8 (st : TermState) : Terminal := { st := st, ch := some 8, onu := some 14 }
theorem wit_Registration : followsHolder (activating (at8 .assigned)) 4 = false ∧ (termOf (activating (at8 .assigned)) 4).st = .assigned ∧
    (termOf (activating (at8 .assigned)) 4).ch = some 8 ∧ (termOf (activating (at8 .assigned)) 4).onu = some 14 ∧
    hasPloamQueue (chOf (activating (at8 .assigned)) 8).st = true := by decide +kernel
def ranged : State := activating { at8 .ranged with rangingAt := some 7 }
theorem wit_Acknowledge : followsHolder ranged 4 = false ∧ (termOf ranged 4).st = .ranged ∧ registered (termOf ranged 4).st = true ∧
    activationOver (tick 0 ranged) 4 = true := by decide +kernel
def correcting : State := activating { at8 .operational with corr := some ⟨4000, 5, false⟩, drift := [1] }
theorem wit_Correction : followsHolder correcting 4 = false ∧ (termOf correcting 4).st = .operational ∧ (termOf correcting 4).corr = some ⟨4000, 5, false⟩ ∧
    5 + Time.ms 10 ≤ correcting.now + 0 := by decide +kernel
def losing : State := activating { at8 .operational with lostRun := 8, lostSince := 99000000000000 }
theorem wit_BurstLoss : burstsLost (tick 0 losing) 4 = true ∧ followsHolder losing 4 = false ∧ (termOf losing 4).underTest = false := by decide +kernel
def searching8 : State := activating (at8 .searching)
theorem wit_Lost : (termOf searching8 4).st = .searching ∧ followsHolder searching8 4 = false ∧
    (termOf searching8 4).enteredAt + Time.ms ((cfgOf searching8).valN Kind.tree (termTree searching8 4) Fld.treeLossMs) ≤ searching8.now + 0 := by
  decide +kernel
theorem wit_Enable : serves Op.terminalEnable h0 (activating { st := .disabled }) ∧ (cfgOf (activating {})).has Kind.terminal 4 = true := by decide +kernel

/-- Channel 8 of `weaving` changed by a function. -/
def chan (f : Channel → Channel) : State := modCh 8 f weaving
theorem wit_Discovery : (chOf weaving 8).discNext ≤ weaving.now + 0 ∧ (chOf weaving 8).st = .active ∧ discoveryBlocked weaving 8 = false ∧
    discoveryBlocked (searching false) 8 = true ∧ ctrVal weaving 7 8 Cn.postponedDiscovery + 1 < 2 ^ 48 := by decide +kernel
theorem wit_Channel_active : (chOf (chan fun x => { x with st := .starting, framesSent := 8 }) 8).st = .starting := by decide +kernel
def empty8 : State := { weaving with pon := { weaving.pon with terms := [] } }
theorem wit_Channel_quiet : (chOf empty8 8).st = .active ∧ chTerms empty8 8 = [] ∧ (chOf empty8 8).lastRegistered + Time.sec 1 ≤ empty8.now + 0 := by
  decide +kernel
def asleep8 : State := chan fun x => { x with st := .quiet, discNext := 100000000000000 + Time.ms 11 }
theorem wit_Channel_wake : (chOf asleep8 8).st = .quiet ∧ (chOf asleep8 8).awake = false ∧ (chOf asleep8 8).discNext ≤ asleep8.now + 0 + Time.ms 11 := by
  decide +kernel
def over8 : State := chan fun x => { x with st := .quiet, awake := true, windowsDue := [], discNext := 100000000000000 + Time.ms 12 }
theorem wit_Channel_sleep : (chOf over8 8).st = .quiet ∧ (chOf over8 8).awake = true ∧ windowsOver (tick 0 over8) 8 = true ∧ staysAwake over8 8 = false := by
  decide +kernel
def drained8 : State := chan fun x => { x with st := .draining, drainFrom := some 5, ploam := [.systemProfile], rogue := some {} }
theorem wit_Channel_dark : (chOf drained8 8).drainFrom = some 5 ∧ (chOf drained8 8).st = .draining ∧
    boundaryFrom drained8 (drainEnd (chOf drained8 8) 5) ≤ drained8.now + 0 := by decide +kernel
def yieldsForChannel : State :=
  { weaving with stitch := { cfg := (objKey Kind.device 0, { kind := Kind.device, num := 0, fields := [(Fld.devYieldChannel, 1)] }) :: weaving.stitch.cfg } }
theorem wit_Channel_fault : (chOf yieldsForChannel 8).st ≠ .dark ∧ (chOf yieldsForChannel 8).st ≠ .faulted ∧ yieldsForChannel.twin.held = true ∧
    (cfgOf yieldsForChannel).on Kind.device 0 Fld.devYieldChannel = true ∧ shadowing.twin.held = false := by decide +kernel
theorem wit_Sleep : registered (termOf weaving 0).st = true ∧ (termOf weaving 0).ch = some 8 ∧ (termOf weaving 0).onu = some 10 ∧
    hasPloamQueue (chOf weaving 8).st = true := by decide +kernel
def micBad : State := modTerm 0 (fun x => { x with micFails := List.replicate 17 99999999999999 }) weaving
theorem wit_Mic : 16 < ((termOf micBad 0).micFails.filter fun k => decide (micBad.now + 0 < k + Time.sec 1)).length ∧
    (termOf micBad 0).micHigh = false ∧ rateEnt? micBad Ev.ploamIntegrity 0 = none := by decide +kernel
def backlog8 : State := chan fun x => { x with ploam := List.replicate 1023 .systemProfile, ploamHeld := [.channelProfile, .systemProfile] }
theorem wit_Backlog : (chOf backlog8 8).ploam.length ≤ Config.ploamMax := by decide +kernel
def unacked (n : Nat) : State := modTerm 0 (fun x => { x with profAckDue := some 5, profResends := n }) weaving
theorem wit_Profile : (termOf (unacked 2) 0).profAckDue = some 5 ∧ (termOf (unacked 3) 0).profAckDue = some 5 ∧ 5 ≤ (unacked 2).now + 0 ∧
    (termOf (unacked 2) 0).profResends < 3 ∧ ¬ (termOf (unacked 3) 0).profResends < 3 := by decide +kernel
/-- Three foreign bursts named ONU-ID 11; the tree isolates by itself. -/
def suspected : State :=
  { chan (fun x => { x with foreign := List.replicate 3 (11, 99999999999999) }) with
    stitch := { cfg := (objKey Kind.tree 4, { kind := Kind.tree, num := 4, fields := [(Fld.treeRogueAuto, 1)] }) :: weaving.stitch.cfg } }
theorem wit_Rogue : (chOf suspected 8).rogue = none ∧ (chOf suspected 8).st = .active ∧ foreignNamed (chOf suspected 8) (suspected.now + 0) = some 11 ∧
    autoIsolates suspected 8 = true ∧ termOfOnu suspected 8 11 = some 1 ∧ autoIsolates shadowing 8 = false := by decide +kernel
def tested (l : List Nat) : State :=
  modTerm 1 (fun x => { x with st := .disabled, underTest := true }) (chan fun x => { x with rogue := some { candidates := l, current := some 1, since := 30 } })
theorem wit_Rogue_check (l : List Nat) : (chOf (tested l) 8).rogue = some { candidates := l, current := some 1, since := 30 } ∧
    2 ≤ ((tested l).pon.sf - 30).toNat := ⟨rfl, by show 2 ≤ ((39 : SF) - 30).toNat; decide⟩

/-! ### The stitch window, banks and moves -/

/-- A frame of a flow. -/
def frameOf (n : Nat) : Frame := { bytes := List.replicate 64 0, kind := .flow n, stitch := 0, arrival := 0 }
def chan9 (on : Int) : Nat × Obj := (objKey Kind.channel 9, { kind := Kind.channel, num := 9, fields := [(Fld.chEnable, on)] })
def flow3 : Nat × Obj := (objKey Kind.flow 3, { kind := Kind.flow, num := 3, fields := [(Fld.flTerm, 0), (Fld.flQueue, 40)] })
/-- Stitch 1 deletes flow 3 and terminal 2, and enables channel 9. -/
def stitch1 : PendStitch :=
  { number := 1, b1 := 100000000000000, b2 := 100000000000000 + Time.us 125, digest := 77,
    recs := [⟨{ op := 3, kind := Kind.flow, handle := 3 }, 3, none, 0, []⟩, ⟨{ op := 3, kind := Kind.terminal, handle := 2 }, 2, none, 1, []⟩,
             ⟨{ op := 2, kind := Kind.channel, handle := 9, fields := [(Fld.chEnable, 1)] }, 9, none, 2, [(Fld.chEnable, 1)]⟩] }
/-- The unit of `weaving` with stitch 1 pending: queue 40 holds a frame of flow 3 and one of flow 4. -/
def dueStitch : State :=
  { weaving with
    stitch := { cfg := chan9 0 :: weaving.stitch.cfg ++ [flow3], pend := [stitch1] }
    q := { queues := [(40, { frames := [frameOf 3, frameOf 4], oldFrames := [frameOf 3] })] } }
theorem wit_Stitch_opens : dueStitch.stitch.pend.head? = some stitch1 ∧ stitch1.opened = false ∧ stitch1.b1 ≤ dueStitch.now + 0 ∧
    (Kind.flow, 3) ∈ stitchRefs stitch1 ∧ isClosing (revokeCfg dueStitch.stitch.cfg stitch1) Kind.flow 3 = true ∧
    (Kind.terminal, 2) ∈ stitchRefs stitch1 ∧ (openCfg dueStitch.stitch.cfg stitch1).has Kind.terminal 2 = false ∧
    registered (termOf dueStitch 2).st = true := by decide +kernel
/-- The window of stitch 1 is open. -/
def openAt (p : PendStitch) : State := { dueStitch with stitch := { dueStitch.stitch with cfg := revokeCfg dueStitch.stitch.cfg stitch1, pend := [p] } }
def opened1 : PendStitch := { stitch1 with opened := true }
theorem wit_Stitch_waits : ∀ p, (openAt opened1).stitch.pend.head? = some p → p.opened = true ∨ (openAt opened1).now + 0 < p.b1 := by
  intro p h; left; cases h; rfl
theorem wit_Stitch_checks : (openAt opened1).stitch.pend.head? = some opened1 ∧ opened1.opened = true ∧ opened1.checked = false ∧
    opened1.b1 + Time.us 100 ≤ (openAt opened1).now + Time.us 100 ∧ canLag (openAt opened1) (locBobbin 8) = true := by decide +kernel
def late1 : PendStitch := { opened1 with checked := true, late := true, b2 := opened1.b1 + Time.us 250 }
theorem wit_Stitch_quarantines : (openAt late1).stitch.pend.head? = some late1 ∧ late1.opened = true ∧ late1.late = true ∧ late1.quarantined = [] ∧
    late1.b1 + Time.us 240 ≤ (openAt late1).now + Time.us 240 ∧ canLag (openAt late1) (locBobbin 8) = true ∧ locType (locBobbin 8) = 1 ∧
    canLag (openAt late1) (locPan .east true) = true ∧ locPlace (locPan .east true) % 2 = 1 ∧ locType (locLane 5) = 3 ∧
    canLag (openAt late1) (locLane 5) = true ∧ canLag (openAt late1) (locFmtBank .west 2) = true ∧ locType (locFmtBank .west 2) = 4 ∧
    locType (locSlot .east 7) = 5 ∧ canLag (openAt late1) (locSlot .east 7) = true := by decide +kernel
theorem wit_Stitch_closes : (openAt opened1).stitch.pend.head? = some opened1 ∧ opened1.opened = true ∧ opened1.b2 ≤ (openAt opened1).now + Time.us 125 ∧
    (Kind.channel, 9) ∈ stitchRefs opened1 ∧
    rises (openAt opened1).stitch.cfg (openCfg (openAt opened1).stitch.cfg opened1) Kind.channel 9 Fld.chEnable = true ∧
    (chOf (openAt opened1) 9).st = .dark := by decide +kernel
def rowObj (n : Nat) : Nat × Obj := (objKey Kind.row n, { kind := Kind.row, num := n, fields := [(Fld.rwPriority, 5)] })
/-- A stitch that creates row 7 and deletes row 6 waits; row 6 is written. -/
def bankDue : State :=
  { host with
    stitch := { cfg := [rowObj 6],
                pend := [{ number := 1, b1 := Time.sec 9, b2 := Time.sec 10,
                           recs := [⟨{ op := 1, kind := Kind.row }, 7, none, 0, [(Fld.rwPriority, 9)]⟩, ⟨{ op := 3, kind := Kind.row, handle := 6 }, 6, none, 1, []⟩] }] }
    tab := { rows := [(6, { phys := 0 })] } }
theorem wit_Bank_written : bankDue.stitch.pend.find? (fun x => !x.opened) = bankDue.stitch.pend.head? ∧ bankDue.stitch.pend ≠ [] ∧
    bankIsWritten bankDue .east = false ∧ bankDue.stitch.oldBanks.find? (dieNum .east) = none := by decide +kernel
/-- East holds an old bank in which row 6 was and row 7 was not. -/
def oldBank : State :=
  { bankDue with stitch := { bankDue.stitch with oldBanks := [(0, ⟨0, [], 0⟩)], bankWritten := [(0, true)] }
                 tab := { rows := [(6, { phys := 0, inNew := false }), (7, { phys := 1, inOld := false })]
                          recirc := [(1, [⟨frameOf 3, 2, 40⟩])] } }
theorem wit_Bank_kept : bankIsWritten oldBank .east = true ∧
    oldBank.stitch.oldBanks.find? (dieNum .east) = some ⟨0, [], 0⟩ ∧ 0 + Time.us 20 ≤ oldBank.now + Time.us 20 := by decide +kernel
def moving3 : Place := { kind := Kind.flow, num := 3, loc := locLane 5, moving := some (locLane 6), faultMove := true, moves := 4 }
def movingQ : Place := { kind := Kind.queue, num := 40, loc := locPan .east false, moving := some (locPan .east true) }
/-- Flow 3 moves off a faulted lane and is held closed; queue 40 moves to the deep pan; flow 4 stands on lane 9, above 90 % for long. -/
def movers : State :=
  { dueStitch with stitch := { dueStitch.stitch with pend := [], heldObjs := [(Kind.flow, 3)], places := [moving3, movingQ, { kind := Kind.flow, num := 4, loc := locLane 9 }] }
                   ciph := { dueStitch.ciph with loadSince := [(9, 5)], loads := [(9, 95)], pools := [(1, { st := .run }), (0, { st := .run })] } }
theorem wit_Move_done : placeOf? movers Kind.flow 3 = some moving3 ∧ moving3.moving = some (locLane 6) ∧ Kind.flow ≠ Kind.queue ∧
    ctrVal movers 0 (dieNum (dieOfLoc (locLane 6))) (if moving3.faultMove then Cn.movesFault Kind.flow else Cn.movesLoad Kind.flow) + 1 < 2 ^ 48 ∧
    placeOf? movers Kind.queue 40 = some movingQ ∧ movingQ.moving = some (locPan .east true) ∧ (queueOf movers 40).oldFrames ≠ [] := by decide +kernel
theorem wit_Load : movers.ciph.loadSince.find? 9 = some 5 ∧ 5 + Time.ms 10 ≤ movers.now + 0 ∧
    (movableOn movers 9).head? = some { kind := Kind.flow, num := 4, loc := locLane 9 } ∧
    laneChoices { movers with ciph := { movers.ciph with loads := movers.ciph.loads.set 9 95 } } (dieOfLoc (locLane 9))
      (locLane 9 :: (objOr (cfgOf movers) Kind.flow 4).forbid) ≠ [] := by decide +kernel

/-! ### Pipelines, queues and launches -/

/-- An untagged frame of an unknown EtherType to address 0x020000000009. -/
def plain9 : List Byte := [2, 0, 0, 0, 0, 9, 2, 0, 0, 0, 0, 7, 0x90, 0] ++ List.replicate 50 0
def row7 (f : List (Nat × Int)) : Nat × Obj := (objKey Kind.row 7, { kind := Kind.row, num := 7, fields := (Fld.rwTenant, 2) :: (Fld.rwDir, 1) :: (Fld.rwPriority, 5) :: f })
def upCfg : Cfg :=
  [term' 0, (objKey Kind.tenant 2, { kind := Kind.tenant, num := 2, fields := [(Fld.tnPolicy 1 6, 2)] })] ++
  [(objKey Kind.flow 3, { kind := Kind.flow, num := 3, fields := [(Fld.flTerm, 0), (Fld.flTenant, 2), (Fld.flQueue, 40)] }),
   (objKey Kind.vlan (4096 * 2), { kind := Kind.vlan, num := 4096 * 2, fields := [(Fld.vlLearn, 0)] })]
/-- Terminal 0 of tree 4 sends frames of tenant 2 on flow 3; address 9 lies behind port 1, which is up; frames wait for a second pass. -/
def piping : State :=
  { weaving with
    stitch := { cfg := upCfg }
    tab := { fmtE := [{ mac := 0x020000000009, vid := 0, tenant := 2, dtype := 1, dvalue := 1, hit := true }] }
    lane := { subports := [(1, { up := true })] } }
def toPort1 : FmtEntry := { mac := 0x020000000009, vid := 0, tenant := 2, dtype := 1, dvalue := 1, hit := true }
theorem wit_Pass_down : portUp piping 0 = false ∧ portUp piping 1 = true ∧ macsecOn piping 1 = false ∧
    portTenant (bankCfg piping) (dieOfPort 1) 1 plain9 = none ∧ (bankCfg piping).valN Kind.tenant 0 (Fld.tnPolicy (dirNum .down) 5) ≠ 1 ∧
    ctrVal piping 8 1 Cn.rxFrames + 1 < 2 ^ 48 := by decide +kernel
/-- The same with MACsec on port 1. -/
def secured : State :=
  { piping with stitch := { cfg := upCfg ++ [(objKey Kind.subport 1, { kind := Kind.subport, num := 1, fields := [(Fld.spMacsec, 1)] })] } }
/-- Port 1 with a receive association 40 and a replay window of 10 packets below the number 100. -/
def secIn : State :=
  { secured with
    stitch := { cfg := upCfg ++ [(objKey Kind.subport 1, { kind := Kind.subport, num := 1, fields := [(Fld.spMacsec, 1), (Fld.spReplay, 1), (Fld.spWindow, 10)] }),
                                 (objKey Kind.sa 40, { kind := Kind.sa, num := 40, fields := [(Fld.saEnabled, 1)] })] }
    ciph := { slots := [(0, { kind := slotSak, owner := 40 })], assocs := [(40, { pn := 100 })] } }
theorem wit_Pass_tag : portUp secIn 1 = true ∧ macsecOn secIn 1 = true ∧ assocNum 1 1 0 = 40 ∧ assocUsable secIn 1 40 = true ∧
    assocUsable secIn 1 41 = false ∧ ctxGood secIn slotSak 40 { reload := some (1, true) } = false ∧
    ctxGood secIn slotSak 40 { reload := some (0, true) } = true ∧ replayed secIn 1 40 89 = true ∧ replayed secIn 1 40 90 = false ∧
    isMka plain9 = false ∧ isMacControl plain9 = false ∧ isMacControl (List.replicate 12 0 ++ [0x88, 0x08] ++ List.replicate 50 0) = true := by decide +kernel
theorem wit_Pass_icv : portUp secured 1 = true ∧ macsecOn secured 1 = true ∧ ctrVal secured 8 1 Cn.rxBytes + plain9.length < 2 ^ 48 := by decide +kernel
theorem wit_Pass_up : (bankCfg piping).live Kind.flow 3 = true ∧ (bankCfg piping).live Kind.flow 4 = false ∧ loopBlocked piping 3 plain9 = false ∧
    loopBlocked { piping with svc := { blocked := [(3, 0)] } } 3 plain9 = true := by decide +kernel
theorem wit_Pass_forward : let p := upFirst (tick 0 piping) 3 plain9
    p.parse.exc = none ∧ lenExc plain9 p.parse = none ∧ p.trap = none ∧ searchRows piping p.cfg p.die true p.key p.wide = [] ∧
    excAction p 6 = 2 ∧ policerFor p none = none ∧ p.cfg.has Kind.vlan (2 ^ 18 * dieNum p.die + 4096 * p.tenant + p.vid) = true ∧
    p.cfg.on Kind.vlan (2 ^ 18 * dieNum p.die + 4096 * p.tenant + p.vid) Fld.vlLearn = false ∧
    fmtLookup piping p (rd plain9 0 6) = some toPort1 ∧ toPort1.dtype = 1 ∧ portUp piping 1 = true ∧
    piping.tab.recirc = [] ∧ piping.tab.exits = [] := by decide +kernel
/-- Row 7 takes every frame of tenant 2. -/
def rowed (f : List (Nat × Int)) : State :=
  { piping with stitch := { cfg := upCfg ++ [row7 f] }, tab := { piping.tab with rows := [(7, { phys := 3 })] } }
def rowDrop : State := rowed [(Fld.rwDisposition, 1)]
def hit7 : Hit := ⟨7, 7, 3, 5⟩
theorem wit_Pass_row : let p := upFirst (tick 0 rowDrop) 3 plain9
    (bankCfg rowDrop).live Kind.flow 3 = true ∧ loopBlocked rowDrop 3 plain9 = false ∧ p.parse.exc = none ∧ lenExc plain9 p.parse = none ∧
    p.trap = none ∧ searchRows rowDrop p.cfg p.die true p.key p.wide = [hit7] ∧ p.cfg.val Kind.row 7 Fld.rwRecirc < 0 ∧
    policerFor p (some hit7) = none ∧ p.cfg.valN Kind.row 7 Fld.rwDisposition = 1 := by decide +kernel
def rowAgain : State := rowed [(Fld.rwRecirc, 0)]
theorem wit_Pass_again : let p := upFirst (tick 0 rowAgain) 3 plain9
    (bankCfg rowAgain).live Kind.flow 3 = true ∧ loopBlocked rowAgain 3 plain9 = false ∧ p.parse.exc = none ∧ lenExc plain9 p.parse = none ∧
    searchRows rowAgain p.cfg p.die true p.key p.wide = [hit7] ∧ 0 ≤ p.cfg.val Kind.row 7 Fld.rwRecirc := by decide +kernel
def waiting3 (st : StitchNo) : Recirc := ⟨{ frameOf 3 with bytes := plain9, dir := .up, tenant := 2, ingress := 3, stitch := st }, 0, 14⟩
/-- Two frames wait for their second pass, the first of a bank that is gone or of the one in use. -/
def second (st : StitchNo) : State := { rowAgain with tab := { rowAgain.tab with recirc := [(4, [waiting3 st, waiting3 0])] } }
theorem wit_Second_gone : (second 9).tab.recirc.getD (pipeKey .east .up 0) [] = [waiting3 9, waiting3 0] ∧
    bankOf (second 9) .east 9 = none ∧ (second 9).tab.recirc.getD (pipeKey .east .up 1) [] = [] := by decide +kernel
theorem wit_Second_again :
    let p : Pass := { die := .east, dir := .up, cfg := bankCfg (second 0), stitch := 0, frame := (waiting3 0).frame, second := some (0, 14), pipe := 0 }
 (second 0).tab.recirc.getD (pipeKey .east .up 0) [] = [waiting3 0, waiting3 0] ∧
    bankOf (second 0) .east 0 = some (bankCfg (second 0)) ∧ p.parse.exc = none ∧ lenExc plain9 p.parse = none ∧
    searchRows (second 0) p.cfg .east (p.newBank (second 0)) p.key p.wide = [hit7] ∧ 0 ≤ p.cfg.val Kind.row 7 Fld.rwRecirc ∧
    excAction p 7 ≠ 1 := by decide +kernel
def windowed : State := { piping with tab := { piping.tab with holds := [⟨.east, 2, 0, 9, 3, 5, false⟩] } }
theorem wit_Hold : holdOf windowed .east 2 0 9 = some ⟨.east, 2, 0, 9, 3, 5, false⟩ ∧ (5 : Nat) + Time.ms 1 ≤ windowed.now + 0 := by decide +kernel
theorem wit_Age : piping.tab.lastAge.getD (dieNum .west) 0 + Time.sec ((cfgOf piping).valN Kind.die (dieNum .west) Fld.dieAgeS) ≤ piping.now + Time.sec 200 ∧
    ¬ (piping.tab.lastAge.getD (dieNum .west) 0 + Time.sec ((cfgOf piping).valN Kind.die (dieNum .west) Fld.dieAgeS) ≤ piping.now) := by decide +kernel

def queue40 : Nat × Obj := (objKey Kind.queue 40, { kind := Kind.queue, num := 40, fields := [(Fld.qSub, 2), (Fld.qGreen, 4096)] })
def sub2 : Nat × Obj := (objKey Kind.subscriber 2, { kind := Kind.subscriber, num := 2, fields := [] })
/-- A frame on its way to queue 40. -/
def toQ40 (f : Frame) : Transit := ⟨f, .queue 40, .east⟩
def plainF : Frame := { bytes := List.replicate 64 0, stitch := 0, arrival := 0 }
/-- Channel 8 serves queue 40 of terminal 0 and its own express queue 90, with levels above 0; the transit holds the given frames. -/
def queuing (l : List Transit) (q40 q90 : List Frame) : State :=
  { weaving with
    stitch := { cfg := term' 0 :: [sub2, queue40, (objKey Kind.subport 1, { kind := Kind.subport, num := 1 })] }
    lane := { subports := [(1, { up := true })] }
    pon := { weaving.pon with channels := [(8, { st := .active, expressQ := some 90 })] }
    q := { transit := l, queues := [(40, { frames := q40, attached := true }), (90, { frames := q90 })],
           shapers := [(objKey Kind.subscriber 2, { peak := 9000000 }), (objKey Kind.queue 40, { peak := 9000000 }),
                       (objKey Kind.queue 90, { peak := 9000000 }), (objKey Kind.svcNode (64 * 8 + 2), { peak := 900 })] } }
def arriving (f : Frame) : State := queuing [toQ40 f] [] []
theorem wit_Enqueue_none : nextTransit (arriving plainF) .west = none := by decide +kernel
theorem wit_Enqueue_gone : nextTransit (arriving (frameOf 5)) .east = some (toQ40 (frameOf 5)) ∧
    readyTransit (arriving (frameOf 5)) (toQ40 (frameOf 5)) = .revoked := by decide +kernel
theorem wit_Enqueue : nextTransit (arriving plainF) .east = some (toQ40 plainF) ∧ readyTransit (arriving plainF) (toQ40 plainF) = .open_ ∧
    timed? plainF = none ∧ queueChan? (arriving plainF) 40 = some 8 ∧ shadowDrop (arriving plainF) 8 = false ∧
    plainF.len ≤ chValN (arriving plainF) 8 Fld.chMaxFrame ∧ plainF.colour ≠ 2 ∧
    queueLen (queueOf (arriving plainF) 40) + plainF.len ≤ queueLimit (arriving plainF) 40 0 ∧
    panRoom (arriving plainF) (queueDie (arriving plainF) 40) (queueOf (arriving plainF) 40).deep plainF = true := by decide +kernel
def redF : Frame := { plainF with colour := 2 }
def longF : Frame := { plainF with bytes := List.replicate 9601 0 }
theorem wit_Enqueue_red : nextTransit (arriving redF) .east = some (toQ40 redF) ∧ readyTransit (arriving redF) (toQ40 redF) = .open_ ∧
    timed? redF = none ∧ queueChan? (arriving redF) 40 = some 8 ∧ shadowDrop (arriving redF) 8 = false ∧
    redF.len ≤ chValN (arriving redF) 8 Fld.chMaxFrame := by decide +kernel
theorem wit_Enqueue_long : readyTransit (arriving longF) (toQ40 longF) = .open_ ∧ timed? longF = none ∧
    queueChan? (arriving longF) 40 = some 8 ∧ shadowDrop (arriving longF) 8 = false ∧ chValN (arriving longF) 8 Fld.chMaxFrame < longF.len ∧
    (toQ40 longF).die = .east := by decide +kernel
theorem wit_Enqueue_port : let x : Transit := ⟨plainF, .port 1, .east⟩
    nextTransit (queuing [x] [] []) .east = some x ∧ readyTransit (queuing [x] [] []) x = .open_ ∧
    256 * (cellsOf false (upstreamFrames (queuing [x] [] []) .east) + ceilDiv plainF.len 256)
      ≤ 2 ^ 20 * (cfgOf (queuing [x] [] [])).valN Kind.die 0 Fld.dieUpLimit ∧ panRoom (queuing [x] [] []) .east false plainF = true := by decide +kernel
theorem wit_Dequeue_none : contenders (queuing [] [] []) 8 = [] := by decide +kernel
theorem wit_Dequeue_hier : sendsFrames (tick 0 (queuing [] [plainF, redF] [])) 8 = true ∧ (chOf (queuing [] [plainF, redF] []) 8).cut = none ∧
    headFrame (queueOf (queuing [] [plainF, redF] []) 40) = some plainF ∧ collides (tick 0 (queuing [] [plainF, redF] [])) 8 plainF = false ∧
    nodeOf (queuing [] [plainF, redF] []) 40 < 2 ^ 40 := by decide +kernel
/-- A frame of flow 3 waits in queue 40, and terminal 0 has its key. -/
def keyed3 : State :=
  { queuing [] [frameOf 3] [] with
    stitch := { cfg := [term' 0, sub2, queue40, flow3] }
    ciph := { slots := [(0, { kind := slotData, owner := 0, key1 := { st := .current } })] } }
theorem wit_Dequeue_context : sendsFrames (tick 0 keyed3) 8 = true ∧ (chOf keyed3 8).cut = none ∧ headFrame (queueOf keyed3 40) = some (frameOf 3) ∧
    collides (tick 0 keyed3) 8 (frameOf 3) = false ∧ frameContext keyed3 8 (frameOf 3) = some (slotData, 0) ∧ (termOf keyed3 0).ctxLost = false ∧
    ctxGood keyed3 slotData 0 { reload := some (0, false) } = false ∧ ctxGood keyed3 slotData 0 {} = true ∧ keyed3.twin.held = true ∧
    (termOf keyed3 0).st = .operational ∧ nodeOf keyed3 40 < 2 ^ 40 := by decide +kernel
theorem wit_Dequeue_flow : soleQueue keyed3 8 40 :=
  .inr (.inr ⟨by decide +kernel, by decide +kernel, by decide +kernel, by decide +kernel, by decide +kernel⟩)
theorem wit_Dequeue_sole : soleQueue (queuing [] [plainF, redF] []) 8 40 ∧ soleQueue (queuing [] [] [plainF, redF]) 8 90 :=
  ⟨.inr (.inr ⟨by decide +kernel, by decide +kernel, by decide +kernel, by decide +kernel, by decide +kernel⟩),
   .inl ⟨by decide +kernel, by decide +kernel⟩⟩
def cutF : Frame := { plainF with bytes := List.replicate 300 0, parsedLen := some 300 }
theorem wit_Cut : sendsFrames (tick 0 (queuing [] [] [cutF])) 8 = true ∧ (chOf (queuing [] [] [cutF]) 8).cut = none ∧
    contenders (queuing [] [] [cutF]) 8 ≠ [] ∧ cutReady (tick 0 (queuing [] [] [cutF])) 8 256 = some (90, cutF, 300) := by decide +kernel
def cutting : State := modCh 8 (fun x => { x with cut := some (cutF, 300) }) (queuing [] [] [])
theorem wit_Cut_end : (chOf cutting 8).cut = some (cutF, 300) ∧ (chOf (queuing [] [] []) 8).cut = none := by decide +kernel
theorem wit_Refill : (queuing [] [] []).q.shaperTicks < corePeriods ((queuing [] [] []).now + 0) ∧
    (queuing [] [] []).q.shapers.find? (objKey Kind.queue 40) = some { peak := 9000000 } ∧ (queuing [] [] []).q.policerTicks < corePeriods ((queuing [] [] []).now + 0) := by
  decide +kernel

/-- A launch of a frame on port 1 at time 5 of base 0, and one on channel 8 in a frame that is past. -/
def launching (up : Bool) : State :=
  { queuing [] [] [] with
    lane := { subports := [(1, { up := up })] }
    q := { launches := [(8, [{ frame := plainF, sf := 38, queue := 90 }]), (launchKey true 1, [{ frame := plainF, time := 0 }])],
           ports := [(classKey .east 1 3, [redF]), (classKey .east 1 7, [plainF, redF]), (classKey .west 1 7, [cutF])] } }
theorem wit_Launch (b : Bool) : (launching b).q.launches.getD (launchKey true 1) [] = [{ frame := plainF, time := 0 }] ∧
    launchDue (tick 0 (launching b)) true 1 { frame := plainF, time := 0 } = true ∧ launchOpen (tick 0 (launching b)) true 1 { frame := plainF, time := 0 } = b ∧
    launchDue (tick 0 (launching b)) false 8 { frame := plainF, sf := 38, queue := 90 } = true ∧
    launchOpen (tick 0 (launching b)) false 8 { frame := plainF, sf := 38, queue := 90 } = true := by cases b <;> decide +kernel
theorem wit_Launch_early : ∀ e, ((launching true).q.launches.getD (launchKey true 2) []).head? = some e → launchDue (tick 0 (launching true)) true 2 e = false := by
  intro e h; cases h
def sendingUp : State := { launching true with q := { (launching true).q with launches := [] } }
theorem wit_Uplink : portUp sendingUp 1 = true ∧ portPaused sendingUp 1 = false ∧ portNext sendingUp 1 = some (7, .east) ∧
    sendingUp.q.ports.getD (classKey .east 1 7) [] = [plainF, redF] ∧ portCollides (tick 0 sendingUp) 1 plainF = false ∧ macsecOn sendingUp 1 = false := by decide +kernel
theorem wit_Uplink_down : portUp (launching false) 1 = false := by decide +kernel
/-- Port 1 sends under MACsec, with an association or without a key for it. -/
def secSend (key : Bool) : State :=
  { sendingUp with
    stitch := { cfg := [(objKey Kind.subport 1, { kind := Kind.subport, num := 1, fields := [(Fld.spMacsec, 1)] }),
                        (objKey Kind.sa 36, { kind := Kind.sa, num := 36, fields := [(Fld.saEnabled, 1)] })] }
    ciph := { slots := if key then [(0, { kind := slotSak, owner := 36 })] else [] } }
theorem wit_Uplink_sec : macsecOn (secSend true) 1 = true ∧ assocFor (secSend true) 1 0 = some 36 ∧ assocFor (secSend false) 1 0 = none ∧ isMka plainF.bytes = false ∧
    portNext (secSend true) 1 = some (7, .east) ∧ (assocOf (secSend true) 36).pn.toNat < pnMax (secSend true) 1 := by decide +kernel
def pinned : State := { host with now := Time.sec 1, q := { fcIn := [(2, ⟨true, 5, false⟩)], fcOut := [(3, ⟨true, 5⟩)] } }
theorem wit_FcIn : (pinned.q.fcIn.getD 1 {}).active = false ∧ (pinned.q.fcIn.getD 2 {}).active = true ∧ (pinned.q.fcIn.getD 2 {}).stuck = false ∧
    (pinned.q.fcIn.getD 2 {}).since + Time.ms ((cfgOf pinned).valN Kind.fcIn 2 Fld.fiStuckMs) < pinned.now + 0 ∧
    fcLevel pinned 3 = none ∧ (pinned.q.fcOut.getD 3 {}).active = true := by decide +kernel
theorem wit_Flush : serves Op.flush h0 (queuing [] [plainF] []) ∧ queueExists (queuing [] [plainF] []) 40 = true ∧
    queueExists (queuing [] [plainF] []) 41 = false ∧ serves Op.portSend h0 (queuing [] [plainF] []) ∧
    (cfgOf (queuing [] [] [])).has Kind.subport 1 = true ∧ (cfgOf (queuing [] [] [])).has Kind.subport 2 = false ∧
    descOk true 0 1 = true ∧ descOk true 0 2 = false ∧ descOk false 8 2 = true ∧ descOk false 8 1 = false := by decide +kernel
/-! ### Single rules -/

theorem wit_SessionClose :
    serves Op.sessionClose h0 punted ∧ (ringOf punted h0.port h0.ring).session = some { se0 with punt := true } := by decide +kernel
theorem wit_BaseResets : Time.us 1 ≤ Time.us 1 ∧ (15 = 2 ∨ 15 = 15) ∧ (16 ≠ 2 ∧ 16 ≠ 15) := by decide
theorem wit_OneStitch_stale : serves Op.stitch h0 staged ∧ h0.stitch ≠ stagingNumber staged := by decide +kernel
/-- The second command of ring A1 names the number that ring A0's has committed. -/
def twoRings : State :=
  { staged with host := { staged.host with rings := [(0, ring0), (1, { ring0 with session := some { id := 8, agent := 4, version := 0x0102 } })] } }
theorem wit_OneStitch_second :
    after (exec (.stitch 0 hBaste true) twoRings) (fun t => t.stitch.pend != twoRings.stitch.pend &&
      decide (serves Op.stitch { port := .a, ring := 1, session := 8, stitch := 1 } t)) = true := by decide +kernel

/-! ### One-step tests from the spec's own examples -/

/-- The example of tree 141: channels 282 and 283, cluster 8, West, quadrant 2 (chapter 0). -/
theorem test_tree_141 : wideOf 141 = 282 ∧ narrowOf 141 = 283 ∧ clusterOf 282 = 8 ∧ clusterOf 283 = 8 ∧ dieOfChannel 282 = .west ∧
    dieOfTree 141 = .west ∧ quadrantOfTree 141 = 2 := by decide +kernel
/-- To lock West bank 9, write 0x0000_000D: HELD with AGENT 3 (chapter 19). -/
theorem test_lock_bank_9 : after (exec (.fmtLockClaim 0 .a .west 9 3 0) host)
    (fun t => (lockOf t .west 9).owner == some (.a, 3) && (lockOf t .east 9).owner == none) = true := by decide +kernel
/-- To claim Thimble 0 as agent 3, read it (chapter 19): the second agent to read finds it taken. -/
theorem test_thimble_0 : after (exec (.thimbleClaim 0 .a 0 3) host) (fun t => (thimbleOf t 0).owner == some (.a, 3)) = true := by decide +kernel
/-- Table 6.5: a level of -8,033 bytes is raised to -2,008 bytes, and one of 40,000 bytes is clipped to 12,000 bytes. -/
theorem test_clip_levels : clipLevel 12000 (-2008 * 46875) (-8033 * 46875) = -2008 * 46875 ∧
    clipLevel 12000 (-2008 * 46875) (40000 * 46875) = 12000 * 46875 := by decide +kernel
/-- Table 6.5: at 200 Mb/s a level of -2,008 bytes passes 0 after 80.32 us, 1,882.5 periods of 64 cycles. -/
theorem test_refill : refill (-2008 * 46875) 200000 12000 1882 < 0 ∧ 0 < refill (-2008 * 46875) 200000 12000 1883 := by decide +kernel
/-- The example of channel 283 (chapter 4): RTD − D of 195.8553 us gives 20,000 m, t_d of 97.9477 us and t_u of 97.9077 us. -/
theorem test_length_283 :
    let r : Int := 195855300
    let s : Int := groupSum host 283
    r * groupDown host 283 / s = 97947663 ∧ r * groupUp host 283 / s = 97907636 ∧ r * 299792458 * 100000 / (s * 10 ^ 9) = 19999980 := by decide +kernel
end Sys2Proof.Tests
end

section
/-! PROOFS. Staging and stitches: BASTE, DISCARD and STITCH as a command ring serves them (R27 to R38, R316). -/

namespace Sys2Proof.Machine
open Sys2Proof

/-! ### What an operation leaves of a state -/

/-- An operation that keeps a reading of the state for each entry of a list keeps it over the whole list. -/
theorem forAll_keeps {α β : Type} (g : State → β) (f : α → State → State) (hf : ∀ x s, g (f x s) = g s) :
    ∀ (l : List α) (s : State), g (forAll l f s) = g s
  | [], _ => rfl
  | x :: l, s => (forAll_keeps g f hf l (f x s)).trans (hf x s)

theorem only_mono {ps qs : List Part} {dt : Nat} {s t : State} (h : only ps dt s t) (hsub : ps ⊆ qs) : only qs dt s t :=
  ⟨h.1, h.2.1, fun p => (h.2.2 p).imp_left fun hp => hsub hp⟩

/-- A command that has taken its entry and done nothing else yet has changed nothing but the rings. -/
theorem takeEntry_only (dt : Nat) (h : Hdr) (s : State) : only [.host] dt s (takeEntry h (tick dt s)) :=
  ⟨rfl, rfl, fun p => by cases p <;> simp [Part.same]⟩

/-- Of a state nothing has changed but the pools of numbers. -/
def poolsOnly (s t : State) : Prop :=
  t = { s with stitch := { s.stitch with
    terms := t.stitch.terms, flows := t.stitch.flows, allocs := t.stitch.allocs, queues := t.stitch.queues, pools := t.stitch.pools } }

theorem poolsOnly_refl (s : State) : poolsOnly s s := rfl

theorem poolsOnly_trans {s t u : State} (h : poolsOnly s t) (k : poolsOnly t u) : poolsOnly s u := by
  unfold poolsOnly at h k ⊢
  rw [h] at k
  exact k

theorem putPool_poolsOnly (kind d : Nat) (p : Pool) (s : State) : poolsOnly s (putPool kind d p s) := by
  unfold putPool
  split <;> rfl

theorem freeNum_poolsOnly (kind num : Nat) (s : State) : poolsOnly s (freeNum kind num s) := by
  unfold freeNum
  split
  · exact putPool_poolsOnly ..
  · exact poolsOnly_refl s

theorem freeCreates_poolsOnly (l : List StagedRec) (s : State) : poolsOnly s (freeCreates l s) := by
  unfold freeCreates
  generalize l.filter (fun r => r.body.op == 1) = m
  induction m generalizing s with
  | nil => exact poolsOnly_refl s
  | cons r m ih => exact poolsOnly_trans (freeNum_poolsOnly ..) (ih _)

theorem issueNum_poolsOnly {r : BasteRec} {s u : State} {num : Nat} (h : issueNum r s = some (num, u)) : poolsOnly s u := by
  unfold issueNum at h
  split at h
  · split at h
    · cases h
    · cases h; exact putPool_poolsOnly ..
  · obtain ⟨n, -, e⟩ := Option.map_eq_some_iff.1 h
    cases e; exact poolsOnly_refl s

theorem poolOf_of_stitch {s s' : State} (e : s'.stitch = s.stitch) (kind d : Nat) : poolOf s' kind d = poolOf s kind d := by
  unfold poolOf
  rw [e]

theorem putPool_of_stitch {s s' : State} (e : s'.stitch = s.stitch) (kind d : Nat) (p : Pool) :
    putPool kind d p s' = { s' with stitch := (putPool kind d p s).stitch } := by
  unfold putPool
  rw [e]
  split <;> rfl

/-- The number issued and the pools left depend on the pools alone. -/
theorem issueNum_of_stitch {r : BasteRec} {s u s' : State} {num : Nat} (h : issueNum r s = some (num, u))
    (e : s'.stitch = s.stitch) : issueNum r s' = some (num, { s' with stitch := u.stitch }) := by
  unfold issueNum at h ⊢
  rw [poolOf_of_stitch e]
  split at h
  next hi =>
    rw [if_pos hi]
    cases ht : (poolOf s r.kind (recDie r)).take with
    | none => simp [ht] at h
    | some vp =>
      simp only [ht] at h ⊢
      cases h
      rw [putPool_of_stitch e]
  next hi =>
    rw [if_neg hi]
    obtain ⟨n, hn, k⟩ := Option.map_eq_some_iff.1 h
    cases k
    rw [hn, ← e]
    rfl

/-! ### The Seam's staging stream -/

theorem seamSend_same (q : Nat) (m : SeamMsg) (s : State) :
    ∃ twin out, seamSend q m s = { s with twin := twin, out := out } := by
  unfold seamSend
  split
  · exact ⟨s.twin, s.out, rfl⟩
  · exact ⟨_, _, rfl⟩

/-- Streaming a part to the standby changes the twin, the output and the next part number. -/
theorem stitchPart_same (f : Nat → SeamMsg) (s : State) :
    ∃ twin out n, stitchPart f s = { s with twin := twin, out := out, stitch := { s.stitch with partNo := n } } := by
  unfold stitchPart
  split
  · obtain ⟨twin, out, e⟩ := seamSend_same 0 (f s.stitch.partNo) s
    exact ⟨twin, out, _, by rw [e]⟩
  · exact ⟨s.twin, s.out, s.stitch.partNo, rfl⟩

theorem stitchPart_stitch (f : Nat → SeamMsg) (s : State) :
    (stitchPart f s).stitch = { s.stitch with partNo := (stitchPart f s).stitch.partNo } := by
  obtain ⟨twin, out, n, e⟩ := stitchPart_same f s
  rw [e]

@[simp] theorem stitchPart_host (f : Nat → SeamMsg) (s : State) : (stitchPart f s).host = s.host := by
  obtain ⟨twin, out, n, e⟩ := stitchPart_same f s
  rw [e]

theorem stitchPart_only {ps : List Part} {dt : Nat} {s u : State} (f : Nat → SeamMsg) (h : only ps dt s u)
    (ht : Part.twin ∈ ps) (hs : Part.stitch ∈ ps) : only ps dt s (stitchPart f u) := by
  obtain ⟨twin, out, n, e⟩ := stitchPart_same f u
  rw [e]
  refine ⟨h.1, h.2.1, fun p => ?_⟩
  have := h.2.2 p
  cases p <;> simp_all [Part.same]

/-! ### Served commands -/

section
variable {dt opcode : Nat} {h : Hdr} {body : State → Served} {s u : State} {a : Answer}

/-- A served command whose rules leave the host part alone answers what they gave. -/
theorem hostCmd_answered (hs : serves opcode h s) (hb : body (takeEntry h (tick dt s)) = .done a u)
    (hu : u.host = (takeEntry h (tick dt s)).host) : answered opcode h a s (hostCmd dt opcode h body s) := by
  rw [hostCmd_done hs hb]
  exact answered_of hs hu

theorem hostCmd_stitch (hs : serves opcode h s) (hb : body (takeEntry h (tick dt s)) = .done a u) :
    (hostCmd dt opcode h body s).stitch = u.stitch := by
  rw [hostCmd_done hs hb]
  exact postReply_stitch ..

theorem hostCmd_only {ps : List Part} (hs : serves opcode h s) (hb : body (takeEntry h (tick dt s)) = .done a u)
    (hu : only ps dt s u) (he : Part.ev ∈ ps) (hh : Part.host ∈ ps) : only ps dt s (hostCmd dt opcode h body s) := by
  rw [hostCmd_done hs hb]
  exact only_postReply _ _ _ _ _ _ _ hu he hh

/-- A served command that its rules turn away answers the status and leaves everything but its ring as it was. -/
theorem hostCmd_fail {st : Nat} (hs : serves opcode h s)
    (hb : body (takeEntry h (tick dt s)) = fail st (takeEntry h (tick dt s))) :
    answered opcode h { status := st } s (hostCmd dt opcode h body s) ∧
      (hostCmd dt opcode h body s).stitch = s.stitch ∧ only [.host, .ev] dt s (hostCmd dt opcode h body s) :=
  have hd : body (takeEntry h (tick dt s)) = .done { status := st } (takeEntry h (tick dt s)) := hb
  ⟨hostCmd_answered hs hd rfl, (hostCmd_stitch hs hd).trans (by simp),
    hostCmd_only hs hd (only_mono (takeEntry_only dt h s) (by simp)) (by simp) (by simp)⟩

end

/-! ### BASTE (R28 to R31, R54) -/

theorem exec_baste (dt : Nat) (h : Hdr) (r : BasteRec) (s : State) :
    exec (.baste dt h r) s = .next (hostCmd dt Op.baste h (basteBody h r) s) := rfl

/-- The staged form of a record under the next record index. -/
def stagedForm (r : BasteRec) (num : Nat) (chosen : Option Nat) (s : State) : StagedRec :=
  ⟨r, num, chosen, s.stitch.nextIndex, setFields [] r.fields⟩

/-- The answer to a staged record. -/
def stagedAnswer (r : BasteRec) (num : Nat) (chosen : Option Nat) (s : State) : Answer :=
  let replaced := (withRec s.stitch.staging (stagedForm r num chosen s)).1
  { status := if replaced then St.okReplaced else St.ok, detail := bit replaced,
    result := (if r.op = 1 then [num] else []) ++ chosen.toList ++ [s.stitch.nextIndex] }

/-- A BASTE has staged its record: it stands at the end of the set, under the next record index, and the reply says so. The pools
are those of `v`, from which the number was issued. -/
structure Staged (dt : Nat) (h : Hdr) (r : BasteRec) (num : Nat) (chosen : Option Nat) (v s t : State) : Prop where
  staging : t.stitch.staging = (withRec s.stitch.staging (stagedForm r num chosen s)).2
  nextIndex : t.stitch.nextIndex = s.stitch.nextIndex + 1
  cfg : t.stitch.cfg = s.stitch.cfg
  pend : t.stitch.pend = s.stitch.pend
  pools : ∀ k d, poolOf t k d = poolOf v k d
  answered : answered Op.baste h (stagedAnswer r num chosen s) s t
  only : only [.stitch, .twin, .host, .ev] dt s t

/-- A record that the rules of BASTE accept in a state that differs from that of the command's start in the pools alone. -/
theorem hostCmd_acceptRec {dt : Nat} {h : Hdr} {r : BasteRec} {num : Nat} {chosen : Option Nat} {s v : State}
    (hs : serves Op.baste h s) (hv : poolsOnly (takeEntry h (tick dt s)) v)
    (hb : basteBody h r (takeEntry h (tick dt s)) = acceptRec r num chosen v) :
    Staged dt h r num chosen v s (hostCmd dt Op.baste h (basteBody h r) s) := by
  have hstag : v.stitch.staging = s.stitch.staging := congrArg (·.stitch.staging) hv
  have hidx : v.stitch.nextIndex = s.stitch.nextIndex := congrArg (·.stitch.nextIndex) hv
  let w := stitchPart (fun p => .stitchRec p r num chosen) (stageRec r num chosen v).2
  have hd : basteBody h r (takeEntry h (tick dt s)) = .done (stagedAnswer r num chosen s) w := by
    have ha : stagedAnswer r num chosen v = stagedAnswer r num chosen s := by
      unfold stagedAnswer stagedForm
      rw [hstag, hidx]
    rw [hb, ← ha]
    rfl
  have hw := stitchPart_stitch (fun p => .stitchRec p r num chosen) (stageRec r num chosen v).2
  have ht : (hostCmd dt Op.baste h (basteBody h r) s).stitch = w.stitch := hostCmd_stitch hs hd
  have hh : v.host = (takeEntry h (tick dt s)).host := congrArg (·.host) hv
  constructor
  · rw [ht, hw]; simp only [stageRec, stagedForm, hstag, hidx]
  · rw [ht, hw]; simp only [stageRec, hidx]
  · rw [ht, hw]; exact congrArg (·.stitch.cfg) hv
  · rw [ht, hw]; exact congrArg (·.stitch.pend) hv
  · intro k d
    unfold poolOf
    rw [ht, hw]
    rfl
  · exact hostCmd_answered hs hd (by simp only [w, stitchPart_host]; exact hh)
  · refine hostCmd_only hs hd (stitchPart_only _ ?_ (by simp) (by simp)) (by simp) (by simp)
    unfold poolsOnly at hv
    rw [hv]
    exact ⟨rfl, rfl, fun p => by cases p <;> simp [Part.same, stageRec]⟩

section
variable {h : Hdr} {r : BasteRec} {u : State}

theorem basteBody_stale (hn : h.stitch ≠ stagingNumber u) : basteBody h r u = fail St.staleStitch u := by
  simp [basteBody, hn]

theorem basteBody_full (he : h.stitch = stagingNumber u) (hf : 65536 ≤ u.stitch.staging.length) :
    basteBody h r u = fail St.stagingFull u := by
  simp [basteBody, he, Config.stagingMax, hf]

/-- A record with the staging number, room and a good form comes to its operation. -/
theorem basteBody_formed (he : h.stitch = stagingNumber u) (hl : u.stitch.staging.length < 65536)
    (hf : recForm r = true) :
    basteBody h r u = if r.op = 1 then basteCreate r u else if r.op = 2 then basteModify r u else basteDelete r u := by
  simp [basteBody, he, Config.stagingMax, Nat.not_le.2 hl, hf]

theorem basteDelete_accepts (hh : (stagedCfg u).has r.kind r.handle = true)
    (hq : r.kind = Kind.queue → privileged u r.handle = false)
    (hp : r.kind = Kind.subport → portNamed (stagedCfg u) r.handle = false) :
    basteDelete r u = acceptRec r r.handle none u := by
  have hn : ((r.kind == Kind.queue && privileged u r.handle) || (r.kind == Kind.subport && portNamed (stagedCfg u) r.handle)) = false := by
    simp only [Bool.or_eq_false_iff, Bool.and_eq_false_imp, beq_iff_eq]
    exact ⟨hq, hp⟩
  simp [basteDelete, hh, hn]

theorem basteModify_accepts (hh : (stagedCfg u).has r.kind r.handle = true)
    (hst : objectStatus u (trialCfg u r r.handle none) r r.handle = St.ok) :
    basteModify r u = acceptRec r r.handle none u := by
  simp [basteModify, hh, hst]

theorem basteCreate_accepts {v : State} {num : Nat} (hi : issueNum r u = some (num, v))
    (hh : (stagedCfg u).has r.kind num = false)
    (hc : (idField r.kind).isSome = true → namedId r = none → (chosenFor u (trialCfg u r num none) num r).isSome = true)
    (hst : objectStatus u (trialCfg u r num (chosenFor u (trialCfg u r num none) num r)) r num = St.ok) :
    basteCreate r u = acceptRec r num (chosenFor u (trialCfg u r num none) num r) v := by
  have hn : ((idField r.kind).isSome && (namedId r).isNone && (chosenFor u (trialCfg u r num none) num r).isNone) = false := by
    simp only [Bool.and_eq_false_imp, Bool.and_eq_true, Option.isNone_iff_eq_none]
    rintro ⟨hk, hm⟩
    exact Option.isNone_eq_false_iff.2 (hc hk hm)
  simp [basteCreate, hi, hh, hn, hst]

end

theorem withRec_of_modify {l : List StagedRec} {x : StagedRec} (h : x.body.op = 2) :
    withRec l x = (l.any (replaces x.body.kind x.num x.eff), l.map (stripRec x.body.kind x.num x.eff) ++ [x]) := if_pos h

theorem withRec_of_not_modify {l : List StagedRec} {x : StagedRec} (h : x.body.op ≠ 2) : withRec l x = (false, l ++ [x]) := if_neg h

/-- Settles O14, by the equation of BASTE's rules for each kind of record and what staging an accepted record changes. -/
theorem bastesAreStagedInOrder : Obligations.BastesAreStagedInOrder := by
  unfold Obligations.BastesAreStagedInOrder
  refine ⟨?delete, ?modify, ?create, ?stale, ?full⟩
  case delete =>
    intro dt h r s hs he hl hf hop hh hq hp
    have hb : basteBody h r (takeEntry h (tick dt s)) = acceptRec r r.handle none (takeEntry h (tick dt s)) := by
      rw [basteBody_formed (u := takeEntry h (tick dt s)) he hl hf, if_neg (by omega), if_neg (by omega)]
      exact basteDelete_accepts hh hq hp
    have st := hostCmd_acceptRec hs (poolsOnly_refl _) hb
    have hw : withRec s.stitch.staging (stagedForm r r.handle none s) = _ := withRec_of_not_modify (by simp [stagedForm, hop])
    have ha : stagedAnswer r r.handle none s = { result := [s.stitch.nextIndex] } := by simp [stagedAnswer, hw, hop, bit, St.ok]
    exact ⟨_, exec_baste .., by rw [st.staging, hw]; rfl, st.nextIndex, st.cfg, st.pend, ha ▸ st.answered, st.only⟩
  case modify =>
    intro dt h r s hs he hl hf hop hh hst
    have hb : basteBody h r (takeEntry h (tick dt s)) = acceptRec r r.handle none (takeEntry h (tick dt s)) := by
      rw [basteBody_formed (u := takeEntry h (tick dt s)) he hl hf, if_neg (by omega), if_pos hop]
      exact basteModify_accepts hh hst
    have st := hostCmd_acceptRec hs (poolsOnly_refl _) hb
    have hw : withRec s.stitch.staging (stagedForm r r.handle none s) = _ := withRec_of_modify hop
    have ha := st.answered
    simp only [stagedAnswer, hw, hop, Nat.reduceEqDiff, if_false, Option.toList_none, List.nil_append] at ha
    exact ⟨_, exec_baste .., by rw [st.staging, hw]; rfl, st.nextIndex, st.cfg, st.pend, ha, st.only⟩
  case create =>
    intro dt h r s num u hs he hl hf hop hi hh hc hst
    have hi' := issueNum_of_stitch (s' := takeEntry h (tick dt s)) hi rfl
    have hb : basteBody h r (takeEntry h (tick dt s)) =
        acceptRec r num (chosenFor s (trialCfg s r num none) num r) { takeEntry h (tick dt s) with stitch := u.stitch } := by
      rw [basteBody_formed (u := takeEntry h (tick dt s)) he hl hf, if_pos hop]
      exact basteCreate_accepts hi' hh hc hst
    have st := hostCmd_acceptRec hs (issueNum_poolsOnly hi') hb
    have hw : withRec s.stitch.staging (stagedForm r num (chosenFor s (trialCfg s r num none) num r) s) = _ :=
      withRec_of_not_modify (by simp [stagedForm, hop])
    have ha : stagedAnswer r num (chosenFor s (trialCfg s r num none) num r) s =
        { result := [num] ++ (chosenFor s (trialCfg s r num none) num r).toList ++ [s.stitch.nextIndex] } := by
      simp [stagedAnswer, hw, hop, bit, St.ok]
    exact ⟨_, exec_baste .., by rw [st.staging, hw]; rfl, st.nextIndex, st.cfg, st.pend, st.pools, ha ▸ st.answered, st.only⟩
  case stale =>
    intro dt h r s hs hn
    obtain ⟨ha, -, ho⟩ := hostCmd_fail hs (basteBody_stale (r := r) (u := takeEntry h (tick dt s)) hn)
    exact ⟨_, exec_baste .., ha, ho⟩
  case full =>
    intro dt h r s hs he hl
    obtain ⟨ha, -, ho⟩ := hostCmd_fail hs (basteBody_full (r := r) (u := takeEntry h (tick dt s)) he hl)
    exact ⟨_, exec_baste .., ha, ho⟩

end Sys2Proof.Machine
end

section
/-! PROOFS. DISCARD and STITCH as a command ring serves them, and the one STITCH that succeeds for each number (R32 to R38, R316). -/

namespace Sys2Proof.Machine
open Sys2Proof

/-! ### DISCARD (R32) -/

/-- The rules of DISCARD. -/
def discardBody (s : State) : Served :=
  .done { result := [s.stitch.staging.length] } (stitchPart .stitchDiscard (discardStaging s))

theorem exec_discard (dt : Nat) (h : Hdr) (s : State) :
    exec (.discard dt h) s = .next (hostCmd dt Op.discard h discardBody s) := rfl

/-- Discarding empties the set, and changes beside it the pools and what streaming to the standby changes. -/
theorem discard_same (s : State) : ∃ twin out x,
    stitchPart .stitchDiscard (discardStaging s) = { s with twin := twin, out := out, stitch := x } ∧
      x.staging = [] ∧ x.nextIndex = 0 ∧ x.cfg = s.stitch.cfg ∧ x.pend = s.stitch.pend := by
  obtain ⟨twin, out, n, e⟩ := stitchPart_same .stitchDiscard (discardStaging s)
  have hv := freeCreates_poolsOnly s.stitch.staging s
  unfold poolsOnly at hv
  rw [e, discardStaging, hv]
  exact ⟨twin, out, _, rfl, rfl, rfl, rfl, rfl⟩

/-! ### What a STITCH comes to (R33 to R38) -/

/-- The failing records of the staging set. -/
def stitchCharges (s : State) : List Charge :=
  refCharges s (stagedCfg s) s.stitch.staging ++ limitCharges s s.stitch.staging

/-- The state after a refused set: every tree with more than 256 terminals is counted. -/
def countRefused (s : State) : State :=
  forAll (fullTrees s s.stitch.staging) (fun t => bump 7 (wideOf t) Cn.capacityRefusals 1) s

/-- The state after an accepted set: the stitch is pending and the standby has been sent the closing part. -/
def accepted (s : State) : State := closeSet (pendingStitch s (nextB1 s)) (acceptStitch (nextB1 s) s)

/-- The state while the acknowledgement of the accepted set is awaited. -/
def awaitingAck (s : State) : State :=
  { accepted s with stitch := { (accepted s).stitch with ackDue := some (stagingNumber s, (accepted s).now + Time.us 20) } }

section
variable {h : Hdr} {u : State}

theorem stitchBody_stale (hn : h.stitch ≠ stagingNumber u) : stitchBody h u = fail St.staleStitch u := by
  simp [stitchBody, hn]

theorem stitchBody_busy (he : h.stitch = stagingNumber u) (hb : 2 ≤ u.stitch.pend.length ∨ profileBusy u u.stitch.staging = true) :
    stitchBody h u = fail St.busy u := by
  simp [stitchBody, he, hb]

theorem stitchBody_charged {i st : Nat} (he : h.stitch = stagingNumber u) (hl : u.stitch.pend.length < 2)
    (hp : profileBusy u u.stitch.staging = false) (hc : firstCharge (stitchCharges u) = some (i, st)) :
    stitchBody h u = .done { status := st, detail := i } (countRefused u) := by
  unfold stitchCharges at hc
  simp [stitchBody, he, Nat.not_le.2 hl, hp, hc, countRefused]

theorem stitchBody_accepted (he : h.stitch = stagingNumber u) (hl : u.stitch.pend.length < 2)
    (hp : profileBusy u u.stitch.staging = false) (hc : firstCharge (stitchCharges u) = none) :
    stitchBody h u = if mirrors u && !u.twin.yieldIn
      then .wait (.stitchAck [todOf (accepted u) (nextB1 u)]) (Time.ms 2) (awaitingAck u)
      else .done { result := [todOf (accepted u) (nextB1 u)] } (accepted u) := by
  unfold stitchCharges at hc
  simp [stitchBody, he, Nat.not_le.2 hl, hp, hc]
  rfl

end

/-! ### What acceptance and refusal change -/

/-- Changes of channels change nothing but the channels. -/
theorem forAll_modCh_same (f : Nat → Channel → Channel) : ∀ (l : List Nat) (s : State),
    ∃ pon, forAll l (fun c => modCh c (f c)) s = { s with pon := pon }
  | [], s => ⟨s.pon, rfl⟩
  | c :: l, s => by
    obtain ⟨pon, e⟩ := forAll_modCh_same f l (modCh c (f c) s)
    exact ⟨pon, e⟩

theorem acceptStitch_same (b1 : Time) (s : State) : ∃ pon, acceptStitch b1 s = { s with
    pon := pon
    stitch := { s.stitch with pend := s.stitch.pend ++ [pendingStitch s b1], staging := [], nextIndex := 0 } } :=
  forAll_modCh_same _ _ _

/-- Acceptance changes the pending stitches and the staging set, the channels that wake, and what streaming to the standby changes. -/
theorem accepted_same (s : State) : ∃ pon twin out n, accepted s = { s with
    pon := pon, twin := twin, out := out
    stitch := { s.stitch with pend := s.stitch.pend ++ [pendingStitch s (nextB1 s)], staging := [], nextIndex := 0, partNo := n } } := by
  obtain ⟨pon, e⟩ := acceptStitch_same (nextB1 s) s
  unfold accepted closeSet
  rw [e]
  obtain ⟨twin, out, n, k⟩ := stitchPart_same _ _
  exact ⟨pon, twin, out, n, k⟩

theorem accepted_stitch (s : State) : ∃ n, (accepted s).stitch = { s.stitch with
    pend := s.stitch.pend ++ [pendingStitch s (nextB1 s)], staging := [], nextIndex := 0, partNo := n } := by
  obtain ⟨pon, twin, out, n, e⟩ := accepted_same s
  exact ⟨n, by rw [e]⟩

@[simp] theorem accepted_host (s : State) : (accepted s).host = s.host := by
  obtain ⟨pon, twin, out, n, e⟩ := accepted_same s
  rw [e]

/-- The time of day of an instant is read from the time bases alone, which acceptance leaves. -/
theorem todOf_accepted (s : State) (b : Time) : todOf (accepted s) b = todOf s b := by
  obtain ⟨pon, twin, out, n, e⟩ := accepted_same s
  rw [e]
  rfl

theorem bumps_only {α : Type} {ps : List Part} {dt : Nat} {s : State} (g o j n : α → Nat) (he : Part.ev ∈ ps) (hc : Part.ctr ∈ ps) :
    ∀ (l : List α) {u : State}, only ps dt s u → only ps dt s (forAll l (fun x => bump (g x) (o x) (j x) (n x)) u)
  | [], _, h => h
  | x :: l, u, h => by
    refine bumps_only g o j n he hc l ⟨by simpa using h.1, by simpa using h.2.1, fun p => ?_⟩
    have := h.2.2 p
    cases p <;> simp_all [Part.same]

@[simp] theorem countRefused_stitch (s : State) : (countRefused s).stitch = s.stitch :=
  forAll_keeps State.stitch _ (fun _ _ => bump_stitch ..) _ _

@[simp] theorem countRefused_host (s : State) : (countRefused s).host = s.host :=
  forAll_keeps State.host _ (fun _ _ => bump_host ..) _ _

theorem countRefused_only {ps : List Part} {dt : Nat} {s u : State} (h : only ps dt s u) (he : Part.ev ∈ ps) (hc : Part.ctr ∈ ps) :
    only ps dt s (countRefused u) := bumps_only _ _ _ _ he hc _ h

/-! ### A served STITCH -/

/-- The state in which the rules of a STITCH are looked at: the unit has heard YIELD_IN, and the ring has taken the entry. -/
def stitchStart (dt : Nat) (h : Hdr) (y : Bool) (s : State) : State :=
  takeEntry h (tick dt { s with twin := { s.twin with yieldIn := y } })

section
variable {dt : Nat} {h : Hdr} {y : Bool} {s u : State}

theorem stitchStart_only : only [.twin, .host] dt s (stitchStart dt h y s) :=
  ⟨rfl, rfl, fun p => by cases p <;> simp [Part.same, stitchStart]⟩

/-- A STITCH whose rules give an answer and leave the host part alone is answered in the state they leave. -/
theorem stitch_answers {a : Answer} (hs : serves Op.stitch h s) (hb : stitchBody h (stitchStart dt h y s) = .done a u)
    (hu : u.host = (stitchStart dt h y s).host) :
    goesTo (.stitch dt h y) s fun t => answered Op.stitch h a s t ∧ t.stitch = u.stitch ∧
      ∀ ps, Part.ev ∈ ps → Part.host ∈ ps → only ps dt s u → only ps dt s t :=
  ⟨_, congrArg Host.Outcome.next (hostCmd_done (s := { s with twin := { s.twin with yieldIn := y } }) hs hb),
    answered_of (s := { s with twin := { s.twin with yieldIn := y } }) hs hu, postReply_stitch ..,
    fun _ he hh ho => only_postReply _ _ _ _ _ _ _ ho he hh⟩

/-- A STITCH that its rules turn away changes nothing but its ring and what the unit has heard of YIELD_IN. -/
theorem stitch_fails {st : Nat} (hs : serves Op.stitch h s)
    (hb : stitchBody h (stitchStart dt h y s) = fail st (stitchStart dt h y s)) :
    goesTo (.stitch dt h y) s fun t =>
      answered Op.stitch h { status := st } s t ∧ t.stitch = s.stitch ∧ only [.twin, .host, .ev] dt s t := by
  obtain ⟨t, ht, ha, hst, ho⟩ := stitch_answers hs hb rfl
  exact ⟨t, ht, ha, hst, ho _ (by simp) (by simp) (only_mono stitchStart_only (by simp))⟩

/-- A STITCH whose rules give a wait and leave the host part alone runs on its ring in the state they leave. -/
theorem stitch_waits {w : Wait} {max : Time} (hs : serves Op.stitch h s)
    (hb : stitchBody h (stitchStart dt h y s) = .wait w max u) (hu : u.host = (stitchStart dt h y s).host) :
    goesTo (.stitch dt h y) s fun t => waitsFor Op.stitch h w max s t ∧ t.stitch = u.stitch := by
  have hr : ringOf u h.port h.ring = ringOf (stitchStart dt h y s) h.port h.ring := by simp only [ringOf, hu]
  refine ⟨_, congrArg Host.Outcome.next (hostCmd_wait (s := { s with twin := { s.twin with yieldIn := y } }) hs hb), ⟨?_, ?_⟩, rfl⟩
  · rw [ringOf_modRing_same, hr, stitchStart, takeEntry_ring, modRing_now]
    rfl
  · exact ringsOnly_trans (ringsOnly_of_host (takeEntry_ringsOnly h (tick dt s)) hu) (modRing_ringsOnly h _ u)

/-- What an accepted STITCH leaves of the stitches: one more pending, under the staging number, and an empty set. -/
structure Accepted (s t : State) (p : PendStitch) : Prop where
  pend : t.stitch.pend = s.stitch.pend ++ [p]
  staging : t.stitch.staging = []
  nextIndex : t.stitch.nextIndex = 0
  cfg : t.stitch.cfg = s.stitch.cfg
  current : t.stitch.current = s.stitch.current

/-- A STITCH that is accepted is answered at once, or once the ARMED partner has acknowledged. -/
theorem stitch_accepts (hs : serves Op.stitch h s) (he : h.stitch = stagingNumber s) (hl : s.stitch.pend.length < 2)
    (hp : profileBusy s s.stitch.staging = false) (hc : firstCharge (stitchCharges s) = none) :
    goesTo (.stitch dt h y) s fun t =>
      Accepted s t (pendingStitch s (nextB1 (tick dt s))) ∧
      (mirrors s = false ∨ y = true → answered Op.stitch h { result := [todOf (tick dt s) (nextB1 (tick dt s))] } s t) ∧
      (mirrors s = true → y = false →
        waitsFor Op.stitch h (.stitchAck [todOf (tick dt s) (nextB1 (tick dt s))]) (Time.ms 2) s t) := by
  have hb := stitchBody_accepted (u := stitchStart dt h y s) he hl hp hc
  have hm : (mirrors (stitchStart dt h y s) && !(stitchStart dt h y s).twin.yieldIn) = (mirrors s && !y) := rfl
  obtain ⟨n, hn⟩ := accepted_stitch (stitchStart dt h y s)
  rw [todOf_accepted, hm] at hb
  cases hw : mirrors s && !y
  case false =>
    rw [hw, if_neg (by simp)] at hb
    obtain ⟨t, ht, ha, hst, -⟩ := stitch_answers hs hb (by simp)
    rw [hn] at hst
    refine ⟨t, ht, ?_, fun _ => ha, fun hm' hy => ?_⟩
    · constructor <;> rw [hst] <;> rfl
    · simp [hm', hy] at hw
  case true =>
    rw [hw, if_pos rfl] at hb
    obtain ⟨t, ht, ha, hst⟩ := stitch_waits hs hb (by simp [awaitingAck])
    rw [awaitingAck] at hst
    refine ⟨t, ht, ?_, fun h' => ?_, fun _ _ => ha⟩
    · constructor <;> rw [hst] <;> simp only [hn] <;> rfl
    · rcases h' with h' | h' <;> simp [h'] at hw

end

/-- Settles O15: DISCARD by what emptying the set changes, STITCH by the equation of its rules in each of its cases. -/
theorem stagedRecordsAreDiscardedOrStitched : Obligations.StagedRecordsAreDiscardedOrStitched := by
  unfold Obligations.StagedRecordsAreDiscardedOrStitched
  refine ⟨?discard, ?accepted, ?charged, ?busy⟩
  case discard =>
    intro dt h s hs
    obtain ⟨twin, out, x, e, hset, hidx, hcfg, hpend⟩ := discard_same (takeEntry h (tick dt s))
    have hd : discardBody (takeEntry h (tick dt s)) = .done { result := [s.stitch.staging.length] }
        { takeEntry h (tick dt s) with twin := twin, out := out, stitch := x } := congrArg (Served.done _) e
    have hst := hostCmd_stitch hs hd
    refine ⟨_, exec_discard .., by rw [hst, hset], by rw [hst, hidx], by rw [hst, hcfg]; rfl, by rw [hst, hpend]; rfl,
      hostCmd_answered hs hd rfl, hostCmd_only hs hd ?_ (by simp) (by simp)⟩
    exact ⟨rfl, rfl, fun p => by cases p <;> simp [Part.same]⟩
  case accepted =>
    intro dt h y s hs he hl hp hc
    obtain ⟨t, ht, ha, hd, hw⟩ := stitch_accepts (dt := dt) (y := y) hs he hl hp hc
    exact ⟨t, ht, _, ha.pend, he.symm, rfl, rfl, rfl, rfl, ha.staging, ha.nextIndex, ha.cfg, ha.current, hd, hw⟩
  case charged =>
    intro dt h y s i st hs he hl hp hc
    obtain ⟨t, ht, ha, hst, ho⟩ := stitch_answers hs (stitchBody_charged (u := stitchStart dt h y s) he hl hp hc) (by simp)
    refine ⟨t, ht, ha, hst.trans (countRefused_stitch _), ho _ (by simp) (by simp) (countRefused_only ?_ (by simp) (by simp))⟩
    exact only_mono stitchStart_only (by simp)
  case busy =>
    intro dt h y s hs he hl
    exact stitch_fails hs (stitchBody_busy (u := stitchStart dt h y s) he (.inl hl))

/-! ### One STITCH for each number (R33) -/

theorem succStitch_ne (n : StitchNo) : n ≠ succStitch n := by
  unfold succStitch
  split <;> bv_omega

/-- After an acceptance under the staging number, the staging number is its successor. -/
theorem stagingNumber_of_accepted {s t : State} {b1 : Time} (h : Accepted s t (pendingStitch s b1)) :
    stagingNumber t = succStitch (stagingNumber s) := by
  simp [stagingNumber, h.pend, pendingStitch]

/-- A STITCH that adds a pending stitch has been accepted under the staging number. -/
theorem stitch_pend_cases (dt : Nat) {h : Hdr} (y : Bool) {s : State} (hs : serves Op.stitch h s) :
    goesTo (.stitch dt h y) s fun t => t.stitch.pend = s.stitch.pend ∨
      h.stitch = stagingNumber s ∧ ∃ b1, Accepted s t (pendingStitch s b1) := by
  by_cases he : h.stitch = stagingNumber s
  case neg =>
    obtain ⟨t, ht, -, hst, -⟩ := stitch_fails hs (stitchBody_stale (u := stitchStart dt h y s) he)
    exact ⟨t, ht, .inl (by rw [hst])⟩
  by_cases hb : 2 ≤ s.stitch.pend.length ∨ profileBusy s s.stitch.staging = true
  case pos =>
    obtain ⟨t, ht, -, hst, -⟩ := stitch_fails hs (stitchBody_busy (u := stitchStart dt h y s) he hb)
    exact ⟨t, ht, .inl (by rw [hst])⟩
  have hl : s.stitch.pend.length < 2 := by omega
  have hp : profileBusy s s.stitch.staging = false := by simpa using fun h => hb (.inr h)
  cases hc : firstCharge (stitchCharges s) with
  | some c =>
    obtain ⟨t, ht, -, hst, -⟩ := stitch_answers hs (stitchBody_charged (u := stitchStart dt h y s) he hl hp hc) (by simp)
    exact ⟨t, ht, .inl (by rw [hst, countRefused_stitch]; rfl)⟩
  | none =>
    obtain ⟨t, ht, ha, -⟩ := stitch_accepts (dt := dt) (y := y) hs he hl hp hc
    exact ⟨t, ht, .inr ⟨he, _, ha⟩⟩

/-- A STITCH that does not name the staging number accepts nothing. -/
theorem stitch_stale (dt : Nat) {h : Hdr} (y : Bool) {s : State} (hs : serves Op.stitch h s) (hn : h.stitch ≠ stagingNumber s) :
    goesTo (.stitch dt h y) s fun t => answered Op.stitch h { status := St.staleStitch } s t ∧ t.stitch.pend = s.stitch.pend := by
  obtain ⟨t, ht, ha, hst, -⟩ := stitch_fails hs (stitchBody_stale (u := stitchStart dt h y s) hn)
  exact ⟨t, ht, ha, by rw [hst]⟩

/-- Settles O59: an acceptance moves the staging number on to the successor of the number named, which is another number. -/
theorem oneStitchCommandSucceedsForEachNumber : Obligations.OneStitchCommandSucceedsForEachNumber := by
  unfold Obligations.OneStitchCommandSucceedsForEachNumber
  refine ⟨fun dt h y s hs hn => stitch_stale dt y hs hn, fun dt h y s hs => ?_⟩
  obtain ⟨t, ht, hcase⟩ := stitch_pend_cases dt y hs
  refine ⟨t, ht, fun hne => ?_⟩
  obtain ⟨he, b1, hacc⟩ := hcase.resolve_left hne
  have hnext : stagingNumber t = succStitch h.stitch := he ▸ stagingNumber_of_accepted hacc
  refine ⟨he, hnext, fun dt' h' y' hs' hsame => stitch_stale dt' y' hs' ?_⟩
  rw [hsame, hnext]
  exact succStitch_ne _

end Sys2Proof.Machine
end

section
/-! PROOFS. The stitch window: a record of a channel that the device does not have (R39, R40, R74). -/

namespace Sys2Proof.Machine
open Sys2Proof

/-- A staged record that enables channel 512, one above the last channel of the device. -/
def absentChannelRec : StagedRec :=
  { body := { op := 2, kind := Kind.channel, handle := Config.nChannels, fields := [(Fld.chEnable, 1)] }
    num := Config.nChannels, index := 0, eff := [(Fld.chEnable, 1)] }

/-- A stitch of that record whose window is open and whose B2 has come. -/
def absentChannelStitch : PendStitch := { number := 1, recs := [absentChannelRec], b1 := 0, b2 := 0, opened := true }

def absentChannelState : State := { stitch := { pend := [absentChannelStitch] } }

theorem absentChannel_closes : exec (.stitchClose 0) absentChannelState = .next (closeWindow absentChannelStitch absentChannelState) := rfl

theorem absentChannel_named : (Kind.channel, Config.nChannels) ∈ stitchRefs absentChannelStitch := by decide +kernel

/-- The new configuration enables the channel, and the open phase grants it nothing: no such channel exists. -/
theorem absentChannel_risesInDark :
    rises absentChannelState.stitch.cfg (openCfg absentChannelState.stitch.cfg absentChannelStitch) Kind.channel Config.nChannels Fld.chEnable = true ∧
    (chOf (closeWindow absentChannelStitch absentChannelState) Config.nChannels).st = .dark := by decide +kernel

/-- Refutes O52: its last part holds for every number c, and a stitch that enables channel 512 leaves it DARK, since the device has
channels 0 to 511 and grants nothing to a channel that does not exist. BASTE refuses such a record; the statement does not. -/
theorem not_aStitchRevokesAtB1AndOpensAtB2 : ¬ Obligations.AStitchRevokesAtB1AndOpensAtB2 := by
  unfold Obligations.AStitchRevokesAtB1AndOpensAtB2
  rintro ⟨-, -, -, -, hclose⟩
  obtain ⟨t, ht, -, -, -, hcfg, -, hchannels, -⟩ := hclose 0 absentChannelState absentChannelStitch rfl rfl (Nat.le_refl 0)
  obtain rfl : closeWindow absentChannelStitch absentChannelState = t := Host.Outcome.next.inj (absentChannel_closes.symm.trans ht)
  obtain ⟨hrises, hdark⟩ := absentChannel_risesInDark
  have hshadow := hchannels Config.nChannels absentChannel_named (by rw [hcfg]; exact hrises) rfl
  rw [hdark] at hshadow
  exact absurd hshadow (by decide)

end Sys2Proof.Machine
end

section
/-! PROOFS. Burst reception: the counters of a channel that the device does not have (R56 to R58). -/

namespace Sys2Proof.Machine
open Sys2Proof

/-! ### Two counters under one key -/

/-- The channel number, far above the last of the device, whose counters have the keys of a terminal's counters. -/
def collidingChannel (x : Nat) : Nat := 3 * 2 ^ 32 + x

/-- Objects stand 2⁸ keys apart and groups 2⁴⁰, so the objects of group 7 from 3 · 2³² on run into those of group 10. -/
theorem ctrKey_collidingChannel (x j : Nat) : ctrKey 7 (collidingChannel x) j = ctrKey 10 x j := by
  unfold ctrKey collidingChannel
  omega

/-- A counter of the colliding channel and the counter of that index of the terminal are one counter. -/
theorem ctrVal_collidingChannel (s : State) (x j : Nat) : ctrVal s 7 (collidingChannel x) j = ctrVal s 10 x j := by
  unfold ctrVal
  rw [ctrKey_collidingChannel]

/-! ### A burst on that channel -/

/-- The state in which a terminal's burst is received: its item has left the queue, and in a quiet window CUE has pulsed again. -/
def burstStart (dt ch : Nat) (o : BurstObs) (c : CueItem) (rest : List CueItem) (s : State) : State :=
  doIf (c.quiet.isSome && o.energy) (cueAgain ch) (modCh ch (fun x => { x with cue := rest }) (tick dt s))

/-- A receiving lane takes the burst of the first item of its queue when the item is a terminal's. -/
theorem exec_burstReceive_directed (dt : Nat) {ch : Nat} (o : BurstObs) {s : State} {c : CueItem} {rest : List CueItem}
    (hcue : (chOf s ch).cue = c :: rest) (hl : lanesReceive s ch = true) (hd : directed c = true) :
    exec (.burstReceive dt ch o) s = .next (countGap ch (burst ch c o (burstStart dt ch o c rest s))) := by
  have hl' : lanesReceive (tick dt s) ch = true := hl
  have hstays : leftWindow (tick dt s) c = false := by simp [leftWindow, hd]
  show execBurstReceive dt ch o s = _
  simp [execBurstReceive, hl', hcue, hstays, hd, burstStart]

/-- The item of terminal 0 on the colliding channel. -/
def collidingItem : CueItem := { term := 0, onu := 10, rate := .r49, profile := 0, short := true, arrival := 0, dur := 500 }

/-- The colliding channel of terminal 0 is DRAINING, with one burst granted. -/
def collidingState : State := { pon := { channels := [(collidingChannel 0, { st := .draining, cue := [collidingItem] })] } }

/-- A burst of the terminal is heard in which one codeword had one bit corrected. -/
def collidingBurst : BurstObs := { onu := 10, cws := [{ corrected := 1 }] }

/-- The state after that burst. -/
def collidingOutcome : State :=
  countGap (collidingChannel 0) (burst (collidingChannel 0) collidingItem collidingBurst
    (burstStart 0 (collidingChannel 0) collidingBurst collidingItem [] collidingState))

theorem collidingBurst_received : exec (.burstReceive 0 (collidingChannel 0) collidingBurst) collidingState = .next collidingOutcome :=
  exec_burstReceive_directed 0 collidingBurst rfl rfl rfl

theorem collidingBurst_accepted : classOf collidingItem collidingBurst = .accepted := rfl

/-- One count is of the accepted burst and one of the corrected bit. -/
theorem collidingOutcome_fecBits : ctrVal collidingOutcome 7 (collidingChannel 0) Cn.fecBits = 2 := by decide +kernel

/-- Refutes O49: its part on accepted bursts speaks of every channel number, and on channel 3 · 2³² the counter of corrected bits is
terminal 0's counter of accepted bursts, so that one accepted burst with one corrected bit counts two accepted bursts. The device
has channels 0 to 511 only; the statement does not bound the number. -/
theorem not_burstLanesFollowTheirCues : ¬ Obligations.BurstLanesFollowTheirCues := by
  unfold Obligations.BurstLanesFollowTheirCues
  rintro ⟨-, -, -, hburst, -⟩
  obtain ⟨t, ht, -, -, haccepted⟩ := hburst 0 (collidingChannel 0) collidingBurst collidingState collidingItem []
    rfl rfl rfl rfl (by decide) (by decide) (by decide) rfl
  rw [if_pos collidingBurst_accepted] at haccepted
  obtain ⟨hone, -⟩ := haccepted
  obtain rfl := Host.Outcome.next.inj (collidingBurst_received.symm.trans ht)
  have hcounts : 2 = 1 := calc
    2 = ctrVal collidingOutcome 7 (collidingChannel 0) Cn.fecBits := collidingOutcome_fecBits.symm
    _ = ctrVal collidingOutcome 10 0 Cn.termAccepted := ctrVal_collidingChannel ..
    _ = ctrVal collidingState 10 0 Cn.termAccepted + 1 := hone
    _ = 1 := rfl
  exact absurd hcounts (by decide)

end Sys2Proof.Machine
end

section
/-! PROOFS. The flow/MAC table written by command: FMT_INSERT, FMT_DELETE and MATCH_STEP as a command ring serves them (R198, R216,
R219 to R221, R230, R232). -/

namespace Sys2Proof.Machine
open Sys2Proof

/-! ### The place of a key (R216, R220) -/

/-- Where there is a choice, one of the admissible values is taken. -/
theorem pick_mem {α : Type} {l : List α} (h : l ≠ []) (s : State) : ∃ x ∈ l, pick l s = some x :=
  have hi : Config.choice s.draw % l.length < l.length := Nat.mod_lt _ (List.length_pos_iff.2 h)
  ⟨_, List.getElem_mem hi, List.getElem?_eq_getElem hi⟩

/-- The greatest of some numbers, counted from 0, is one of them. -/
theorem foldl_max_mem {l : List Nat} (h : l ≠ []) : l.foldl max 0 ∈ l := by
  cases l with
  | nil => exact absurd rfl h
  | cons a l =>
    rw [List.foldl_cons, Nat.zero_max]
    exact List.max?_mem List.max?_cons'

section
variable {s : State} {d : DieId} {tenant key b : Nat}

theorem banksFor_of_bestBanks (h : b ∈ bestBanks s d tenant key) : b ∈ banksFor s d tenant key := (List.mem_filter.1 h).1

/-- Among the banks that can take a key, one has the most free entries. -/
theorem bestBanks_ne_nil (h : banksFor s d tenant key ≠ []) : bestBanks s d tenant key ≠ [] := by
  obtain ⟨b, hb, hmost⟩ := List.mem_map.1 (foldl_max_mem (l := (banksFor s d tenant key).map fun b => partFree s d b tenant) (by simpa))
  exact List.ne_nil_of_mem (List.mem_filter.2 ⟨hb, beq_iff_eq.2 hmost⟩)

/-- A bank that can take a key has a free index in the key's bucket. -/
theorem freeIndices_ne_nil (h : b ∈ banksFor s d tenant key) : freeIndices s d b key ≠ [] := by
  obtain ⟨-, hroom⟩ := List.mem_filter.1 h
  simp only [Bool.and_eq_true, Bool.not_eq_true', List.isEmpty_eq_false_iff] at hroom
  exact hroom.1.2

/-- A key that a bank can take is given a free index of its bucket in such a bank. -/
theorem placeFor_free (h : banksFor s d tenant key ≠ []) :
    ∃ b i, b ∈ banksFor s d tenant key ∧ i ∈ freeIndices s d b key ∧ placeFor s d tenant key = some (b, i) := by
  obtain ⟨b, hb, hpb⟩ := pick_mem (bestBanks_ne_nil h) s
  have hbank := banksFor_of_bestBanks hb
  obtain ⟨i, hi, hpi⟩ := pick_mem (freeIndices_ne_nil hbank) s
  exact ⟨b, i, hbank, hi, by simp [placeFor, hpb, hpi]⟩

end

/-! ### Writing the table of one die -/

section
variable {s : State} {d : DieId} {tenant vid mac dtype dvalue : Nat}

/-- An insert of a key without an entry, with room in a bank and no bank locked, adds the entry at a place for the key. -/
theorem insertOn_adds (hst : destStatus s tenant dtype dvalue = St.ok) (hf : fmtFind s d tenant vid mac = none)
    (hq : tableUse s d tenant < quotaOf s d tenant 1) (hb : banksFor s d tenant (fmtKey tenant vid mac) ≠ [])
    (hl : ∀ b, (lockOf s d b).owner = none) :
    ∃ b i, b ∈ banksFor s d tenant (fmtKey tenant vid mac) ∧ i ∈ freeIndices s d b (fmtKey tenant vid mac) ∧
      insertOn s d tenant vid mac dtype dvalue = .status St.ok b i (modFmt d (fun l =>
        { mac := mac, vid := vid, tenant := tenant, dtype := dtype, dvalue := dvalue, bank := b, index := i } :: l) (drawn s)) := by
  obtain ⟨b, i, hbank, hi, hp⟩ := placeFor_free hb
  exact ⟨b, i, hbank, hi, by simp [insertOn, hst, hf, Nat.not_le.2 hq, hp, writeAt, hl]⟩

variable {e : FmtEntry} (hf : fmtFind s d tenant vid mac = some e) (hd : e.isStatic = false)
include hf hd

/-- An insert of a key with a dynamic entry in an unlocked bank rewrites the entry's destination (log entry 12). -/
theorem insertOn_rewrites (hst : destStatus s tenant dtype dvalue = St.ok) (hl : (lockOf s d e.bank).owner = none) :
    insertOn s d tenant vid mac dtype dvalue = .status St.ok e.bank e.index
      (modFmt d (fun l => l.map fun x => if x = e then { e with dtype := dtype, dvalue := dvalue } else x) s) := by
  simp [insertOn, hst, hf, hd, hl]

theorem deleteOn_erases (hl : (lockOf s d e.bank).owner = none) :
    deleteOn s d tenant vid mac = some (St.ok, modFmt d (fun l => l.erase e) s) := by
  simp [deleteOn, hf, hd, hl]

theorem deleteOn_deferred (hl : (lockOf s d e.bank).owner ≠ none) : deleteOn s d tenant vid mac = none := by
  simp [deleteOn, hf, hd, Option.isSome_iff_ne_none.2 hl]

end

theorem deleteOn_absent {s : State} {d : DieId} {tenant vid mac : Nat} (hf : fmtFind s d tenant vid mac = none) :
    deleteOn s d tenant vid mac = some (St.handle, s) := by
  simp [deleteOn, hf]

@[simp] theorem fmtOf_modFmt_other (d : DieId) (f : List FmtEntry → List FmtEntry) (s : State) :
    fmtOf (modFmt d f s) (dieOf (1 - dieNum d)) = fmtOf s (dieOf (1 - dieNum d)) := by cases d <;> rfl

theorem modFmt_only {ps : List Part} {dt : Nat} {s u : State} (d : DieId) (f : List FmtEntry → List FmtEntry)
    (hu : only ps dt s u) (ht : Part.tab ∈ ps) : only ps dt s (modFmt d f u) := by
  refine ⟨by simpa using hu.1, by simpa using hu.2.1, fun p => ?_⟩
  have := hu.2.2 p
  cases p <;> simp_all [Part.same]

theorem modRing_only {ps : List Part} {dt : Nat} {s u : State} (p : PortId) (r : Nat) (f : Ring → Ring)
    (hu : only ps dt s u) (hh : Part.host ∈ ps) : only ps dt s (modRing p r f u) := by
  refine ⟨by simpa using hu.1, by simpa using hu.2.1, fun x => ?_⟩
  have := hu.2.2 x
  cases x <;> simp_all [Part.same]

/-! ### Served commands of the table -/

section
variable {dt opcode : Nat} {h : Hdr} {body : State → Served} {s : State}

/-- A served command that answers with a write of one die's table changes that table alone, beside the ring. -/
theorem hostCmd_writesFmt {a : Answer} {d : DieId} {f : List FmtEntry → List FmtEntry} {n : Nat} (hs : serves opcode h s)
    (hb : body (takeEntry h (tick dt s)) = .done a (modFmt d f { takeEntry h (tick dt s) with draw := n })) :
    fmtOf (hostCmd dt opcode h body s) d = f (fmtOf s d) ∧
      fmtOf (hostCmd dt opcode h body s) (dieOf (1 - dieNum d)) = fmtOf s (dieOf (1 - dieNum d)) ∧
      answered opcode h a s (hostCmd dt opcode h body s) ∧ only [.tab, .host, .ev] dt s (hostCmd dt opcode h body s) := by
  have hstart : only [.tab, .host, .ev] dt s { takeEntry h (tick dt s) with draw := n } :=
    only_mono (takeEntry_only dt h s) (by simp)
  refine ⟨?_, ?_, hostCmd_answered hs hb (by simp), hostCmd_only hs hb (modFmt_only _ _ hstart (by simp)) (by simp) (by simp)⟩
  · rw [hostCmd_done hs hb, fmtOf_postReply, fmtOf_modFmt_same]; rfl
  · rw [hostCmd_done hs hb, fmtOf_postReply, fmtOf_modFmt_other]; rfl

/-- A served command whose rules wait, with nothing changed yet, runs on its ring and changes nothing else. -/
theorem hostCmd_waits {w : Wait} {max : Time} (hs : serves opcode h s)
    (hb : body (takeEntry h (tick dt s)) = .wait w max (takeEntry h (tick dt s))) :
    waitsFor opcode h w max s (hostCmd dt opcode h body s) ∧ only [.host] dt s (hostCmd dt opcode h body s) := by
  rw [hostCmd_wait hs hb]
  refine ⟨⟨?_, ringsOnly_trans (takeEntry_ringsOnly h (tick dt s)) (modRing_ringsOnly h _ _)⟩,
    modRing_only _ _ _ (takeEntry_only dt h s) (by simp)⟩
  rw [ringOf_modRing_same, takeEntry_ring, modRing_now]
  rfl

end

theorem keyInRange_of {tenant vid mac : Nat} (ht : tenant < 64) (hv : vid < 4096) (hm : mac < 2 ^ 48) :
    keyInRange tenant vid mac = true := decide_eq_true ⟨ht, hv, hm⟩

/-! ### FMT_INSERT (R219 to R221, R230) -/

/-- The rules of FMT_INSERT. -/
def fmtInsertBody (dieMask tenant vid mac dtype dvalue : Nat) (s : State) : Served :=
  if !keyInRange tenant vid mac || dieMask = 0 || 3 < dieMask then fail St.parameter s
  else
    let r := insertAll (maskDies dieMask) tenant vid mac dtype dvalue [] s
    if r.1.isEmpty then .done { status := insertStatus r.2.1, result := r.2.1 } r.2.2
    else .wait (.fmtInsert r.1 tenant vid mac dtype dvalue r.2.1) (Time.ms 10) r.2.2

theorem exec_fmtInsert (dt : Nat) (h : Hdr) (dieMask tenant vid mac dtype dvalue : Nat) (s : State) :
    exec (.fmtInsert dt h dieMask tenant vid mac dtype dvalue) s =
      .next (hostCmd dt Op.fmtInsert h (fmtInsertBody dieMask tenant vid mac dtype dvalue) s) := rfl

theorem maskDies_dieNum (d : DieId) : maskDies (2 ^ dieNum d) = [d] := by cases d <;> rfl

/-- An insert on one die that succeeds at once answers the die, OK and the place. -/
theorem fmtInsertBody_ok {d : DieId} {tenant vid mac dtype dvalue b i : Nat} {s u : State} (hk : keyInRange tenant vid mac = true)
    (hi : insertOn s d tenant vid mac dtype dvalue = .status St.ok b i u) :
    fmtInsertBody (2 ^ dieNum d) tenant vid mac dtype dvalue s = .done { result := [dieNum d, St.ok, b, i] } u := by
  have hmask : ¬ 3 < 2 ^ dieNum d := by cases d <;> decide
  simp [fmtInsertBody, hk, hmask, maskDies_dieNum, insertAll, hi, insertStatus, St.ok]

/-! ### FMT_DELETE (R230, R232) -/

/-- The rules of FMT_DELETE. -/
def fmtDeleteBody (d : DieId) (tenant vid mac : Nat) (s : State) : Served :=
  if !keyInRange tenant vid mac then fail St.parameter s
  else
    match deleteOn s d tenant vid mac with
    | some (st, s) => .done { status := st } s
    | none => .wait (.fmtDelete d tenant vid mac) (Time.ms 10) s

theorem exec_fmtDelete (dt : Nat) (h : Hdr) (d : DieId) (tenant vid mac : Nat) (s : State) :
    exec (.fmtDelete dt h d tenant vid mac) s = .next (hostCmd dt Op.fmtDelete h (fmtDeleteBody d tenant vid mac) s) := rfl

section
variable {d : DieId} {tenant vid mac : Nat} {s u : State} (hk : keyInRange tenant vid mac = true)
include hk

theorem fmtDeleteBody_done {st : Nat} (hd : deleteOn s d tenant vid mac = some (st, u)) :
    fmtDeleteBody d tenant vid mac s = .done { status := st } u := by
  simp [fmtDeleteBody, hk, hd]

theorem fmtDeleteBody_deferred (hd : deleteOn s d tenant vid mac = none) :
    fmtDeleteBody d tenant vid mac s = .wait (.fmtDelete d tenant vid mac) (Time.ms 10) s := by
  simp [fmtDeleteBody, hk, hd]

end

/-! ### MATCH_STEP (R198) -/

/-- The rows that one MATCH_STEP lists: the next four after the cursor. -/
def listedRows (s : State) (d : DieId) (wide : Bool) (key cursor : Nat) : List Hit :=
  (afterCursor cursor (searchRows s (bankCfg s) d true key wide)).take 4

/-- The cursor after some listed rows. -/
def nextCursor (cursor : Nat) (l : List Hit) : Nat :=
  match l.getLast? with
  | none => cursor
  | some x => cursorOf x (seenIn cursor ++ l.map fun h => h.num % 65536)

/-- The three numbers of a listed row. -/
def rowTriple (x : Hit) : List Nat := [x.num % 65536, x.phys, x.priority]

/-- The rules of MATCH_STEP. -/
def matchStepBody (d : DieId) (wide : Bool) (key cursor : Nat) (s : State) : Served :=
  if 2 ^ (if wide then 640 else 320) ≤ key then fail St.parameter s
  else .done { result := (listedRows s d wide key cursor).flatMap rowTriple ++ [nextCursor cursor (listedRows s d wide key cursor)] } s

theorem exec_matchStep (dt : Nat) (h : Hdr) (d : DieId) (wide : Bool) (key cursor : Nat) (s : State) :
    exec (.matchStep dt h d wide key cursor) s = .next (hostCmd dt Op.matchStep h (matchStepBody d wide key cursor) s) := rfl

theorem length_flatMap_rowTriple (l : List Hit) : (l.flatMap rowTriple).length = 3 * l.length := by
  induction l with
  | nil => rfl
  | cons x l ih =>
    have htriple : (rowTriple x).length = 3 := rfl
    rw [List.flatMap_cons, List.length_append, List.length_cons, ih, htriple]
    omega

theorem length_listedRows_le (s : State) (d : DieId) (wide : Bool) (key cursor : Nat) :
    (listedRows s d wide key cursor).length ≤ 4 := List.length_take_le ..

/-! ### The statement -/

/-- Settles O17, by what an insert and a delete on one die come to in each case and what a write of one die's table leaves alone. -/
theorem flowMacEntriesByCommand : Obligations.FlowMacEntriesByCommand := by
  unfold Obligations.FlowMacEntriesByCommand
  refine ⟨?insertNew, ?insertRewrite, ?delete, ?deleteAbsent, ?deleteLocked, ?step⟩
  case insertNew =>
    intro dt h d tenant vid mac dtype dvalue s hs ht hv hm hst hf hq hb hl
    obtain ⟨b, i, hbank, hi, hins⟩ := insertOn_adds (s := takeEntry h (tick dt s)) hst hf hq hb hl
    exact ⟨_, exec_fmtInsert .., b, i, hbank, hi, hostCmd_writesFmt hs (fmtInsertBody_ok (keyInRange_of ht hv hm) hins)⟩
  case insertRewrite =>
    intro dt h d tenant vid mac dtype dvalue s e hs ht hv hm hst hf hd hl
    have hins := insertOn_rewrites (s := takeEntry h (tick dt s)) hf hd hst hl
    exact ⟨_, exec_fmtInsert .., hostCmd_writesFmt hs (fmtInsertBody_ok (keyInRange_of ht hv hm) hins)⟩
  case delete =>
    intro dt h d tenant vid mac s e hs ht hv hm hf hd hl
    have hdel := deleteOn_erases (s := takeEntry h (tick dt s)) hf hd hl
    exact ⟨_, exec_fmtDelete .., hostCmd_writesFmt hs (fmtDeleteBody_done (keyInRange_of ht hv hm) hdel)⟩
  case deleteAbsent =>
    intro dt h d tenant vid mac s hs ht hv hm hf
    have hdel := deleteOn_absent (s := takeEntry h (tick dt s)) hf
    obtain ⟨ha, -, ho⟩ := hostCmd_fail hs (fmtDeleteBody_done (keyInRange_of ht hv hm) hdel)
    exact ⟨_, exec_fmtDelete .., ha, ho⟩
  case deleteLocked =>
    intro dt h d tenant vid mac s e hs ht hv hm hf hd hl
    have hdel := deleteOn_deferred (s := takeEntry h (tick dt s)) hf hd hl
    exact ⟨_, exec_fmtDelete .., hostCmd_waits hs (fmtDeleteBody_deferred (keyInRange_of ht hv hm) hdel)⟩
  case step =>
    intro dt h d wide key cursor s hs hk
    have hb : matchStepBody d wide key cursor (takeEntry h (tick dt s)) = _ := if_neg (Nat.not_le.2 hk)
    have hlen := length_flatMap_rowTriple (listedRows (takeEntry h (tick dt s)) d wide key cursor)
    have hfour := length_listedRows_le (takeEntry h (tick dt s)) d wide key cursor
    refine ⟨_, exec_matchStep .., _, _, by omega, by omega, hostCmd_answered hs hb rfl, hostCmd_only hs hb ?_ (by simp) (by simp)⟩
    exact only_mono (takeEntry_only dt h s) (by simp)

end Sys2Proof.Machine
end

section
/-! PROOFS. The Key Cellar's slots (R259 to R262): what a key reads as after a change of it or of the other key of its slot; and what
single steps of a command may change and add to the records held for delivery. -/

namespace Sys2Proof.Machine
open Sys2Proof

/-! ### What a step may change -/

/-- What further steps without time may change is what they or the steps before them may. -/
theorem only_then {ps qs : List Part} {dt : Nat} {s u t : State} (h : only ps dt s u) (k : only qs 0 u t) (hsub : qs ⊆ ps) :
    only ps dt s t := by
  obtain ⟨hp, hn, hs⟩ := h
  obtain ⟨kp, kn, ks⟩ := k
  refine ⟨kp.trans hp, kn.trans hn, fun p => (ks p).elim (fun hq => .inl (hsub hq)) fun e => (hs p).imp_right fun e' => ?_⟩
  cases p <;> exact Eq.trans e e'

theorem tick_only (ps : List Part) (dt : Nat) (s : State) : only ps dt s (tick dt s) :=
  ⟨rfl, rfl, fun p => .inr (by cases p <;> rfl)⟩

theorem modTerm_only (x : Nat) (f : Terminal → Terminal) (s : State) : only [.pon] 0 s (modTerm x f s) :=
  ⟨rfl, rfl, fun p => by cases p <;> simp [Part.same]⟩

theorem setCiph_only (c : CipherSt) (s : State) : only [.ciph] 0 s { s with ciph := c } :=
  ⟨rfl, rfl, fun p => by cases p <;> simp [Part.same]⟩

theorem bump_only (g o j n : Nat) (s : State) : only [.ctr, .ev] 0 s (bump g o j n s) :=
  ⟨bump_pending .., bump_now .., fun p => by cases p <;> simp [Part.same]⟩

theorem raise_only (n : Nat) (d : DieId) (a : List Arg) (s : State) : only [.ev] 0 s (raise n d a s) :=
  ⟨rfl, rfl, fun p => by cases p <;> simp [Part.same]⟩

theorem modTerm_onlyKey (x : Nat) (f : Terminal → Terminal) (s : State) : onlyKey x s.pon.terms (modTerm x f s).pon.terms :=
  fun j hj => Tab.find?_upd_ne ({} : Terminal) x j f s.pon.terms hj

/-! ### Records held for delivery -/

@[simp] theorem postReply_held (p : PortId) (r o : Nat) (q z : Word) (g : Bool) (a : Answer) (s : State) :
    (postReply p r o q z g a s).ev.held = s.ev.held := by
  unfold postReply
  split
  · cases g <;> simp
  · rfl

theorem raiseLimited_held (n : Nat) (d : DieId) (j : Nat) (p : Time) (a : List Arg) (s : State) :
    ∃ l, (raiseLimited n d j p a s).ev.held = s.ev.held ++ l := by
  unfold raiseLimited
  split
  · split
    · exact ⟨[], (List.append_nil _).symm⟩
    · exact ⟨_, rfl⟩
  · exact ⟨_, rfl⟩

/-- Counting adds at most the record of a wrap. -/
theorem bump_held (g o j n : Nat) (s : State) : ∃ l, (bump g o j n s).ev.held = s.ev.held ++ l := by
  unfold bump
  simp only []
  split
  · exact raiseLimited_held ..
  · exact ⟨[], (List.append_nil _).symm⟩

theorem raisedAmong_raise {num : Nat} {die : DieId} {args : List Arg} {s u : State} {l : List EvRec}
    (h : u.ev.held = s.ev.held ++ l) : raisedAmong num die args s (raise num die args u) :=
  ⟨l, evRec num false die 0 args u, [], by rw [raise_held, h], rfl, rfl, rfl, rfl⟩

/-! ### A key of a slot -/

/-- The first entry of a kind is the one written, when the first of its kind before, if any, stood at the same key. -/
theorem find?_tabSet {α : Type} {p : Nat × α → Bool} {k : Nat} {v : α} (hv : p (k, v) = true) :
    ∀ t : Tab α, (∀ x, List.find? p t = some x → x.1 = k) → List.find? p (Tab.set k v t) = some (k, v)
  | [], _ => by simp [Tab.set, hv]
  | (j, w) :: t, h => by
    simp only [Tab.set]
    split
    · exact List.find?_cons_of_pos hv
    split
    · exact List.find?_cons_of_pos hv
    next hne =>
      by_cases hw : p (j, w) = true
      · exact absurd (h _ (List.find?_cons_of_pos hw)).symm hne
      · rw [List.find?_cons_of_neg hw] at h ⊢
        exact find?_tabSet hv t h

/-- A key of a slot by its index. -/
def KeySlot.key (x : KeySlot) (i : Nat) : KeyVal := if i = 2 then x.key2 else x.key1

/-- A slot with the key of an index changed. -/
def KeySlot.mod (x : KeySlot) (i : Nat) (f : KeyVal → KeyVal) : KeySlot :=
  if i = 2 then { x with key2 := f x.key2 } else { x with key1 := f x.key1 }

@[simp] theorem KeySlot.mod_kind (x : KeySlot) (i : Nat) (f : KeyVal → KeyVal) : (x.mod i f).kind = x.kind := by
  unfold KeySlot.mod; split <;> rfl
@[simp] theorem KeySlot.mod_owner (x : KeySlot) (i : Nat) (f : KeyVal → KeyVal) : (x.mod i f).owner = x.owner := by
  unfold KeySlot.mod; split <;> rfl
theorem KeySlot.key_mod_same (x : KeySlot) (i : Nat) (f : KeyVal → KeyVal) : (x.mod i f).key i = f (x.key i) := by
  unfold KeySlot.mod KeySlot.key; split <;> rfl
theorem KeySlot.key_mod_other (x : KeySlot) {i j : Nat} (h : ¬ (i = 2 ↔ j = 2)) (f : KeyVal → KeyVal) :
    (x.mod i f).key j = x.key j := by
  unfold KeySlot.mod KeySlot.key
  by_cases hi : i = 2
  · have hj : ¬ j = 2 := fun hj => h ⟨fun _ => hj, fun _ => hi⟩
    rw [if_pos hi, if_neg hj, if_neg hj]
  · have hj : j = 2 := Decidable.byContradiction fun hj => h ⟨fun e => absurd e hi, fun e => absurd e hj⟩
    rw [if_neg hi, if_pos hj, if_pos hj]

section
variable (s : State) (d : DieId) (kind owner : Nat)

/-- The number of the slot that an owner has, or would take. -/
def ownSlotNum : Nat := (slotFor? s d kind owner).getD (freeSlot s d)

/-- The slot that an owner has, or the empty one that it would take. -/
def ownSlot : KeySlot := s.ciph.slots.getD (ownSlotNum s d kind owner) { kind := kind, owner := owner }

theorem modKey_eq (i : Nat) (f : KeyVal → KeyVal) :
    modKey d kind owner i f s = modSlots (fun t => t.set (ownSlotNum s d kind owner) ((ownSlot s d kind owner).mod i f)) s := rfl

end

section
variable {s : State} {d : DieId} {kind owner : Nat}

/-- The slot of an owner is on its die. -/
theorem slotFor?_die {k : Nat} (h : slotFor? s d kind owner = some k) : k / Config.keySlots = dieNum d := by
  obtain ⟨x, hx, rfl⟩ := Option.map_eq_some_iff.1 h
  have := List.find?_some hx
  simp only [Bool.and_eq_true, beq_iff_eq] at this
  exact this.1.1

variable (hp : keyPlace s d kind owner)
include hp

theorem ownSlotNum_die : ownSlotNum s d kind owner / Config.keySlots = dieNum d := by
  unfold keyPlace at hp
  unfold ownSlotNum
  cases hk : slotFor? s d kind owner with
  | none => rw [hk] at hp; exact hp.2
  | some k => exact slotFor?_die hk

theorem ownSlot_named : (ownSlot s d kind owner).kind = kind ∧ (ownSlot s d kind owner).owner = owner := by
  unfold keyPlace at hp
  unfold ownSlot ownSlotNum
  cases hk : slotFor? s d kind owner with
  | none => rw [hk] at hp; simp [Tab.getD, hp.1]
  | some k =>
    rw [hk] at hp
    obtain ⟨x, hx, hkind, howner⟩ := hp
    simp [Tab.getD, hx, hkind, howner]

theorem keyOf_eq (i : Nat) : keyOf s d kind owner i = (ownSlot s d kind owner).key i := by
  unfold keyPlace at hp
  unfold keyOf ownSlot ownSlotNum
  cases hk : slotFor? s d kind owner with
  | none => rw [hk] at hp; simp [Tab.getD, hp.1, KeySlot.key]
  | some k => rfl

variable (i : Nat) (f : KeyVal → KeyVal)

/-- A changed key stands in the slot that the owner had, or has taken the free one. -/
theorem slotFor?_modKey : slotFor? (modKey d kind owner i f s) d kind owner = some (ownSlotNum s d kind owner) := by
  obtain ⟨hkind, howner⟩ := ownSlot_named hp
  have hset := find?_tabSet
    (p := fun p : Nat × KeySlot => p.1 / Config.keySlots == dieNum d && p.2.kind == kind && p.2.owner == owner)
    (k := ownSlotNum s d kind owner) (v := (ownSlot s d kind owner).mod i f)
    (by simp [ownSlotNum_die hp, hkind, howner]) s.ciph.slots (fun x hx => by simp [ownSlotNum, slotFor?, hx])
  rw [modKey_eq]
  simp [slotFor?, modSlots, hset]

theorem ownSlotNum_modKey : ownSlotNum (modKey d kind owner i f s) d kind owner = ownSlotNum s d kind owner := by
  rw [ownSlotNum, slotFor?_modKey hp]; rfl

theorem ownSlot_modKey : ownSlot (modKey d kind owner i f s) d kind owner = (ownSlot s d kind owner).mod i f := by
  rw [ownSlot, ownSlotNum_modKey hp, modKey_eq]
  exact Tab.getD_set_same ..

theorem keyPlace_modKey : keyPlace (modKey d kind owner i f s) d kind owner := by
  obtain ⟨hkind, howner⟩ := ownSlot_named hp
  unfold keyPlace
  rw [slotFor?_modKey hp]
  exact ⟨_, Tab.find?_set_same .., (KeySlot.mod_kind (ownSlot s d kind owner) i f).trans hkind,
    (KeySlot.mod_owner (ownSlot s d kind owner) i f).trans howner⟩

theorem keyOf_modKey_same : keyOf (modKey d kind owner i f s) d kind owner i = f (keyOf s d kind owner i) := by
  rw [keyOf_eq (keyPlace_modKey hp i f), ownSlot_modKey hp, KeySlot.key_mod_same, keyOf_eq hp]

theorem keyOf_modKey_other {i j : Nat} (h : ¬ (i = 2 ↔ j = 2)) :
    keyOf (modKey d kind owner i f s) d kind owner j = keyOf s d kind owner j := by
  rw [keyOf_eq (keyPlace_modKey hp i f), ownSlot_modKey hp, KeySlot.key_mod_other _ h, keyOf_eq hp]

end

theorem otherIndex_other (i : Nat) : ¬ (i = 2 ↔ otherIndex i = 2) := by
  unfold otherIndex
  split
  next hi => simp [hi]
  next hi => simp [hi]

/-! ### What the keys depend on -/

section
variable {s t : State}

theorem slotFor?_of_slots (e : t.ciph.slots = s.ciph.slots) (d : DieId) (kind owner : Nat) :
    slotFor? t d kind owner = slotFor? s d kind owner := by
  unfold slotFor?
  rw [e]

theorem keyOf_of_slots (e : t.ciph.slots = s.ciph.slots) (d : DieId) (kind owner i : Nat) :
    keyOf t d kind owner i = keyOf s d kind owner i := by
  unfold keyOf
  rw [slotFor?_of_slots e, e]

theorem currentIndex_of_slots (e : t.ciph.slots = s.ciph.slots) (d : DieId) (kind owner : Nat) :
    currentIndex t d kind owner = currentIndex s d kind owner := by
  unfold currentIndex
  rw [keyOf_of_slots e, keyOf_of_slots e]

theorem lowestFree_of_slots (e : t.ciph.slots = s.ciph.slots) (eq : t.stitch.quarantined = s.stitch.quarantined) :
    ∀ n k, lowestFree t n k = lowestFree s n k
  | 0, _ => rfl
  | n + 1, k => by
    have htaken : slotTaken t k = slotTaken s k := by unfold slotTaken; rw [e, eq]
    rw [lowestFree, lowestFree, htaken, lowestFree_of_slots e eq n]

theorem keyPlace_of_slots {d : DieId} {kind owner : Nat} (e : t.ciph.slots = s.ciph.slots)
    (eq : t.stitch.quarantined = s.stitch.quarantined) (h : keyPlace s d kind owner) : keyPlace t d kind owner := by
  have hfree : freeSlot t d = freeSlot s d := by unfold freeSlot; rw [lowestFree_of_slots e eq, e, eq]
  unfold keyPlace at h ⊢
  rwa [slotFor?_of_slots e, hfree, e]

end

end Sys2Proof.Machine
end

section
/-! PROOFS. KEY_IMPORT as a command ring serves it (R270 to R273). -/

namespace Sys2Proof.Machine
open Sys2Proof

/-! ### What a record comes to (R272) -/

/-- The rules of KEY_IMPORT. -/
def keyImportBody (r : List Byte) (s : State) : Served := if r.length != 84 then fail St.parameter s else importRecord r s

theorem exec_keyImport (dt : Nat) (h : Hdr) (r : List Byte) (s : State) :
    exec (.keyImport dt h r) s = .next (hostCmd dt Op.keyImport h (keyImportBody r) s) := rfl

/-- A key as it stands in its slot once an import has loaded it. -/
def importedKey (key : List Byte) (s : State) : KeyVal := { st := .loaded, bytes := key, loadedSf := s.pon.sf }

/-- A record is accepted and its key loaded into a slot. -/
def importInto (r key : List Byte) (d : DieId) (kind owner i : Nat) (s : State) : State :=
  modKey d kind owner i (fun _ => importedKey key s) (acceptedRec r s)

section
variable {r key : List Byte} {u : State}

theorem keyImportBody_short (hl : r.length ≠ 84) : keyImportBody r u = fail St.parameter u := by
  simp [keyImportBody, hl]

theorem keyImportBody_long (hl : r.length = 84) : keyImportBody r u = importRecord r u := by
  simp [keyImportBody, hl]

theorem importRecord_refused (hu : unwrap u r = none) :
    importRecord r u = fail St.keyWrap (raise Ev.keyImportFail .east [] u) := by
  simp [importRecord, hu]

variable (hu : unwrap u r = some key)
include hu

theorem importRecord_importKey (hk : wkKind r = 1) :
    importRecord r u = .done { result := [0xFFFFFFFF, checkValue key] }
      { u with ciph := { u.ciph with importKey := some key, lastSequence := none } } := by
  simp [importRecord, hu, hk]

theorem importRecord_msk (hk : wkKind r = 2) {x : Nat} (hx : x = wkBinding r % 65536) (ht : (cfgOf u).has Kind.terminal x = true) :
    ∃ slot, importRecord r u = .done { result := [slot, checkValue key] }
      (modTerm x (fun y => { y with msk := some key }) (importInto r key (dieOfTerm u x) slotExchange x 2 u)) := by
  subst hx
  simp only [importRecord, hu, hk, ht]
  exact ⟨_, rfl⟩

theorem importRecord_sak (hk : wkKind r = 3) {a : Nat} (ha : a = wkAssoc r) (hp : (cfgOf u).has Kind.subport (a / 36) = true)
    (hf : assocUsable u (a / 36) a = false) (hl : key.length = sakBytes u (a / 36)) :
    ∃ slot, importRecord r u = .done { result := [slot, checkValue key] }
      (modAssoc a (fun _ => {}) (importInto r key (dieOfPort (a / 36)) slotSak a 1 u)) := by
  subst ha
  simp only [importRecord, hu, hk, loadSak, hp, hl, hf, bne_self_eq_false]
  exact ⟨_, rfl⟩

theorem importRecord_sak_length (hk : wkKind r = 3) (hp : (cfgOf u).has Kind.subport (wkAssoc r / 36) = true)
    (hl : key.length ≠ sakBytes u (wkAssoc r / 36)) : importRecord r u = fail St.parameter u := by
  simp [importRecord, hu, hk, loadSak, hp, hl]

theorem importRecord_pairing (hk : wkKind r = 4) :
    ∃ slot, importRecord r u = .done { result := [slot, checkValue key] }
      { importInto r key .east slotSeam 0 1 u with
        ciph := { (importInto r key .east slotSeam 0 1 u).ciph with pairingKey := some key } } := by
  simp only [importRecord, hu, hk]
  exact ⟨_, rfl⟩

end

/-! ### What an import changes -/

section
variable {r key : List Byte} {d : DieId} {kind owner i : Nat} {s : State}

theorem importInto_only : only [.ciph] 0 s (importInto r key d kind owner i s) := setCiph_only _ s

theorem keyOf_importInto (hp : keyPlace s d kind owner) :
    keyOf (importInto r key d kind owner i s) d kind owner i = importedKey key s :=
  have hplace : keyPlace (acceptedRec r s) d kind owner := keyPlace_of_slots (s := s) rfl rfl hp
  keyOf_modKey_same hplace ..

end

@[simp] theorem assocOf_modAssoc_same (a : Nat) (f : SecAssoc → SecAssoc) (s : State) : assocOf (modAssoc a f s) a = f (assocOf s a) :=
  Tab.getD_upd_same ..

/-! ### Served imports -/

section
variable {dt : Nat} {h : Hdr} {r : List Byte} {s : State} (hs : serves Op.keyImport h s)
include hs

theorem keyImport_fails {st : Nat}
    (hb : keyImportBody r (takeEntry h (tick dt s)) = fail st (takeEntry h (tick dt s))) :
    goesTo (.keyImport dt h r) s fun t => answered Op.keyImport h { status := st } s t ∧ only [.host, .ev] dt s t :=
  have ⟨hans, _, honly⟩ := hostCmd_fail hs hb
  ⟨_, exec_keyImport .., hans, honly⟩

variable (hl : r.length = 84)
include hl

/-- A record that does not unwrap is answered KEY_WRAP with the event, and no key changes. -/
theorem keyImport_refused (hu : unwrap s r = none) :
    goesTo (.keyImport dt h r) s fun t => answered Op.keyImport h { status := St.keyWrap } s t ∧
      raisedAmong Ev.keyImportFail .east [] s t ∧ only [.host, .ev] dt s t := by
  have hb : keyImportBody r (takeEntry h (tick dt s)) =
      .done { status := St.keyWrap } (raise Ev.keyImportFail .east [] (takeEntry h (tick dt s))) :=
    (keyImportBody_long hl).trans (importRecord_refused hu)
  have hstart : only [.host, .ev] dt s (takeEntry h (tick dt s)) := only_mono (takeEntry_only dt h s) (by simp)
  refine ⟨_, exec_keyImport .., hostCmd_answered hs hb rfl, ?_,
    hostCmd_only hs hb (only_then hstart (raise_only ..) (by simp)) (by simp) (by simp)⟩
  obtain ⟨l, x, l', hheld, hrec⟩ := raisedAmong_raise (num := Ev.keyImportFail) (die := .east) (args := [])
    (s := s) (u := takeEntry h (tick dt s)) (l := []) (List.append_nil _).symm
  refine ⟨l, x, l', ?_, hrec⟩
  rw [hostCmd_done hs hb, postReply_held, hheld]

/-- An accepted record is answered, and the keys and the terminals are as its rules have left them. -/
theorem keyImport_done {ps : List Part} {a : Answer} {u : State}
    (hb : importRecord r (takeEntry h (tick dt s)) = .done a u) (hu : only ps 0 (takeEntry h (tick dt s)) u) (hh : Part.host ∉ ps) :
    ∃ t, exec (.keyImport dt h r) s = .next t ∧ t.ciph = u.ciph ∧ t.pon = u.pon ∧ answered Op.keyImport h a s t ∧
      only ([.host, .ev] ++ ps) dt s t := by
  have hb' := (keyImportBody_long hl).trans hb
  have hhost : u.host = (takeEntry h (tick dt s)).host := (hu.2.2 .host).resolve_left hh
  have hstart : only ([.host, .ev] ++ ps) dt s (takeEntry h (tick dt s)) := only_mono (takeEntry_only dt h s) (by simp)
  refine ⟨_, exec_keyImport .., ?_, ?_, hostCmd_answered hs hb' hhost,
    hostCmd_only hs hb' (only_then hstart hu (List.subset_append_right ..)) (by simp) (by simp)⟩
  · rw [hostCmd_done hs hb', postReply_ciph]
  · rw [hostCmd_done hs hb', postReply_pon]

end

/-- Settles O33, by what a record of each kind comes to and what the key of a slot reads as once it is loaded. -/
theorem wrappedKeysAreImported : Obligations.WrappedKeysAreImported := by
  unfold Obligations.WrappedKeysAreImported
  refine ⟨fun dt h r s hs hl => keyImport_fails hs (keyImportBody_short hl), ?_⟩
  intro dt h r s hs hl refused told loaded
  refine ⟨?importKey, ?msk, ?sak, ?pairing⟩
  case importKey =>
    intro hk
    cases hu : unwrap s r with
    | none => exact keyImport_refused hs hl hu
    | some key =>
      obtain ⟨t, hexec, hciph, -, hans, honly⟩ := keyImport_done (ps := [.ciph]) hs hl
        (importRecord_importKey (u := takeEntry h (tick dt s)) hu hk) (setCiph_only ..) (by simp)
      exact ⟨t, hexec, hciph, ⟨_, hans⟩, honly⟩
  case msk =>
    intro hk ht hp
    cases hu : unwrap s r with
    | none => exact keyImport_refused hs hl hu
    | some key =>
      obtain ⟨slot, hb⟩ := importRecord_msk (u := takeEntry h (tick dt s)) hu hk rfl ht
      obtain ⟨t, hexec, hciph, hpon, hans, honly⟩ := keyImport_done (ps := [.ciph, .pon]) hs hl hb
        (only_then (only_mono importInto_only (by simp)) (modTerm_only ..) (by simp)) (by simp)
      refine ⟨t, hexec, ?_, ?_, ?_, ⟨slot, hans⟩, honly⟩
      · have hslots : t.ciph.slots = (importInto r key _ slotExchange _ 2 (takeEntry h (tick dt s))).ciph.slots :=
          congrArg (·.slots) hciph
        rw [keyOf_of_slots hslots]
        exact keyOf_importInto (keyPlace_of_slots (s := s) rfl rfl hp)
      · rw [termOf, hpon]
        exact congrArg (·.msk) (termOf_modTerm_same ..)
      · rw [hciph]; rfl
  case sak =>
    intro hk hport hfree hp
    cases hu : unwrap s r with
    | none => exact keyImport_refused hs hl hu
    | some key =>
      by_cases hlen : key.length = sakBytes s (wkAssoc r / 36)
      · simp only [if_pos hlen]
        obtain ⟨slot, hb⟩ := importRecord_sak (u := takeEntry h (tick dt s)) hu hk rfl hport hfree hlen
        obtain ⟨t, hexec, hciph, -, hans, honly⟩ := keyImport_done (ps := [.ciph]) hs hl hb
          (only_then importInto_only (setCiph_only ..) (by simp)) (by simp)
        have hslots : t.ciph.slots = (importInto r key _ slotSak _ 1 (takeEntry h (tick dt s))).ciph.slots := congrArg (·.slots) hciph
        refine ⟨t, hexec, ?_, ?_, ?_, ⟨slot, hans⟩, honly⟩
        · rw [keyOf_of_slots hslots]
          exact keyOf_importInto (keyPlace_of_slots (s := s) rfl rfl hp)
        · rw [hciph]
          exact congrArg SecAssoc.pn (assocOf_modAssoc_same (wkAssoc r) (fun _ => {}) _)
        · rw [hciph]; rfl
      · simp only [if_neg hlen]
        exact keyImport_fails hs ((keyImportBody_long hl).trans (importRecord_sak_length (u := takeEntry h (tick dt s)) hu hk hport hlen))
  case pairing =>
    intro hk hp
    cases hu : unwrap s r with
    | none => exact keyImport_refused hs hl hu
    | some key =>
      obtain ⟨slot, hb⟩ := importRecord_pairing (u := takeEntry h (tick dt s)) hu hk
      obtain ⟨t, hexec, hciph, -, hans, honly⟩ := keyImport_done (ps := [.ciph]) hs hl hb
        (only_then importInto_only (setCiph_only ..) (by simp)) (by simp)
      have hslots : t.ciph.slots = (importInto r key .east slotSeam 0 1 (takeEntry h (tick dt s))).ciph.slots := congrArg (·.slots) hciph
      refine ⟨t, hexec, ?_, ?_, ?_, ⟨slot, hans⟩, honly⟩
      · rw [hciph]
      · rw [keyOf_of_slots hslots]
        exact keyOf_importInto (keyPlace_of_slots (s := s) rfl rfl hp)
      · rw [hciph]; rfl

end Sys2Proof.Machine
end

section
/-! PROOFS. Terminal key exchanges (R264 to R268): how one starts, its reports, its switch and its end. -/

namespace Sys2Proof.Machine
open Sys2Proof

/-! ### Telling the standby -/

theorem seamSend_only (q : Nat) (m : SeamMsg) (s : State) : only [.twin] 0 s (seamSend q m s) := by
  obtain ⟨twin, out, e⟩ := seamSend_same q m s
  rw [e]
  exact ⟨rfl, rfl, fun p => by cases p <;> simp [Part.same]⟩

/-- Sending a changed key to the standby changes nothing but the twin. -/
theorem sendKey_only (d : DieId) (kind owner i : Nat) (s : State) : only [.twin] 0 s (sendKey d kind owner i s) := by
  unfold sendKey toStandby
  cases mirrors s
  · exact ⟨rfl, rfl, fun p => .inr (by cases p <;> rfl)⟩
  · exact seamSend_only ..

section
variable (d : DieId) (kind owner i : Nat) (s : State)

@[simp] theorem sendKey_pon : (sendKey d kind owner i s).pon = s.pon := ((sendKey_only ..).2.2 .pon).resolve_left (by simp)
@[simp] theorem sendKey_ciph : (sendKey d kind owner i s).ciph = s.ciph := ((sendKey_only ..).2.2 .ciph).resolve_left (by simp)

end

/-! ### PLOAM messages to a terminal (R68) -/

section
variable {c x o : Nat} {s : State}

theorem sendPloam_only (m : Ploam) : only [.pon, .ctr, .ev] 0 s (sendPloam c m s) := by
  have hmod : ∀ f, only [.pon] 0 s (modCh c f s) := fun f => ⟨rfl, rfl, fun p => by cases p <;> simp [Part.same]⟩
  unfold sendPloam
  simp only []
  split
  · split
    · exact only_mono (hmod _) (by simp)
    · exact only_then (only_mono (hmod _) (by simp)) (bump_only ..) (by simp)
  · exact ⟨rfl, rfl, fun p => .inr (by cases p <;> rfl)⟩

@[simp] theorem sendPloam_terms (m : Ploam) : (sendPloam c m s).pon.terms = s.pon.terms := by
  unfold sendPloam
  simp only []
  split
  · split <;> simp [modCh]
  · rfl

@[simp] theorem sendPloam_ciph (m : Ploam) : (sendPloam c m s).ciph = s.ciph := ((sendPloam_only m).2.2 .ciph).resolve_left (by simp)

theorem termOf_sendPloam (m : Ploam) : termOf (sendPloam c m s) x = termOf s x := by simp [termOf]

/-- A message for a channel with a PLOAM queue waits in it, or is held where it is full. -/
theorem sendPloam_waits (m : Ploam) (hq : hasPloamQueue (chOf s c).st = true) : ploamWaits c m (sendPloam c m s) := by
  unfold sendPloam ploamWaits
  rw [if_pos hq]
  split <;> simp

theorem sendTo_eq (m : Nat → Ploam) (hc : (termOf s x).ch = some c) (ho : (termOf s x).onu = some o) :
    sendTo x m s = sendPloam c (m o) s := by simp [sendTo, hc, ho]

end

/-! ### The start of an exchange (R265, R266) -/

/-- An exchange begins at an index. -/
def exchangeBegun (x i : Nat) (s : State) : State :=
  awaitPloam x (modTerm x (fun y => { y with exch := some { index := i, startedAt := s.now }, exchRetryAt := none }) s)

theorem exchangeBegun_only (x i : Nat) (s : State) : only [.pon] 0 s (exchangeBegun x i s) :=
  only_then (modTerm_only ..) (modTerm_only ..) (by simp)

theorem exchangeBegun_onlyKey (x i : Nat) (s : State) : onlyKey x s.pon.terms (exchangeBegun x i s).pon.terms :=
  fun j hj => (modTerm_onlyKey _ _ _ j hj).trans (modTerm_onlyKey _ _ _ j hj)

theorem termOf_exchangeBegun (x i : Nat) (s : State) : termOf (exchangeBegun x i s) x =
    { termOf s x with exch := some { index := i, startedAt := s.now }, exchRetryAt := none, needPloamu := true } := by
  simp [exchangeBegun, awaitPloam]

section
variable {dt x c o : Nat} {s : State} (hheld : s.twin.held = true) (hop : (termOf s x).st = .operational)
  (hc : (termOf s x).ch = some c) (ho : (termOf s x).onu = some o) (hq : hasPloamQueue (chOf s c).st = true)
  (hnone : (termOf s x).exch = none)
include hheld hop hc ho hnone

theorem startExchange_eq :
    startExchange x s = sendPloam c (.keyControl o false (exchangeIndex s x)) (exchangeBegun x (exchangeIndex s x) s) := by
  have hx := termOf_exchangeBegun x (exchangeIndex s x) s
  rw [← sendTo_eq (x := x) (fun o => .keyControl o false (exchangeIndex s x)) (by rw [hx]; exact hc) (by rw [hx]; exact ho)]
  simp [startExchange, exchangeBegun, hheld, hop, hnone]

include hq

/-- An exchange that starts stands at the index that is not CURRENT, with its Key_Control waiting, and touches no other terminal. -/
theorem startExchange_starts :
    (termOf (startExchange x s) x).exch = some { index := exchangeIndex s x, startedAt := s.now } ∧
      (termOf (startExchange x s) x).exchRetryAt = none ∧
      ploamWaits c (.keyControl o false (exchangeIndex s x)) (startExchange x s) ∧
      onlyKey x s.pon.terms (startExchange x s).pon.terms ∧ only [.pon, .ctr, .ev] 0 s (startExchange x s) := by
  rw [startExchange_eq hheld hop hc ho hnone, termOf_sendPloam, termOf_exchangeBegun, sendPloam_terms]
  exact ⟨rfl, rfl, sendPloam_waits _ hq, exchangeBegun_onlyKey _ _ _,
    only_then (only_mono (exchangeBegun_only ..) (by simp)) (sendPloam_only _) (List.Subset.refl _)⟩

end

section
variable {s : State} {d : DieId} {kind x i : Nat}

theorem currentIndex_cases (h : currentIndex s d kind x = some i) : (i = 1 ∨ i = 2) ∧ (keyOf s d kind x i).st = .current := by
  unfold currentIndex at h
  split at h
  next h1 => cases h; exact ⟨.inl rfl, beq_iff_eq.1 h1⟩
  next =>
    split at h
    next h2 => cases h; exact ⟨.inr rfl, beq_iff_eq.1 h2⟩
    next => cases h

/-- An owner without a slot has no key that is CURRENT. -/
theorem slotFor?_of_currentIndex (h : currentIndex s d kind x = some i) : (slotFor? s d kind x).isSome = true := by
  have hcur := (currentIndex_cases h).2
  unfold keyOf at hcur
  cases hk : slotFor? s d kind x with
  | none => rw [hk] at hcur; cases hcur
  | some k => rfl

theorem exchangeIndex_eq (h : currentIndex s (dieOfTerm s x) slotData x = some i) : exchangeIndex s x = otherIndex i := by
  rcases (currentIndex_cases h).1 with rfl | rfl <;> simp [exchangeIndex, h, otherIndex]

/-- With the other key cleared, the index that is CURRENT stays so. -/
theorem currentIndex_of_cleared {t : State} (h : currentIndex s d kind x = some i) (hi : keyOf t d kind x i = keyOf s d kind x i)
    (hother : keyOf t d kind x (otherIndex i) = {}) : currentIndex t d kind x = some i := by
  obtain ⟨h12, hcur⟩ := currentIndex_cases h
  rcases h12 with rfl | rfl
  · simp [currentIndex, hi, hcur]
  · have hone : keyOf t d kind x 1 = {} := hother
    simp [currentIndex, hi, hcur, hone]

end

/-! ### A report's fragments -/

/-- The fragments of an exchange with one more, which takes the place of one of its number. -/
def fragmentsWith (e : Exchange) (n : Nat) (bytes : List Byte) : List (Nat × List Byte) :=
  (e.fragments.filter fun p => p.1 != n) ++ [(n, bytes)]

/-- A fragment is kept. -/
def fragmentKept (x n : Nat) (bytes : List Byte) (e : Exchange) (s : State) : State :=
  modTerm x (fun y => { y with exch := some { e with fragments := fragmentsWith e n bytes } }) s

/-- The key that a whole report brings, under the terminal's KEK. -/
def reportedKey (s : State) (x : Nat) (b : List Byte) : KeyVal :=
  { st := .loaded, bytes := Config.openKeyReport (keyOf s (dieOfTerm s x) slotExchange x 1).bytes b, loadedSf := s.pon.sf }

/-- The key of a whole report is loaded and the standby told; no further message of the terminal is awaited. -/
def reportLoaded (x i : Nat) (b : List Byte) (s : State) : State :=
  sendKey (dieOfTerm s x) slotData x i
    (modTerm x (fun y => { y with needPloamu := false }) (modKey (dieOfTerm s x) slotData x i (fun _ => reportedKey s x b) s))

section
variable {x n : Nat} {bytes : List Byte} {e : Exchange} {s : State}

theorem keyReport_incomplete (h : wholeReport (fragmentsWith e n bytes) = none) :
    keyReport x n bytes e s = fragmentKept x n bytes e s := by
  unfold fragmentsWith at h
  simp [keyReport, fragmentKept, fragmentsWith, h]

theorem keyReport_whole {b : List Byte} (h : wholeReport (fragmentsWith e n bytes) = some b) :
    keyReport x n bytes e s =
      sendTo x (fun o => .keyControl o true e.index) (reportLoaded x e.index b (fragmentKept x n bytes e s)) := by
  unfold fragmentsWith at h
  simp only [keyReport, h]
  rfl

theorem termOf_fragmentKept : termOf (fragmentKept x n bytes e s) x =
    { termOf s x with exch := some { e with fragments := fragmentsWith e n bytes } } := termOf_modTerm_same ..

theorem termOf_reportLoaded {i : Nat} {b : List Byte} : termOf (reportLoaded x i b s) x = { termOf s x with needPloamu := false } := by
  rw [termOf, reportLoaded, sendKey_pon]
  exact termOf_modTerm_same ..

theorem keyOf_reportLoaded {i : Nat} {b : List Byte} (hp : keyPlace s (dieOfTerm s x) slotData x) :
    keyOf (reportLoaded x i b s) (dieOfTerm s x) slotData x i = reportedKey s x b := by
  have hslots : (reportLoaded x i b s).ciph.slots =
      (modKey (dieOfTerm s x) slotData x i (fun _ => reportedKey s x b) s).ciph.slots := by rw [reportLoaded, sendKey_ciph]; rfl
  rw [keyOf_of_slots hslots, keyOf_modKey_same hp]

theorem chOf_reportLoaded {i c : Nat} {b : List Byte} : chOf (reportLoaded x i b s) c = chOf s c := by
  rw [chOf, reportLoaded, sendKey_pon]
  rfl

end

/-! ### What a fragment leads to -/

section
variable {x n c o : Nat} {bytes : List Byte} {e : Exchange} {s : State}

/-- A fragment that leaves the report incomplete is kept, and no key changes. -/
theorem keyReport_keeps (hw : wholeReport (fragmentsWith e n bytes) = none) :
    (termOf (keyReport x n bytes e s) x).exch = some { e with fragments := fragmentsWith e n bytes } ∧
      (keyReport x n bytes e s).ciph = s.ciph := by
  rw [keyReport_incomplete hw, termOf_fragmentKept]
  exact ⟨rfl, rfl⟩

/-- The fragment that completes the report loads the key, and its confirmation waits. -/
theorem keyReport_loads {b : List Byte} (hc : (termOf s x).ch = some c) (ho : (termOf s x).onu = some o)
    (hq : hasPloamQueue (chOf s c).st = true) (hp : keyPlace s (dieOfTerm s x) slotData x)
    (hw : wholeReport (fragmentsWith e n bytes) = some b) :
    (termOf (keyReport x n bytes e s) x).exch = some { e with fragments := fragmentsWith e n bytes } ∧
      keyOf (keyReport x n bytes e s) (dieOfTerm s x) slotData x e.index = reportedKey s x b ∧
      ploamWaits c (.keyControl o true e.index) (keyReport x n bytes e s) := by
  have hterm : termOf (reportLoaded x e.index b (fragmentKept x n bytes e s)) x =
      { termOf s x with exch := some { e with fragments := fragmentsWith e n bytes }, needPloamu := false } := by
    rw [termOf_reportLoaded, termOf_fragmentKept]
  have hplace : keyPlace (fragmentKept x n bytes e s) (dieOfTerm s x) slotData x := keyPlace_of_slots (s := s) rfl rfl hp
  have hqueue : hasPloamQueue (chOf (reportLoaded x e.index b (fragmentKept x n bytes e s)) c).st = true := by
    rw [chOf_reportLoaded]; exact hq
  rw [keyReport_whole hw, sendTo_eq (c := c) (o := o) _ (by rw [hterm]; exact hc) (by rw [hterm]; exact ho)]
  refine ⟨by rw [termOf_sendPloam, hterm], ?_, sendPloam_waits _ hqueue⟩
  rw [keyOf_of_slots (congrArg CipherSt.slots (sendPloam_ciph _))]
  exact keyOf_reportLoaded hplace

end

/-! ### The switch to a new key -/

section
variable {s : State} {d : DieId} {kind owner i : Nat}

theorem makeCurrent_slots : (makeCurrent d kind owner i s).ciph.slots =
    (modKey d kind owner (otherIndex i) (fun k => if k.st = .free then k else { k with st := .retired })
      (modKey d kind owner i (fun k => { k with st := .current, since := s.pon.sf }) s)).ciph.slots := by
  simp only [makeCurrent, sendKey_ciph]

theorem makeCurrent_pon : (makeCurrent d kind owner i s).pon = s.pon := by
  simp only [makeCurrent, sendKey_pon]
  rfl

variable (hp : keyPlace s d kind owner)
include hp

theorem keyOf_makeCurrent_same :
    keyOf (makeCurrent d kind owner i s) d kind owner i = { keyOf s d kind owner i with st := .current, since := s.pon.sf } := by
  have hne : ¬ (otherIndex i = 2 ↔ i = 2) := fun h => otherIndex_other i h.symm
  rw [keyOf_of_slots makeCurrent_slots, keyOf_modKey_other (keyPlace_modKey hp ..) _ hne, keyOf_modKey_same hp]

theorem keyOf_makeCurrent_other : (keyOf (makeCurrent d kind owner i s) d kind owner (otherIndex i)).st =
    if (keyOf s d kind owner (otherIndex i)).st = .free then .free else .retired := by
  rw [keyOf_of_slots makeCurrent_slots, keyOf_modKey_same (keyPlace_modKey hp ..), keyOf_modKey_other hp _ (otherIndex_other i)]
  split
  next hfree => exact hfree
  next => rfl

end

/-! ### A frame that enters a queue -/

/-- What the terminals, the channels and the keys are read from. -/
def ponCiph (s : State) : PonSt × CipherSt := (s.pon, s.ciph)

theorem bump_ponCiph (g o j n : Nat) (s : State) : ponCiph (bump g o j n s) = ponCiph s := by simp [ponCiph]

theorem moveQueue_ponCiph (d : DieId) (deep fault : Bool) (q : Nat) (s : State) : ponCiph (moveQueue d deep fault q s) = ponCiph s := by
  unfold moveQueue
  simp only []
  split <;> rfl

theorem nearCheck_ponCiph (d : DieId) (s : State) : ponCiph (nearCheck d s) = ponCiph s := by
  unfold nearCheck
  simp only []
  split
  · split <;> rfl
  · split
    · rfl
    · exact forAll_keeps ponCiph _ (fun _ _ => moveQueue_ponCiph ..) _ _

theorem fcPin_ponCiph (pin : Nat) (s : State) : ponCiph (fcPin pin s) = ponCiph s := by
  unfold fcPin
  simp only []
  split
  · split <;> rfl
  · split
    · exact bump_ponCiph ..
    · split <;> rfl

theorem settlePans_ponCiph (s : State) : ponCiph (settlePans s) = ponCiph s :=
  (forAll_keeps ponCiph _ fcPin_ponCiph _ _).trans ((nearCheck_ponCiph ..).trans (nearCheck_ponCiph ..))

theorem queueDrop_ponCiph (q : Nat) (f : Frame) (s : State) : ponCiph (queueDrop q f s) = ponCiph s := by
  simp only [queueDrop, bump_ponCiph]

theorem panDrop_ponCiph (d : DieId) (deep : Bool) (s : State) : ponCiph (panDrop d deep s) = ponCiph s := by
  simp [panDrop, ponCiph]

/-- A frame admitted to a queue or dropped there leaves the terminals, the channels and the keys alone. -/
theorem admitQueue_ponCiph (q : Nat) (f : Frame) (s : State) : ponCiph (admitQueue q f s) = ponCiph s := by
  unfold admitQueue
  simp only []
  split
  · split; exact bump_ponCiph ..
    split; exact bump_ponCiph ..
    split; exact queueDrop_ponCiph ..
    split; exact queueDrop_ponCiph ..
    split; exact panDrop_ponCiph ..
    rw [settlePans_ponCiph, bump_ponCiph, bump_ponCiph]
    rfl
  · exact queueDrop_ponCiph ..

theorem queueOmci_ponCiph (x txn : Nat) (contents : List Byte) (s : State) : ponCiph (queueOmci x txn contents s) = ponCiph s := by
  unfold queueOmci
  split
  · rfl
  · exact admitQueue_ponCiph ..

/-- What of a terminal its requests over OMCI leave alone, and the keys. -/
def exchangeView (x : Nat) (s : State) : Option Exchange × Option SF × CipherSt := ((termOf s x).exch, (termOf s x).clearAt, s.ciph)

theorem exchangeView_of_ponCiph {x : Nat} {s t : State} (e : ponCiph t = ponCiph s) : exchangeView x t = exchangeView x s := by
  obtain ⟨hpon, hciph⟩ := Prod.mk.inj e
  simp only [exchangeView, termOf, hpon, hciph]

theorem submitOmci_exchangeView (x : Nat) (r : OmciReq) (s : State) : exchangeView x (submitOmci x r s) = exchangeView x s := by
  unfold submitOmci
  split
  · simp [exchangeView]
  · unfold launchOmci
    rw [exchangeView_of_ponCiph (queueOmci_ponCiph ..)]
    simp [exchangeView]

/-- Asking for the OMCC version leaves a terminal's exchange and the keys alone. -/
theorem askVersion_exchangeView (x : Nat) (s : State) : exchangeView x (askVersion x s) = exchangeView x s := by
  unfold askVersion ownOmci
  split
  · rfl
  · rw [submitOmci_exchangeView]
    simp [exchangeView]

/-! ### The commands of an exchange -/

section
variable {dt x : Nat} {s : State}

theorem exec_keyRefresh {i : Nat} (hheld : s.twin.held = true) (hop : (termOf s x).st = .operational)
    (hdue : (termOf s x).nextRefresh ≤ s.now + dt) (hretry : (termOf s x).exchRetryAt = none)
    (hcur : currentIndex s (dieOfTerm s x) slotData x = some i) :
    exec (.keyRefresh dt x) s = .next (startExchange x (tick dt s)) := by
  have hcur' : currentIndex (tick dt s) (dieOfTerm (tick dt s) x) slotData x = some i := hcur
  show execKeyRefresh dt x s = _
  simp [execKeyRefresh, hheld, hop, hdue, hretry, hcur']

theorem exec_keyExchangeRetry {due : Nat} (hheld : s.twin.held = true) (hretry : (termOf s x).exchRetryAt = some due)
    (hdue : due ≤ s.now + dt) : exec (.keyExchangeRetry dt x) s = .next (startExchange x (tick dt s)) := by
  show execKeyExchangeRetry dt x s = _
  simp [execKeyExchangeRetry, hheld, hretry, hdue]

/-- The report of an exchange is asked for once more. -/
def reportAskedAgain (x : Nat) (e : Exchange) (s : State) : State :=
  modTerm x (fun y => { y with exch := some { e with tries := e.tries + 1, startedAt := s.now, fragments := [] } }) s

/-- An exchange is given up, with a pause of 10 s. -/
def exchangeGivenUp (x : Nat) (s : State) : State :=
  modTerm x (fun y => { y with exch := none, exchRetryAt := some (s.now + Time.sec 10), needPloamu := false }) s

/-- An exchange is complete. -/
def exchangeComplete (x : Nat) (s : State) : State :=
  modTerm x (fun y => { y with exch := none, switchAt := none, clearAt := some (s.pon.sf + 8000), keySpent := false,
                               ctxLost := false, nextRefresh := s.now + refreshPeriod s x }) s

section
variable {e : Exchange} (hexch : (termOf s x).exch = some e)
include hexch

theorem exec_keySwitch {at_ : SF} (hswitch : (termOf s x).switchAt = some at_) (hdue : sfReached s at_ = true) :
    exec (.keySwitch dt x) s =
      .next (askVersion x (exchangeComplete x (makeCurrent (dieOfTerm s x) slotData x e.index (tick dt s)))) := by
  have hdue' : sfReached (tick dt s) at_ = true := hdue
  show execKeySwitch dt x s = _
  simp only [execKeySwitch, termOf_tick, hexch, hswitch, hdue', if_true]
  rfl

variable (hheld : s.twin.held = true) (hload : exchangeLoaded s x = false)
include hheld hload

theorem exec_keyReport {n : Nat} {bytes : List Byte} :
    exec (.keyReport dt x n bytes) s = .next (keyReport x n bytes e (tick dt s)) := by
  have hload' : exchangeLoaded (tick dt s) x = false := hload
  show execKeyReport dt x n bytes s = _
  simp [execKeyReport, hheld, hexch, hload']

variable (hlate : e.startedAt + Time.sec 3 ≤ s.now + dt)
include hlate

theorem exec_keyReportTimeout_again (ht : e.tries < 3) :
    exec (.keyReportTimeout dt x) s =
      .next (sendTo x (fun o => .keyControl o false e.index) (reportAskedAgain x e (tick dt s))) := by
  have hload' : exchangeLoaded (tick dt s) x = false := hload
  show execKeyReportTimeout dt x s = _
  simp [execKeyReportTimeout, hheld, hexch, hload', Nat.not_lt.2 hlate, ht, reportAskedAgain]

theorem exec_keyReportTimeout_over (ht : ¬ e.tries < 3) :
    exec (.keyReportTimeout dt x) s =
      .next (raise Ev.keyExchangeFailed (dieOfTerm s x) [.u16 x] (bump 10 x Cn.keyFails 1 (exchangeGivenUp x (tick dt s)))) := by
  have hload' : exchangeLoaded (tick dt s) x = false := hload
  have hdie : dieOfTerm (tick dt s) x = dieOfTerm s x := rfl
  show execKeyReportTimeout dt x s = _
  simp [execKeyReportTimeout, hheld, hexch, hload', Nat.not_lt.2 hlate, ht, exchangeGivenUp, hdie]

end

theorem exec_keyClear {at_ : SF} {i : Nat} (hclear : (termOf s x).clearAt = some at_)
    (hcur : currentIndex s (dieOfTerm s x) slotData x = some i) (hdue : sfReached s at_ = true) :
    exec (.keyClear dt x) s = .next (sendKey (dieOfTerm s x) slotData x (otherIndex i)
      (modKey (dieOfTerm s x) slotData x (otherIndex i) (fun _ => {}) (modTerm x (fun y => { y with clearAt := none }) (tick dt s)))) := by
  have hcur' : currentIndex (tick dt s) (dieOfTerm (tick dt s) x) slotData x = some i := hcur
  have hdue' : sfReached (tick dt s) at_ = true := hdue
  have hslot : (slotFor? (modTerm x (fun y => { y with clearAt := none }) (tick dt s))
      (dieOfTerm (tick dt s) x) slotData x).isSome = true := slotFor?_of_currentIndex hcur
  show execKeyClear dt x s = _
  simp only [execKeyClear, termOf_tick, hclear, hcur', hdue', if_true, clearKey, hslot]
  rfl

end

/-- Settles O34, by the state that each command of an exchange leads to and what the slot and the terminal then read as. -/
theorem keyExchangesRunToTheirEnd : Obligations.KeyExchangesRunToTheirEnd := by
  unfold Obligations.KeyExchangesRunToTheirEnd
  refine ⟨?refresh, ?retry, ?report, ?timeout, ?switch, ?clear⟩
  case refresh =>
    intro dt x c o i s hheld hop hc ho hq hnone hretry hdue hcur
    obtain ⟨hexch, -, hwaits, hterms, honly⟩ := startExchange_starts (s := tick dt s) hheld hop hc ho hq hnone
    have hindex : exchangeIndex (tick dt s) x = otherIndex i := exchangeIndex_eq hcur
    have hall := only_then (tick_only _ dt s) honly (List.Subset.refl _)
    rw [hindex] at hexch hwaits
    refine ⟨_, exec_keyRefresh hheld hop hdue hretry hcur, ?_, hwaits, hterms, hall⟩
    rw [hexch, hall.2.1]; rfl
  case retry =>
    intro dt x c o due s hheld hop hc ho hq hnone hretry hdue
    obtain ⟨hexch, hnext, hwaits, hterms, honly⟩ := startExchange_starts (s := tick dt s) hheld hop hc ho hq hnone
    have hall := only_then (tick_only _ dt s) honly (List.Subset.refl _)
    refine ⟨_, exec_keyExchangeRetry hheld hretry hdue, ?_, hnext, hwaits, hterms, hall⟩
    rw [hexch, hall.2.1]; rfl
  case report =>
    intro dt x c o e n bytes s hheld hc ho hq hexch hload hp
    cases hw : wholeReport ((e.fragments.filter fun p => p.1 != n) ++ [(n, bytes)]) with
    | none => exact ⟨_, exec_keyReport hexch hheld hload, keyReport_keeps (s := tick dt s) hw⟩
    | some b => exact ⟨_, exec_keyReport hexch hheld hload,
        keyReport_loads (s := tick dt s) hc ho hq (keyPlace_of_slots (s := s) rfl rfl hp) hw⟩
  case timeout =>
    intro dt x c o e s hheld hc ho hq hexch hload hlate
    by_cases ht : e.tries < 3
    · simp only [if_pos ht]
      refine ⟨_, exec_keyReportTimeout_again hexch hheld hload hlate ht, ?_⟩
      have hterm : termOf (reportAskedAgain x e (tick dt s)) x =
          { termOf s x with exch := some { e with tries := e.tries + 1, startedAt := s.now + dt, fragments := [] } } :=
        termOf_modTerm_same ..
      rw [sendTo_eq (c := c) (o := o) _ (by rw [hterm]; exact hc) (by rw [hterm]; exact ho)]
      refine ⟨?_, sendPloam_waits _ hq⟩
      rw [termOf_sendPloam, hterm, (sendPloam_only _).2.1]
      rfl
    · simp only [if_neg ht]
      obtain ⟨l, hheld'⟩ := bump_held 10 x Cn.keyFails 1 (exchangeGivenUp x (tick dt s))
      refine ⟨_, exec_keyReportTimeout_over hexch hheld hload hlate ht, ?_, ?_, raisedAmong_raise hheld'⟩
      · rw [termOf_raise, termOf_bump, exchangeGivenUp, termOf_modTerm_same]
      · rw [termOf_raise, termOf_bump, exchangeGivenUp, termOf_modTerm_same, raise_now, bump_now]
        rfl
  case switch =>
    intro dt x e at_ s hexch hswitch hdue _ hp
    refine ⟨_, exec_keySwitch hexch hswitch hdue, ?_⟩
    have hview := askVersion_exchangeView x (exchangeComplete x (makeCurrent (dieOfTerm s x) slotData x e.index (tick dt s)))
    simp only [exchangeView, Prod.mk.injEq] at hview
    obtain ⟨hexch', hclear', hciph⟩ := hview
    have hslots := congrArg CipherSt.slots hciph
    have hplace : keyPlace (tick dt s) (dieOfTerm s x) slotData x := keyPlace_of_slots (s := s) rfl rfl hp
    have hcur := keyOf_makeCurrent_same (i := e.index) hplace
    refine ⟨?_, ?_, ?_, ?_, ?_⟩
    · rw [keyOf_of_slots hslots]; exact congrArg KeyVal.st hcur
    · rw [keyOf_of_slots hslots]; exact congrArg KeyVal.since hcur
    · rw [keyOf_of_slots hslots]; exact keyOf_makeCurrent_other hplace
    · rw [hexch', exchangeComplete, termOf_modTerm_same]
    · rw [hclear', exchangeComplete, termOf_modTerm_same, makeCurrent_pon, tick_pon]
  case clear =>
    intro dt x at_ i s hclear hcur hdue hp
    refine ⟨_, exec_keyClear hclear hcur hdue, ?_⟩
    have hplace : keyPlace (modTerm x (fun y => { y with clearAt := none }) (tick dt s)) (dieOfTerm s x) slotData x :=
      keyPlace_of_slots (s := s) rfl rfl hp
    have hother := keyOf_modKey_same hplace (otherIndex i) (fun _ => {})
    have hsame := keyOf_modKey_other hplace (fun _ => {}) fun h => otherIndex_other i h.symm
    refine ⟨?_, ?_, ?_, ?_⟩
    · rw [keyOf_of_slots (congrArg CipherSt.slots (sendKey_ciph ..))]; exact hother
    · rw [currentIndex_of_slots (congrArg CipherSt.slots (sendKey_ciph ..))]
      exact currentIndex_of_cleared hcur hsame hother
    · rw [termOf, sendKey_pon]
      exact congrArg Terminal.clearAt (termOf_modTerm_same ..)
    · exact only_then (only_then (only_then (tick_only _ dt s) (modTerm_only ..) (by simp)) (setCiph_only ..) (by simp))
        (sendKey_only ..) (by simp)

end Sys2Proof.Machine
end
